-- ==== Sys2Proof/Word.lean ====
section
/-!
DEFINITION. Word.lean: the bit-vector types of the model and nothing else.
The spec is little-endian and byte-addressed (R11); registers are 32 or 64 bits wide (R12).
-/
namespace Sys2Proof

/-- One byte, the smallest addressable unit. -/
abbrev Byte := BitVec 8

/-- A 32-bit word: a register, a descriptor word or an FP32 bit pattern. -/
abbrev Word := BitVec 32

/-- A 64-bit word: a wide register, an address or a seed. -/
abbrev DWord := BitVec 64

end Sys2Proof
end

