-- ==== Sys2Proof/Syntax.lean ====
section
/-!
DEFINITION. Syntax.lean: the commands of the block, one constructor per row of spec/opcode_table.json.
What a command's row names (a register value, a message, a sensor's reading) is its operand. Operands named `fn`
are host functions 0 to 15 (R480), `ctx` context numbers (R286), `chan` global channel numbers (R19), `port` ports,
`ue` lists the granules at which a stack or a Datum store reports an uncorrectable error (R253). The `kind` of a memory
fatal error is D2 of its record (Table 20.4), and `at_` is the line whose tag failed or the tally's index.
-/
namespace Sys2Proof

/-- Where a core command takes its bytes from. -/
inductive Src where
  /-- The unit's working region, at an offset. -/
  | tile (off : Nat)
  /-- The last message the unit read, at an offset. -/
  | msg (off : Nat)
  /-- The data of the unit's last reach load, at an offset. -/
  | data (off : Nat)
  /-- Bytes of the instruction itself. -/
  | imm (bytes : List Byte)
deriving DecidableEq, Repr

/-- Where a stochastic conversion draws (R163, Table 9.5): the stream and tensor numbers that the instruction names, and
the index in the tensor's logical order of the operation's first element. -/
structure Rounding where
  stream : Nat
  tensor : Nat
  base : Nat
deriving DecidableEq, Repr

/-- Where a dithered element stands (R406): latent channel, local tile, the width of the tile as its values are packed, and
the place in that packing of the operation's first element. -/
structure Dither where
  channel : Nat
  tile : Nat
  width : Nat
  base : Nat
deriving DecidableEq, Repr

/-- A program draw (Table 9.5, purposes 0x03 and 0x10 to 0xFE): what the instruction names. -/
structure ProgramDraw where
  purpose : Nat
  plane : Nat
  tile : Nat
  base : Nat
deriving DecidableEq, Repr

/-- The fused epilogue of a Grid operation (R164 to R167). -/
structure Epilogue where
  /-- Skip the epilogue and write INT32 (R167). -/
  int32 : Bool
  /-- FP32 bias and scale of channel 0; channel `c` (the output column) lies 4 × c bytes on. -/
  bias : Option Src
  act : Nat
  /-- Cap of activation 2 or slope of activation 3: an FP32 value. -/
  actArg : Option Src
  scale : Option Src
  fmt : Nat
  /-- Stochastic rounding (R163); `base` stands for element (0, 0) of the operation's output. -/
  stochastic : Option Rounding
  /-- Offset of the output in the working region. -/
  dst : Nat
deriving DecidableEq, Repr

/-- One Grid operation (R150): C = A × B with A of m rows and k columns, B of k rows and n columns, row major. -/
structure GridArgs where
  free : Bool
  fmtA : Nat
  fmtB : Nat
  m : Nat
  n : Nat
  k : Nat
  a : Src
  b : Src
  /-- Number of the first accumulation: element (i, j) uses accumulation acc + i × n + j. -/
  acc : Nat
  /-- The products add to accumulations already begun. -/
  continues : Bool
  epilogue : Option Epilogue
deriving DecidableEq, Repr

/-- The vector-unit operations (Table 4.5), the two stream operations of Pholan streams and the program draws. -/
inductive VecOp where
  | add | sub | mul | fma | div | sqrt | compare | min | max
  /-- Conversion to a format, with stochastic rounding where the instruction names its draws; that rounding is a Free-mode
  operation (R163). -/
  | convert (fmt : Nat) (stochastic : Option Rounding)
  /-- Quantisation of FP32 latents of one tile to i16, in the dithered layer with what places its draws (R406, R407). -/
  | quantise (dither : Option Dither)
  /-- Reconstruction of FP32 latents from i16 (R407). -/
  | reconstruct (dither : Option Dither)
  /-- Draws of 16 bits, at successive positions (R341, R342). -/
  | draw (args : ProgramDraw)
deriving DecidableEq, Repr

/-! ### What a frame commit is given of its stream (chapter 11) -/

/-- The media of a stream (Table 11.4): video with its width, height, frame rate and bit depth, or audio with its channels. -/
inductive Media where
  | video (width height fpsNum fpsDen : Nat) (tenBit : Bool)
  | audio (channels : Nat)
deriving DecidableEq, Repr

/-- A layer descriptor (Table 11.5); MODE 1 is the mixture mode. -/
structure Layer where
  channels : Nat
  latW : Nat
  latH : Nat
  mixture : Bool
  dither : Bool
  tableSet : Nat
  mixN : Nat
  mixOffset : Int
  mixK : Nat
deriving DecidableEq, Repr

/-- A coded tile: of its tile record (Table 10.6) CHECK, FORM and NAN_FALLBACK, and its LENGTH bytes. -/
structure CodedTile where
  check : Nat
  escape : Bool
  nanFallback : Bool
  data : List Byte
deriving DecidableEq, Repr

/-- What the Survey and the model package give the frame unit and, at the stream's first frame unit, the header: the header's
INTRA_MAX, SOURCE_ID, MODEL_DIGEST, media and layers, whether the frame is intra, its tiles in global order, and its
reconstructed output (R397 to R403). -/
structure StreamParts where
  intraMax : Nat
  sourceId : Nat
  digest : List Byte
  media : Media
  layers : List Layer
  intra : Bool
  tiles : List CodedTile
  recon : List Byte
deriving DecidableEq, Repr

/-- One vector operation over `n` elements; `free` says its mode, which only stochastic rounding asks for (R163). -/
structure VecArgs where
  op : VecOp
  free : Bool
  fmt : Nat
  n : Nat
  a : Src
  b : Src
  c : Src
  dst : Nat
deriving DecidableEq, Repr

/-- Where a corrected memory error was found (R253): a stack, a Datum store, or the line of an address in the quarter's
stream read cache. -/
inductive MemSite where
  | stack
  | datum
  | streamLine (addr : Nat)
deriving DecidableEq, Repr

/-- The six built-in functions (Table 5.1). -/
inductive FuFn where
  | tanh | logistic | exp | ln | recip | rsqrt
deriving DecidableEq, Repr

/-- One row operation: `n` elements of a format; in Free mode `parts` are the lengths of the cores' ranges. -/
structure RowArgs where
  free : Bool
  fmt : Nat
  n : Nat
  src : Src
  outFmt : Nat
  dst : Nat
  parts : List Nat
deriving DecidableEq, Repr

/-- What a normalisation takes besides the row (R206). -/
structure NormArgs where
  eps : Word
  gamma : Option Word
  beta : Option Word
deriving DecidableEq, Repr

/-- A row-partial emission (R199): KIND, the partitions p0 to p1 of an n-element row, or in Free mode the elements p0 up
to p1, less one. The row operand begins at the first of their elements: a core holds its own part of the row. -/
structure EmitArgs where
  kind : Nat
  p0 : Nat
  p1 : Nat
deriving DecidableEq, Repr

/-- What the Herder chose at a dispatch (R299 to R303): cores of the core units, channels and engines of the others,
both in unit order. -/
structure Placement where
  cores : List Nat
  places : List Nat
deriving DecidableEq, Repr

/-- Granules reported uncorrectable, each with whether the Datum store (and not the stack) found it (Table 6.16). -/
abbrev UeList := List (Nat × Bool)

/-- What a Retriever start is given from outside the module. -/
structure StartArgs where
  /-- Which unit queue of an instance-mode channel the arbiter takes (R262); ignored in driver mode. -/
  queue : Nat
  /-- The bytes host memory returned for the command's reads of it, in the order source, context record. -/
  host : List Byte
  hostFail : Bool
  ue : UeList
deriving DecidableEq, Repr

/-- The end of an audit's drain; `peerLeash` is the L that the sending half of a route from another member holds, and a
local route's audit ignores it (R61). -/
structure AuditDrain where
  quarter : Nat
  peerLeash : Nat
deriving DecidableEq, Repr

/-- An admission request of a function, with what its rechecks of weight granules met (R115). -/
structure AdmitArgs where
  fn : Nat
  ue : UeList
deriving DecidableEq, Repr

/-- A commit; `parts` is used for a context of a stream profile alone. -/
structure CommitArgs where
  ctx : Nat
  parts : StreamParts
deriving DecidableEq, Repr

/-- The bytes of a put that arrives, whether its module has cancelled it, and what their writing met (R244, R254, R279). -/
structure PutArrival where
  bytes : List Byte
  cancelled : Bool
  ue : UeList
deriving DecidableEq, Repr

/-- The data of a peer's report, empty but for a get's, and what its writing met (R244, R254). -/
structure PeerReport where
  bytes : List Byte
  ue : UeList
deriving DecidableEq, Repr

/-- The start of a decoder, with what its reads of reference pictures met (R253). -/
structure DecodeStart where
  decoder : Nat
  ue : UeList
deriving DecidableEq, Repr

/-- The sensor values of one thermal unit (Table 19.1), in 1/16 °C. -/
abbrev Sensors := List Int

/-- The commands. -/
inductive Instr where
  -- Registers and access
  | registerWrite (fn off : Nat) (wide : Bool) (value : DWord)
  | badAccess (fn off size : Nat) (write : Bool)
  -- Fabric
  | routeSend (ctx unit port : Nat) (src : Src) (len : Nat)
  | blockedSendProceed (route : Nat)
  | messageArrive (route seq : Nat) (msg : List Byte)
  | routeRead (ctx unit port : Nat)
  | blockedReadProceed (route : Nat)
  | slotFree (route : Nat)
  | leashReceive (route : Nat)
  | auditPeriodTick (quarter : Nat)
  | auditRequest (fn quarter route : Nat)
  | auditDrainDone (drain : AuditDrain)
  | auditDrainTimeout (drain : AuditDrain)
  | stallDetected (ctx : Nat)
  | crossingParityError (route : Nat) (leash : Bool)
  | routeReclaimDone (route : Nat)
  -- Survey images
  | loadRequest (fn slot : Nat)
  | replaceRequest (fn slot : Nat)
  | unloadRequest (fn slot : Nat)
  | invalidSurveyOp (fn slot : Nat)
  | loadStart
  | slotCommit (ue : UeList)
  | loadRefused (ue : UeList)
  -- Core arithmetic
  | gridOp (ctx unit : Nat) (args : GridArgs)
  | exportPartial (ctx unit acc dst : Nat)
  | mergePartial (ctx unit acc : Nat) (src : Src)
  | vectorOp (ctx unit : Nat) (args : VecArgs)
  | functionUnitEval (ctx unit : Nat) (f : FuFn) (fmt n : Nat) (src : Src) (outFmt dst : Nat)
  | rowReduce (ctx unit : Nat) (args : RowArgs)
  | softMaximum (ctx unit : Nat) (args : RowArgs)
  | normalisation (ctx unit : Nat) (args : RowArgs) (norm : NormArgs)
  | rowPartialEmit (ctx unit : Nat) (args : RowArgs) (emit : EmitArgs)
  | rowPartialMerge (ctx unit : Nat) (a b : Src) (dst : Nat)
  -- Cores
  | reachLoad (ctx unit addr len : Nat) (isVolatile : Bool) (ue : UeList)
  | reachLoadReturn (ctx unit : Nat) (ue : UeList)
  | tallyWait (ctx unit tally : Nat) (target : Word)
  | tallyWaitRelease (ctx unit : Nat)
  | unitEnd (ctx unit : Nat)
  | coreEccCorrected (core : Nat)
  | coreCacheParityError (core addr : Nat)
  | coreFatalError (core : Nat)
  -- Herder and fencing
  | fenceCancelDone (core : Nat)
  | coreWatchdogExpiry (core : Nat)
  | driverFence (fn : Nat)
  | unfenceRequest (fn : Nat)
  | extendedTestDone (core : Nat) (pass : Bool)
  | contextAdmit (ask : AdmitArgs)
  | contextEndAfterFrame (fn : Nat)
  | contextEndNow (fn : Nat)
  | contextFreed (ctx : Nat)
  | frameArrive (ctx : Nat)
  | frameDispatch (ctx : Nat) (placement : Placement)
  | frameCommit (args : CommitArgs)
  -- Counter generator
  | rngCompute (fn : Nat) (value : Word)
  | rngComplete (fn : Nat)
  -- Retrievers
  | copy (chan : Nat) (start : StartArgs)
  | copy2d (chan : Nat) (start : StartArgs)
  | gather (chan : Nat) (start : StartArgs) (index : List Byte)
  | fill (chan : Nat) (start : StartArgs)
  | gateSend (chan : Nat) (start : StartArgs)
  | peerPut (chan : Nat) (start : StartArgs)
  | peerGet (chan : Nat) (start : StartArgs)
  | dictCompress (chan : Nat) (start : StartArgs)
  | dictExpand (chan : Nat) (start : StartArgs)
  | rtvCommandComplete (chan tag : Nat)
  | recordRingRelease (chan : Nat)
  | rtvCommandFail (chan tag code : Nat)
  | channelResume (fn chan : Nat)
  | channelDrop (fn chan : Nat)
  | tallyValueWrite (fn : Nat) (value : Word)
  | channelFatalError (chan : Nat)
  | crecTailWrite (fn chan : Nat) (value : Word)
  | peerPutArrive (member job addr tally : Nat) (put : PutArrival)
  | peerGetArrive (member job addr len : Nat) (ue : UeList)
  | peerReportReceive (chan tag : Nat) (ok : Bool) (data : PeerReport)
  | peerReportTimeout (chan tag : Nat)
  -- Entropy engines
  | encode (engine ctx unit : Nat) (ue : UeList)
  | decode (engine ctx unit : Nat) (ue : UeList)
  | ecCommandComplete (engine serial : Nat)
  | ecEngineFatal (engine : Nat)
  -- Dictionary engine error
  | dceEngineFatal (engine : Nat)
  -- Memory system
  | memInvalRequest (fn : Nat)
  | memInvalDone
  | patrolScrub (addr : Nat)
  | memCorrectedError (quarter : Nat) (site : MemSite)
  | memFatalError (quarter kind at_ : Nat)
  -- Gate ports and ingest
  | gateFrameReceive (port : Nat) (bytes : List Byte)
  | auCloseTimeout (stream : Nat)
  | auRelease (stream : Nat)
  | pictureDecodeStart (start : DecodeStart)
  | pictureWritten (decoder : Nat)
  | decoderFatalError (decoder : Nat)
  | streamEnable (fn : Nat) (value : Word)
  | streamDisable (fn : Nat) (value : Word)
  | portEnable (fn port : Nat) (value : Word)
  | gateLinkUp (port : Nat)
  | gateLinkDown (port : Nat)
  | hostFeedDoorbell (fn : Nat) (value : Word)
  | hostFeedDescriptor (fn : Nat) (bytes payload : List Byte) (readOk payloadOk : Bool)
  | excTailWrite (fn : Nat) (value : Word)
  -- Host interface
  | bar2Read (fn off len : Nat) (ue : UeList)
  | bar2Write (fn off : Nat) (data : List Byte) (ue : UeList)
  | bar2BaseWrite (fn : Nat) (value : DWord)
  | sqBind (fn ring : Nat) (value : Word)
  | sqDoorbell (fn ring : Nat) (value : Word)
  | sqEntryFetch (fn ring : Nat) (bytes : List Byte) (ok : Bool)
  | frameSubmission (fn ring : Nat) (bytes : List Byte) (ok : Bool)
  | sqResume (fn ring : Nat)
  | sqDrop (fn ring : Nat)
  | waitingEntryPlaced (fn ring : Nat)
  | oqCidxWrite (fn ring : Nat) (value : Word)
  | oqIrqCoalesceExpiry (fn ring : Nat)
  | drainBoundExpiry (fn ring : Nat)
  | functionLevelReset (fn : Nat)
  | vfEnableChange (numVfs : Nat) (enable : Bool)
  | perstAssert
  | perstRelease
  | pcieLinkUp (speed width : Nat)
  | pcieLinkDown
  | endpointFatalError
  | warmResetRequest (fn : Nat)
  -- Packs
  | packForm (fn : Nat)
  | packLeave (fn : Nat)
  | traverseLinkUp (port : Nat) (moduleOk : Bool)
  | linkGreetingReceive (port : Nat) (moduleId packId : DWord) (member : Nat) (asym : Word) (rttNs : Nat)
  | fingerprintReceive (port : Nat) (print : List Byte) (delay : Nat) (differs : Option Nat)
  | formedReceive (port : Nat) (lead : Nat) (epoch : DWord)
  | refusedReceive (port member : Nat)
  | formTimeoutExpiry
  | calibrationRoundStart (port : Nat)
  | probeSend (port : Nat)
  | probeReceive (port seq turnaround : Nat)
  | probeReplyReceive (port seq : Nat)
  | probeTimestampsReceive (port seq t1 t4 : Nat)
  | syntonisationLoss
  | rateAnnounceReceive (port : Nat) (ppb : Int) (effective : DWord)
  | rateChangeApply
  | epochLoadRequest (fn : Nat)
  | epochPpsEdge
  | externalSourceTimeout
  | whistleArrive (port job frame : Nat) (digest : Word) (epochOk : Bool) (differs : Option Nat) (members : Nat)
  | whistleRelease (port job frame : Nat) (time : DWord)
  | whistleReleaseTime (job : Nat)
  | whistleAbort (port job frame code : Nat)
  | barrierTimeout (job : Nat)
  | arriveTimeout (job : Nat)
  | whistleFail (port job frame code : Nat)
  | failTimeout (job : Nat)
  | flitReceive (port seq : Nat) (payload : List Byte) (crcOk : Bool)
  | replayRequestReceive (port seq : Nat)
  | fecLockLossTimeout (port : Nat)
  | retrainDone (port : Nat) (ok : Bool)
  | traverseLinkDown (port : Nat)
  | portStateFatal (port : Nat)
  -- Power, wake-up and shutdown
  | pwrEnRise (slotId : Nat)
  | pwrEnFall
  | undervoltageFault
  | overvoltageFault
  | restartRecordTimeout
  | shutdownACancel
  | shutdownAExpiry
  | shutdownBDone
  | wakeStepComplete
  | wakeStepTimeout (cause : Nat)
  | wakeRetryTimer
  | statusState
  | statusCause
  | statusWakeInfo
  | statusSlot
  | statusVin
  | statusIdent
  | statusRrCount
  | retry (data : Byte)
  | alertResponse
  | smbusClockTimeout
  | profileChange (fn profile : Nat)
  | profileChangeComplete
  | powerLimiterStep (powerW : Nat)
  | powerLimitPersist
  | restartRecordsClear (fn : Nat)
  | vinMarginalTimeout (vinMv : Nat)
  | resetNAssert
  | resetNRelease
  | slotIdRecheck (slotId : Nat)
  | readbackCheck (mismatch : Bool)
  | tapInstructionLoad (code : Nat)
  | fbRead (index : Nat)
  -- Boot chain and the Cadastre
  | selfTestComplete (kind index : Nat) (pass : Bool)
  | zeroFillDone
  | firmwareCheckDone
  | bootWindowTimeout
  | bootComplete
  | cadRegisterWrite (fn off : Nat) (wide : Bool) (value : DWord)
  | cadPortWrite (value : Nat)
  | policyInstall (bytes : List Byte)
  | firmwareUpdate (bytes : List Byte)
  | firmwareActivate
  -- Thermal system
  | forecasterStep (sensors : List Sensors) (forecasts : List Int)
  | fallbackStep (quarter : Nat) (sensors : List Sensors)
  | thermalTrip (quarter : Nat)
  | fanDemandUpdate
  | thermalCeilingUpdate
  | cycleSample
  | hourBandUpdate
  -- Errors, Field book and Handler
  /-- `failed` is how many flash blocks fail to erase or program under the write (R682). -/
  | fieldBookPeriodicWrite (failed : Nat)
  | fieldBookAppend (failed : Nat)
  | alertClear (fn : Nat) (value : Word)
  | errorRingEnable (fn : Nat) (value : Word)
  | erlRingTailWrite (fn : Nat) (value : Word)
  | handlerWatchdogExpiry
  | handlerResetRequest (fn : Nat)
  | handlerReturn
  | handlerReturnTimeout
  | fbCopy (fn : Nat)
  | fbExport (fn : Nat)
  | note (fn : Nat)
  | mailboxComplete (fn : Nat)
  | mctpSetEndpointId (smbus : Bool) (body : List Byte)
  | mctpGetEndpointId (smbus : Bool) (body : List Byte)
  | mctpGetEndpointUuid (smbus : Bool) (body : List Byte)
  | mctpGetVersionSupport (smbus : Bool) (body : List Byte)
  | mctpGetMessageTypeSupport (smbus : Bool) (body : List Byte)
  | mctpPacketError
  | getTid (smbus : Bool) (body : List Byte)
  | setTid (smbus : Bool) (body : List Byte)
  | getPldmVersion (smbus : Bool) (body : List Byte)
  | getPldmTypes (smbus : Bool) (body : List Byte)
  | getPldmCommands (smbus : Bool) (body : List Byte)
  | pdrRepositoryCommand (smbus : Bool) (body : List Byte)
  | getSensorReading (smbus : Bool) (body : List Byte)
  | getStateSensorReadings (smbus : Bool) (body : List Byte)
  | setStateEffecterStates (smbus : Bool) (body : List Byte)
  | setEventReceiver (smbus : Bool) (body : List Byte)
  | platformEventAck (id : Nat)
  | platformEventRetry (id : Nat)
  | inputGood (slotId : Nat)
  | quarterFatalError (unit : Nat)
  | syntonisationLock
deriving DecidableEq, Repr

end Sys2Proof
end

