-- ==== Sys2Proof/Config.lean ====
section
/-!
DEFINITION. Config.lean: what one part or one implementation fixes and the spec leaves open, as constants without a
body. No proof can learn a value of any of them, so a claim holds whatever they are. Each is named in the assumption
log. The counter they are applied to is the state's `freeCount`, or the operands they depend on.
-/
namespace Sys2Proof.Config

/-- A value the spec does not fix, fresh at each use: applied to the state's counter of free values. -/
opaque freeNat : Nat → Nat

/-- The `i`-th byte of a byte string the spec leaves unspecified, fresh at each use. -/
opaque freeByte (free i : Nat) : Byte

/-- Whether the `i`-th granule of a started command is already visible before its completion (R224). -/
opaque landed (free i : Nat) : Bool

/-- Whether a read cache has evicted a line for capacity by the time of a read (R231). -/
opaque evicted (free granule : Nat) : Bool

/-- The set of a read cache that a granule falls in, before the number of sets divides it, and which of a full set's lines
gives way (Table 6.3 gives sizes and ways, and no rule for either). -/
opaque cacheSet (granule : Nat) : Nat
opaque victim (free granule : Nat) : Nat

/-- Which faithful neighbour an FP32 function-unit result takes, true for the one above: it depends only on the
function, the input bits and format, the table revision and the tier (R188). -/
opaque fuUpper (function input fmt revision tier : Nat) : Bool

/-- What the loader's scan finds in a unit's code (R190, R342), whose encoding the spec does not give: an FP32-output
function instruction, a Free-mode row instruction, a draw of a reserved purpose. -/
opaque scanFp32 (code : List Byte) : Bool
opaque scanFreeRow (code : List Byte) : Bool
opaque scanReserved (code : List Byte) : Bool

/-- What standard decode makes of an access unit: whether its picture is kept for reference, and the samples of the three
planes, none where no slice decoded them (R458 to R460). -/
structure Decoded where
  kept : Bool
  y : List (Option Nat)
  cb : List (Option Nat)
  cr : List (Option Nat)

/-- Standard video decode: codec (0 H.264, 1 H.265), the NAL units of the access units this stream has decoded, oldest
first, and those of this one; none where no slice decodes. The standards are outside the spec. -/
opaque decodeVideo (codec : Nat) (history : List (List (List Byte))) (nals : List (List Byte)) : Option Decoded

/-- Spare blocks of the Field book's flash (R682). -/
opaque flashSpares : Nat

/-- The build identifier inside a firmware image (HND_BUILD_ID). -/
opaque buildId (image : List Byte) : DWord

/-- The Mionum firmware key whose SHA-384 is fused at manufacture, SEC 1 uncompressed (R610). -/
opaque firmwareKey : List Byte

/-- What a function reads in the ING_STRM_ registers of a stream whose context it did not admit (R479): by function, stream
and register. -/
opaque hiddenRead (fn stream reg : Nat) : DWord

/-- Mionum's JEP106 manufacturer identity code in IDCODE (R576). -/
opaque manufacturer : BitVec 11

end Sys2Proof.Config
end

