-- ==== Sys2Proof/Machine/Bytes.lean ====
section
/-!
DEFINITION. Machine/Bytes.lean: bit fields, little-endian byte strings and the checksums of the spec.
-/
namespace Sys2Proof.Machine

/-- Bits [lo + w - 1 : lo] of a register value. -/
def fld (v : DWord) (lo w : Nat) : BitVec w := v.extractLsb' lo w

/-- One bit of a register value. -/
def bitOf (v : DWord) (i : Nat) : Bool := v.getLsbD i

/-- Bits [lo + w - 1 : lo] of a natural number. -/
def nfld (v lo w : Nat) : Nat := (v >>> lo) % 2 ^ w

/-- A truth value as a bit at position `i`, for packing a register view. -/
def bitAt (i : Nat) (b : Bool) : Nat := if b then 2 ^ i else 0

/-- The number a little-endian byte string spells. -/
def leNat : List Byte → Nat
  | [] => 0
  | b :: r => b.toNat + 256 * leNat r

/-- The `n` bytes of a number, least significant first. -/
def natLe : Nat → Nat → List Byte
  | 0, _ => []
  | n + 1, v => BitVec.ofNat 8 v :: natLe n (v / 256)

/-- Bytes [off, off + n) of a string, short when the string ends. -/
def slice (bs : List Byte) (off n : Nat) : List Byte := (bs.drop off).take n

/-- The little-endian number held in bytes [off, off + n) of a string. -/
def leAt (bs : List Byte) (off n : Nat) : Nat := leNat (slice bs off n)

/-- The value of a `w`-bit two's complement pattern. -/
def toSigned (w v : Nat) : Int := if v < 2 ^ (w - 1) then (v : Int) else (v : Int) - (2 ^ w : Nat)

/-- The `w`-bit two's complement pattern of an integer. -/
def ofSigned (w : Nat) (i : Int) : Nat := (i % ((2 ^ w : Nat) : Int)).toNat

/-- One more, staying at all ones (a saturating counter). -/
def satInc {w : Nat} (c : BitVec w) : BitVec w := if c = BitVec.allOnes w then c else c + 1

/-- `n` more, staying at all ones. -/
def satAdd {w : Nat} (c : BitVec w) (n : Nat) : BitVec w :=
  if c.toNat + n < 2 ^ w then BitVec.ofNat w (c.toNat + n) else BitVec.allOnes w

/-- A number held in a `w`-bit register that stops at all ones. -/
def satNat (w n : Nat) : BitVec w := if n < 2 ^ w then BitVec.ofNat w n else BitVec.allOnes w

/-- `a` rounded up to a multiple of `n`. -/
def alignUp (n a : Nat) : Nat := (a + n - 1) / n * n

/-- `k` reflected-CRC steps: shift right, and fold the polynomial in where a one falls out. -/
def crcBits (poly : Nat) : Nat → Nat → Nat
  | 0, c => c
  | k + 1, c => crcBits poly k (if c % 2 = 1 then (c >>> 1) ^^^ poly else c >>> 1)

/-- A reflected CRC over a byte string from a start value. -/
def crcRefl (poly : Nat) : Nat → List Byte → Nat
  | c, [] => c
  | c, b :: r => crcRefl poly (crcBits poly 8 (c ^^^ b.toNat)) r

/-- `k` steps of a most-significant-bit-first CRC of width `w`. -/
def crcMsbBits (w poly : Nat) : Nat → Nat → Nat
  | 0, c => c
  | k + 1, c => crcMsbBits w poly k ((if c.testBit (w - 1) then (c * 2) ^^^ poly else c * 2) % 2 ^ w)

/-- A most-significant-bit-first CRC of width `w` over a byte string from a start value. -/
def crcMsb (w poly : Nat) : Nat → List Byte → Nat
  | c, [] => c
  | c, b :: r => crcMsb w poly (crcMsbBits w poly 8 (c ^^^ (b.toNat <<< (w - 8)))) r

/-- CRC-32C (Castagnoli), reflected, start and final complement of all ones. -/
def crc32c (bs : List Byte) : Nat := crcRefl 0x82F63B78 0xFFFFFFFF bs ^^^ 0xFFFFFFFF

/-- The bytes of a text constant. -/
def asciiBytes (s : String) : List Byte := s.toList.map fun c => BitVec.ofNat 8 c.toNat

/-- A byte string padded with zeros, or cut, to `n` bytes. -/
def padTo (n : Nat) (bs : List Byte) : List Byte := bs.take n ++ List.replicate (n - bs.length) 0

end Sys2Proof.Machine
end

