-- ==== Sys2Proof/Machine/Tab.lean ====
section
/-!
DEFINITION. Machine/Tab.lean: keyed tables as plain lists of pairs, for state that exists in many copies
(functions, contexts, routes, channels). A key that is not listed has the table's default, which the reader names.
-/
namespace Sys2Proof.Machine

/-- A sparse table: key and value pairs. -/
abbrev Tab (α : Type) := List (Nat × α)

/-- The entry of a key, where one is listed. -/
def Tab.find? {α : Type} : Tab α → Nat → Option α
  | [], _ => none
  | (k, v) :: r, a => if k = a then some v else Tab.find? r a

/-- The value of a key; `d` where it is not listed. -/
def Tab.getD {α : Type} (t : Tab α) (a : Nat) (d : α) : α := (Tab.find? t a).getD d

/-- The table with one entry written, in key order. -/
def Tab.put {α : Type} : Tab α → Nat → α → Tab α
  | [], a, x => [(a, x)]
  | (k, v) :: r, a, x =>
    if k = a then (k, x) :: r else if a < k then (a, x) :: (k, v) :: r else (k, v) :: Tab.put r a x

/-- The table with one entry removed. -/
def Tab.erase {α : Type} (t : Tab α) (a : Nat) : Tab α := t.filter fun p => p.1 ≠ a

/-- The table with a function applied to every listed value. -/
def Tab.mapVal {α : Type} (f : Nat → α → α) (t : Tab α) : Tab α := t.map fun p => (p.1, f p.1 p.2)

/-- The listed keys whose value meets a test, in table order. -/
def Tab.keysWhere {α : Type} (p : Nat → α → Bool) (t : Tab α) : List Nat :=
  (t.filter fun q => p q.1 q.2).map Prod.fst

end Sys2Proof.Machine
end

