-- ==== Sys2Proof/Machine/State.lean ====
section
/-!
DEFINITION. Machine/State.lean: every piece of state the spec gives the module, as plain data, and its reset values.
Each structure's default values are its values right after a cold reset, at BOOT entry; the assumption log names the
values the spec leaves to fuses, flash and the part.
-/
namespace Sys2Proof.Machine

/-! ### Faults and refusals -/

/-- The reasons for which a run stops with a fault. -/
inductive Fault where
  /-- Raised by no command at present: every effect the spec describes is taken as a next state. A run that stopped
  where the module goes on would be safe. -/
  | unreachable
deriving DecidableEq, Repr

/-- The reasons for which a command has no meaning. -/
inductive Refusal where
  /-- Raised by an arm of exec whose command has no meaning yet; safe (the run stops). -/
  | notModelled (mnemonic : String)
deriving DecidableEq, Repr

/-! ### Error codes, classes and records (chapter 20) -/

/-- The blocks of Table 20.2, in index order. -/
inductive Block where
  | sys | hst | svy | hrd | rtv | ec | dce | ing | pck | thm | erl | cad | hnd | sup | fab | mem
deriving DecidableEq, Repr

/-- An error code E-BLK-nn. -/
structure Err where
  blk : Block
  nn : Nat
deriving DecidableEq, Repr

/-- The error classes of Table 20.1, in code order. -/
inductive ErrClass where
  | corrected | reportOnly | frameContained | instFatal | unitFatal | moduleFatal
deriving DecidableEq, Repr

/-- The UNIT of an error record (Table 20.3). -/
inductive UnitRef where
  | none | core (i : Nat) | entropy (i : Nat) | dict (i : Nat) | decoder (i : Nat) | channel (i : Nat)
  | route (i : Nat) | traverse (i : Nat) | gate (i : Nat) | stack (i : Nat) | thermal (i : Nat)
  | slot (i : Nat) | ring (i : Nat) | stream (i : Nat)
deriving DecidableEq, Repr

/-- An error record (Table 20.3), its CRC left to the serialisation. -/
structure Rec where
  seq : BitVec 32
  err : Err
  cls : ErrClass
  /-- FLAGS bit 0 of the copy written to a ring. -/
  overflow : Bool
  /-- FLAGS bit 1: held in the pending area (R686). -/
  pendingArea : Bool
  /-- FLAGS bit 2: also in the event log (R678). -/
  fieldBook : Bool
  epoch : DWord
  func : Option Nat
  quarter : Option Nat
  unit : UnitRef
  ctx : Option Nat
  suppressed : BitVec 16
  frame : Option Nat
  detail : List Nat
deriving DecidableEq, Repr

/-! ### What leaves the module -/

/-- The two management transports (R692). -/
inductive Transport where
  | smbus | vdm
deriving DecidableEq, Repr

/-- A Whistle, formation or clock message on VC 4 of a Traverse link (chapter 15). -/
inductive LinkMsg where
  | greeting (moduleId packId : DWord) (member : Nat) (asym : BitVec 32)
  | ready
  | fingerprint (print : List Byte) (delay : Nat) (differs : Option Nat)
  | formed (lead : Nat) (epoch : DWord)
  | refused (member : Nat)
  | rate (ppb : Int) (effective : DWord)
  | probe (seq : Nat)
  | probeReply (seq : Nat)
  | probeTimes (seq t1 t4 : Nat)
  | arrive (job frame : Nat) (digest : BitVec 32) (epochOk : Bool) (differs : Option Nat) (members : Nat)
  | release (job frame : Nat) (time : DWord)
  | abort (job frame code : Nat)
  | fail (job frame code : Nat)
deriving DecidableEq, Repr

/-- Everything the module sends out, in the order sent. -/
inductive Out where
  /-- A posted write to host memory of a function. -/
  | hostWrite (fn addr : Nat) (data : List Byte)
  /-- One posted write of an aligned granule of host memory under a byte mask (R227): none leaves its byte as it is. -/
  | hostMasked (fn granule : Nat) (bytes : List (Option Byte))
  /-- An MSI-X message: the table entry's address and data. -/
  | msix (fn vec : Nat) (addr : DWord) (data : BitVec 32)
  /-- An AER uncorrectable internal error, signalled as ERR_FATAL. -/
  | aerFatal
  /-- The completion of a BAR2 or BAR0 read: its data and whether it is poisoned. -/
  | readData (fn : Nat) (data : List Byte) (poisoned : Bool)
  /-- A completion with Completer Abort. -/
  | readAbort (fn : Nat)
  /-- A BAR read answered with all ones. -/
  | readOnes (fn : Nat)
  /-- The answer of an SMBus read by the status responder or the Handler. -/
  | smbusRead (data : List Byte)
  /-- An SMBus transaction the module acknowledges without data. -/
  | smbusAck
  /-- An SMBus transaction the module refuses. -/
  | smbusNack
  /-- SMB_CLK and SMB_DAT released, and the SMBus interface reset. -/
  | smbusRelease
  /-- An MCTP message body sent on a transport. -/
  | mctp (t : Transport) (body : List Byte)
  /-- An Ethernet frame sent out of a Gate port. -/
  | gateFrame (port : Nat) (bytes : List Byte)
  /-- A route message or a Leash sent over a Traverse link on a virtual channel. -/
  | routeOverLink (port vc route seq : Nat) (msg : List Byte)
  | leashOverLink (port vc route : Nat)
  /-- A flit acknowledged, replay requested from a sequence number, or flits replayed from one on. -/
  | linkAck (port seq : Nat)
  | linkReplayRequest (port seq : Nat)
  | linkReplay (port seq : Nat)
  /-- A VC 4 message on a Traverse port. -/
  | link (port : Nat) (m : LinkMsg)
  /-- A peer put or get request and the answers to one. -/
  | peerPut (member job addr tally : Nat) (data : List Byte)
  /-- A put that was cancelled: the peer increments no tally for it (R279). -/
  | peerPutCancel (member job addr : Nat)
  | peerGet (member job addr len : Nat)
  | peerReport (member : Nat) (ok : Bool)
  | peerData (member : Nat) (data : List Byte) (ok : Bool)
  /-- Bits shifted out of the TAP data register. -/
  | tapData (v : DWord)
  /-- A unit of the Pholan stream of a context. -/
  | streamUnit (ctx : Nat) (bytes : List Byte)
deriving DecidableEq, Repr

/-! ### Fuses and pins -/

/-- What is fixed in the part at manufacture, except the SV floor, which firmware raises (R612). -/
structure Fuses where
  /-- 128 or 112 (R22). -/
  grade : Nat := 128
  /-- 1 for A1, 2 for B0. -/
  stepping : Nat := 2
  /-- Global numbers of the spare cores. -/
  spare : List Nat := [32, 33, 34, 35, 68, 69, 70, 71, 104, 105, 106, 107, 140, 141, 142, 143]
  moduleId : DWord := 0
  mac0 : BitVec 48 := 0
  mac1 : BitVec 48 := 0
  fuRev : BitVec 8 := 2
  gridRev : BitVec 8 := 1
  /-- Fuses blown in the SV floor row, 0 to 64 (R612). -/
  svFloor : BitVec 7 := 0
  uuid : List Byte := List.replicate 16 0
deriving DecidableEq, Repr

/-- The levels of the sideband inputs, as the module samples them. -/
structure Pins where
  pwrEn : Bool := true
  resetN : Bool := true
  perstN : Bool := false
  slotId : BitVec 6 := 0
  /-- VIN48 in millivolts. -/
  vinMv : Nat := 48000
  /-- VIN48 has been between 42 V and 60 V for 100 ms. -/
  inputGood : Bool := true
  epoch10m : Bool := true
  /-- When EPOCH_PPS last rose. -/
  lastPps : Option Nat := none
deriving DecidableEq, Repr

/-! ### Power, wake-up and shutdown (chapter 17) and the connector (chapter 16) -/

/-- The module states of Table 17.1, in code order. -/
inductive ModState where
  | off | wake | hold | boot | ready | run | shutdownA | shutdownB
deriving DecidableEq, Repr

/-- What began SHUTDOWN-A (R598). -/
inductive ShutCause where
  | undervoltage | overvoltage | pwrEn
deriving DecidableEq, Repr

/-- The restart-record set (R602, R603). -/
structure RestartSet where
  records : List (List Byte) := []
  valid : Bool := false
  cancelled : Bool := false
  incomplete : Bool := false
  seq : BitVec 32 := 0
deriving DecidableEq, Repr

/-- The TAP instructions the spec names (R575, R634). -/
inductive TapInstr where
  | bypass | idcode | sample | extest | fbRead
deriving DecidableEq, Repr

structure Sup where
  mstate : ModState := .boot
  /-- The state SHUTDOWN-A left, to which a cancellation returns (R599). -/
  left : ModState := .boot
  standby : Bool := true
  hotSwap : Bool := true
  /-- The wake step under way, 1 to 8 (Table 17.2). -/
  wakeStep : Nat := 0
  /-- Attempts of the current wake (R589); at BOOT entry at least one. -/
  attempts : Nat := 1
  failedStep : Nat := 0
  /-- Cause of the last failed attempt of this wake. -/
  attemptCause : Nat := 0
  /-- Waiting 250 ms before the next attempt. -/
  retryWait : Bool := false
  wakeStart : Nat := 0
  tripLatch : Bool := false
  /-- Cause code of HOLD (Table 17.4). -/
  holdCause : Nat := 0
  /-- When the last boot failure occurred (R592). -/
  bootFailAt : Option Nat := none
  shutCause : ShutCause := .pwrEn
  /-- A fall of PWR_EN has made cancellation impossible (R599, R607). -/
  noCancel : Bool := false
  /-- Restart records are written for this SHUTDOWN-A. -/
  rrWritten : Bool := false
  /-- SHUTDOWN-A entries over the module's life (R602 SEQ). -/
  shutCount : BitVec 32 := 0
  /-- Epoch time of SHUTDOWN-A's step 1. -/
  shutEpoch : DWord := 0
  rr : RestartSet := {}
  /-- RESET_N low holds the module in reset (R605). -/
  heldInReset : Bool := false
  /-- SERVICE_N's hardware latch (R570). -/
  service : Bool := false
  profile : BitVec 2 := 0
  profileReq : BitVec 2 := 0
  profileBusy : Bool := false
  profileTarget : BitVec 2 := 0
  profileCode : BitVec 8 := 0
  profileBlock : BitVec 2 := 0
  /-- The limiter's ceiling in 25 MHz units (R596). -/
  limiter : BitVec 7 := 64
  capActive : Bool := false
  fieldLocked : Bool := false
  dipCancelled : Bool := false
  lastReset : BitVec 2 := 0
  regFailedStep : BitVec 4 := 0
  regAttempts : BitVec 3 := 0
  regCause : BitVec 8 := 0
  regWakeMs : BitVec 16 := 0
  powerW : BitVec 10 := 0
  dips : BitVec 16 := 0
  capEvents : BitVec 16 := 0
  /-- A VIN marginal episode has been reported (R716). -/
  vinReported : Bool := false
  /-- SLOT_ID as sampled (R557) and what SYS_BOARD reports of it. -/
  slotSample : BitVec 6 := 0
  unstrapped : Bool := false
  slotChanged : Bool := false
  readbackFault : Bool := false
  /-- The TAP instruction in force (R575). -/
  tap : TapInstr := .bypass
deriving DecidableEq, Repr

/-! ### Errors, Field book and Handler (chapter 20) -/

/-- The rate limiter's memory of one code and unit (R674). -/
structure RateCell where
  err : Err
  unit : UnitRef
  last : Nat
  held : BitVec 16
deriving DecidableEq, Repr

structure Erl where
  seq : BitVec 32 := 0
  /-- Newest first, at most 256 (R675). -/
  history : List Rec := []
  alert : BitVec 13 := 0
  rate : List RateCell := []
  /-- REPLACE bits (Table 20.6). -/
  replace : BitVec 4 := 0
deriving DecidableEq, Repr

/-- A function's log ring (Table 20.15). -/
structure LogRing where
  host : Bool := false
  addr : BitVec 58 := 0
  log2 : BitVec 4 := 6
  en : Bool := false
  head : BitVec 16 := 0
  tail : BitVec 16 := 0
  drops : BitVec 32 := 0
  overflow : Bool := false
  /-- The next record written carries FLAGS bit 0. -/
  lost : Bool := false
  fieldLocked : Bool := false
deriving DecidableEq, Repr

/-- The state block of the Field book (Table 20.8). -/
structure StateBlock where
  seq : DWord := 0
  /-- Nanoseconds in BOOT to SHUTDOWN-A over the module's life; POWERED_S is the whole seconds of it. -/
  poweredNs : Nat := 0
  /-- Cold resets, warm resets, Handler-only resets, SHUTDOWN-A entries, cancelled dips, HOLD entries. -/
  counts : List Nat := [0, 0, 0, 0, 0, 0]
  lifePpm : Nat := 0
  cycles : List Nat := List.replicate 80 0
  hours : List Nat := [0, 0, 0, 0]
  residue : List (List Int) := [[], [], [], [], []]
  /-- Core and fence CAUSE (1 to 4). -/
  fences : Tab Nat := []
  replace : BitVec 4 := 0
  ueTotal : Nat := 0
  ueStack : List Nat := [0, 0, 0, 0]
  eventHead : Nat := 0
  eventTotal : Nat := 0
  fatals : Nat := 0
  fatalHours : List Nat := []
deriving DecidableEq, Repr

structure FieldBook where
  /-- The Handler's working state block and the two flash copies (R682). -/
  work : StateBlock := { counts := [1, 0, 0, 0, 0, 0] }
  copyA : Option StateBlock := some {}
  copyB : Option StateBlock := none
  /-- Event log, oldest first, at most 65,536. -/
  log : List Rec := []
  /-- Records that wait for the Handler to append them (R678). -/
  queue : List Rec := []
  /-- The pending area of the record store: records, the count dropped, the fence map and the state block (R686). -/
  pending : List Rec := []
  pendingDropped : Nat := 0
  pendingFences : Tab Nat := []
  pendingBlock : Option StateBlock := none
  /-- Flash blocks retired so far, each replaced by a spare (R682); `Config.flashSpares` is how many spares there are. -/
  retired : Nat := 0
  /-- The DIAG copy (R634) and the TAP data register of FB_READ. -/
  diag : Bool := false
  tapIndex : Nat := 0
deriving DecidableEq, Repr

/-- A function's mailbox (R691). -/
structure Mailbox where
  code : BitVec 8 := 0
  busy : Bool := false
  done : Bool := false
  result : BitVec 4 := 0
  vec : BitVec 8 := 0
  vecEn : Bool := false
  args : List DWord := List.replicate 4 0
  rsp : List DWord := List.replicate 4 0
  /-- The answer the running command will write: result and responses. -/
  todo : Option (BitVec 4 × List DWord) := none
deriving DecidableEq, Repr

/-- An unacknowledged PlatformEventMessage (R693). -/
structure PldmEvent where
  id : Nat
  body : List Byte
  sends : Nat
deriving DecidableEq, Repr

structure Hnd where
  running : Bool := false
  held : Bool := false
  fieldLocked : Bool := false
  watchdogs : BitVec 8 := 0
  resets : BitVec 16 := 0
  /-- Times of watchdog resets within the last 600 s (R689). -/
  wdTimes : List Nat := []
  /-- A Handler-only reset is under way. -/
  inReset : Bool := false
  /-- It met no firmware bank that passes and never ends (R637). -/
  stuck : Bool := false
  updState : BitVec 3 := 0
  updTransport : Transport := .smbus
  updPolicy : Bool := false
  updLast : BitVec 8 := 0
  eidSmbus : BitVec 8 := 0
  eidPcie : BitVec 8 := 0
  tid : BitVec 8 := 0
  pktErrors : BitVec 8 := 0
  /-- The receiver of platform events: transport and address. -/
  receiver : Option (Transport × Nat) := none
  events : List PldmEvent := []
  nextEvent : Nat := 0
  /-- UNFENCE requests waiting for the Handler (R696) and the core under extended test. -/
  unfenceQueue : List Nat := []
deriving DecidableEq, Repr

/-! ### Boot chain and Cadastre (chapter 18) -/

/-- A firmware image as a bank holds it: its header fields and whether the signature verifies (R610). -/
structure FwImage where
  magic : Nat := 0
  major : BitVec 8 := 2
  minor : BitVec 8 := 0
  sv : Nat := 0
  sigOk : Bool := false
  buildId : DWord := 0
deriving DecidableEq, Repr

/-- A Cadastre entry (Table 18.3). -/
structure CadEntry where
  base : BitVec 32
  pages : BitVec 32
  hostR : BitVec 16
  hostW : BitVec 16
  ctxR : BitVec 16
  ctxW : BitVec 16
  sysR : BitVec 8
  sysW : BitVec 8
deriving DecidableEq, Repr

/-- A Survey signing key of a policy (Table 18.6). -/
structure SurveyKey where
  key : List Byte
  id : DWord
  mask : BitVec 16
deriving DecidableEq, Repr

/-- A policy as flash holds it: its fields, and whether everything of R626 but the owner and BIND conditions holds. -/
structure Policy where
  seq : BitVec 32
  allowUnsigned : Bool
  diag : Bool
  bind : Bool
  moduleId : DWord
  packIds : List DWord
  keys : List SurveyKey
  nextOwner : List Byte
  entries : List CadEntry
  signerHash : List Byte
  id : DWord
  wellFormed : Bool
deriving DecidableEq, Repr

/-- The firmware a module ships with in bank A. -/
def FwImage.factory : FwImage := { magic := 0x57464850, sigOk := true }

/-- The factory policy (R627): one entry over all device memory and one over the tile windows, both granting all HOST,
CTX and INGEST rights, and ALLOW_UNSIGNED. -/
def Policy.factory : Policy :=
  { seq := 0, allowUnsigned := true, diag := false, bind := false, moduleId := 0, packIds := [0, 0, 0, 0], keys := []
    nextOwner := [], signerHash := [], id := 0, wellFormed := true
    entries := [
      { base := 0, pages := 0x17E0000, hostR := 0xFFFF, hostW := 0xFFFF, ctxR := 0xFFFF, ctxW := 0xFFFF, sysR := 1, sysW := 1 },
      { base := 0x10000000, pages := 0x12000, hostR := 0xFFFF, hostW := 0xFFFF, ctxR := 0xFFFF, ctxW := 0xFFFF, sysR := 1
        sysW := 1 }] }

/-- The self-tests of BOOT for a list of cores: those cores, the engines, and the boot crypto unit as `.none` (R180, R392,
R445, Table 18.8). -/
def selfTestsOf (cores : List Nat) : List UnitRef :=
  cores.map .core ++ (List.range 16).map .entropy ++ (List.range 8).map .dict ++ [.none]

structure Cad where
  bankA : FwImage := .factory
  bankB : FwImage := {}
  /-- The bank selector in flash: true for B. -/
  preferB : Bool := false
  /-- Bank run by the last firmware check. -/
  fwBank : Bool := false
  fwFallback : Bool := false
  fwOk : Bool := false
  windowOpen : Bool := true
  locked : Bool := false
  /-- Entries in force, in order; unlisted ones are empty (R620). -/
  entries : List CadEntry := []
  keys : List SurveyKey := []
  packIds : List DWord := []
  seq : BitVec 32 := 0
  policyId : DWord := 0
  allowUnsigned : Bool := false
  diag : Bool := false
  source : BitVec 2 := 0
  /-- Owner hash; empty while unowned. -/
  owner : List Byte := []
  /-- STATUS.OWNED and OWNER_ID as loaded at BOOT. -/
  ownerShown : List Byte := []
  slot0 : Option Policy := some .factory
  slot1 : Option Policy := none
  current1 : Bool := false
  staged : Option Policy := none
  denyCount : BitVec 32 := 0
  violCount : BitVec 32 := 0
  lastPage : BitVec 32 := 0
  lastClass : BitVec 8 := 0
  lastWrite : Bool := false
  /-- Last E-CAD-04 record of each requester class (R623). -/
  denyTimes : Tab Nat := []
  /-- The present BOOT follows a cold reset. -/
  coldBoot : Bool := true
  /-- Boot progress: engine and core self-tests outstanding, zero fill outstanding (R614). -/
  selfTests : List UnitRef := selfTestsOf ((List.range 144).filter fun g => g % 36 < 32)
  zeroFill : Bool := true
deriving DecidableEq, Repr

/-! ### Memory system (chapter 6) -/

/-- A read cache: lines by granule address, oldest fill first within the list. -/
structure Cache where
  lines : Tab (List Byte) := []
deriving DecidableEq, Repr

structure Mem where
  /-- Device memory, slot storage left out: bytes that differ from zero, by rising address. -/
  bytes : List Host.Cell := []
  /-- Poisoned granules by address, rising, each with where it was found bad: 0 a stack, 1 a Datum store. -/
  poison : Tab Nat := []
  /-- Tile memory of all cores by module address, as `bytes`. -/
  tile : List Host.Cell := []
  /-- Stream read caches by quarter. -/
  src : Tab Cache := []
  /-- Tallies by quarter × 1,024 + index. -/
  tallies : Tab (BitVec 32) := []
  invalBusy : Bool := false
  ue : Bool := false
  zeroFillDone : Bool := false
  scrubHours : BitVec 8 := 24
  ceStack : Tab (BitVec 16) := []
  ceDatum : Tab (BitVec 16) := []
  ueAddr : BitVec 58 := 0
  ueSource : BitVec 2 := 0
  ueQuarter : BitVec 2 := 0
  ueCount : BitVec 16 := 0
deriving DecidableEq, Repr

/-! ### Fabric (chapter 2) -/

/-- A message of a route in flight: its sequence number and its bytes. -/
structure Msg where
  seq : Nat
  data : List Byte
deriving DecidableEq, Repr

/-- An occupied slot of a Kennel: the sequence number of its message, the slot's length word, and when the message
landed. The message's bytes stand in tile memory (R44). -/
structure Kept where
  seq : Nat
  len : Nat
  landed : Nat
deriving DecidableEq, Repr

/-- A live route. A route that crosses a Traverse link to a Pack peer is one record on each member: its sending half (L, the
sends and what waits to send) belongs to the Kennel of another member, its Kennel half (O, reads and frees) to the sender on
another member (log 44). -/
structure Route where
  /-- Owning instance: its context number. -/
  ctx : Nat
  frame : Nat
  /-- Route index within the variant (R95). -/
  index : Nat
  prodUnit : Nat
  prodPort : Nat
  consUnit : Nat
  consPort : Nat
  /-- Core whose tile memory holds the Kennel. -/
  host : Nat
  /-- Producer and consumer core, for the ends on cores. -/
  prodCore : Option Nat
  consCore : Option Nat
  slotSize : Nat
  cap : Nat
  /-- Module address of slot 0 of the Kennel, in the tile memory of `host`. -/
  base : Nat
  /-- L, F, O and B of R51. -/
  leash : Nat
  flight : List Msg
  occ : List Kept
  back : Nat
  /-- How many of the occupied slots have been read and not yet freed. -/
  readCnt : Nat
  nextSeq : Nat
  nextArrive : Nat
  crossesLink : Bool
  peer : Nat
  frozen : Bool
  /-- Slots whose free the freeze of an audit holds back (R61, step 4). -/
  heldFrees : Nat
  reclaiming : Bool
  /-- A unit waits to send its message, or waits to read. -/
  waitSend : Option (List Byte)
  waitRead : Bool
  /-- When the sender began to wait, for R81. -/
  waitSince : Nat
  /-- The route must still pass the audit after a fence (R62). -/
  reclaimAudit : Bool
  /-- The verdict of the audit at the end of its instance stands (R62, R84). -/
  endAudited : Bool
deriving DecidableEq, Repr

/-- An audit under way in a quarter. -/
structure Audit where
  route : Nat
  /-- Requested by the driver. -/
  driver : Bool
deriving DecidableEq, Repr

/-- The FAB_ state of one quarter. -/
structure Quarter where
  fieldLocked : Bool := false
  auditFail : Bool := false
  stall : Bool := false
  xingParity : Bool := false
  periodMs : BitVec 10 := 10
  stallMs : BitVec 14 := 100
  reqRoute : BitVec 12 := 0
  /-- Driver-requested audit waiting or running. -/
  driverBusy : Bool := false
  audit : Option Audit := none
  robin : Nat := 0
  resRoute : BitVec 12 := 0
  resCode : BitVec 2 := 0
  resSum : BitVec 9 := 0
  parityErrs : BitVec 16 := 0
  auditErrs : BitVec 16 := 0
deriving DecidableEq, Repr

structure Fab where
  routes : Tab Route := []
  quarters : Tab Quarter := []
  /-- Contexts whose present stall is reported (R81). -/
  stalled : List Nat := []
deriving DecidableEq, Repr

/-! ### Survey images and slots (chapter 3) -/

structure ProgRec where
  template : Nat
  variant : Nat
  kind : Nat
  unit : Nat
  tileBytes : Nat
  codeLen : Nat
  code : List Byte
deriving DecidableEq, Repr

structure KennelRec where
  template : Nat
  variant : Nat
  host : Nat
  slots : Nat
  slotSize : Nat
deriving DecidableEq, Repr

structure RouteRec where
  template : Nat
  variant : Nat
  link : Bool
  prodUnit : Nat
  prodPort : Nat
  consPort : Nat
  consUnit : Nat
  kennel : Nat
  peer : Nat
deriving DecidableEq, Repr

structure LeashRec where
  route : Nat
  init : Nat
  preload : List (List Byte)
  preloadCount : Nat
deriving DecidableEq, Repr

structure WrefRec where
  modelId : Nat
  addr : Nat
  length : Nat
  template : Nat
  format : Nat
  recheck : Bool
  check : List Byte
deriving DecidableEq, Repr

structure TmplRec where
  nameId : Nat
  span : Nat
  variants : Nat
  boundary : Nat
  cost : Nat
  deadline : Nat
  role : Nat
  profile : Nat
  lossy : Bool
  packBound : Bool
  rings : Nat
  drainMs : Nat
  maxInst : Nat
  instKib : Nat
  compatKey : Nat
deriving DecidableEq, Repr

structure NumRec where
  template : Nat
  cls : Nat
  uses : Nat
  spanPolicy : Nat
  strict : Bool
  numsig : Nat
deriving DecidableEq, Repr

/-- A step of a unit in the certificate (Table 3.16). -/
inductive CertStep where
  | send (route : Nat) | read (route : Nat) | signal (tally : Nat) | wait (tally : Nat)
  | write (buf : Nat) | load (buf : Nat)
deriving DecidableEq, Repr

/-- The certificate of one variant: each unit's counted steps, and the witness. -/
structure CertRun where
  template : Nat
  variant : Nat
  units : List (Nat × List (CertStep × Nat))
  witness : List (Nat × Nat)
deriving DecidableEq, Repr

structure PackRec where
  size : Nat
  profile : Nat
  fwMajor : Nat
  whistleMs : Nat
  admitHash : Nat
  packId : Nat
deriving DecidableEq, Repr

structure OpenRec where
  template : Nat
  variant : Nat
  rights : Nat
  buffer : Nat
  base : Nat
  length : Nat
deriving DecidableEq, Repr

/-- A checked Survey image, as the records of its sections. -/
structure Image where
  id : DWord
  signed : Bool
  packBound : Bool
  progs : List ProgRec
  kennels : List KennelRec
  routes : List RouteRec
  leashes : List LeashRec
  wrefs : List WrefRec
  tmpls : List TmplRec
  nums : List NumRec
  certs : List CertRun
  pack : Option PackRec
  opens : List OpenRec
deriving DecidableEq, Repr

/-- A resident image: its number over the module's run, and its contents. -/
structure Loaded where
  gen : Nat
  image : Image
  hash : List Byte
deriving DecidableEq, Repr

inductive SlotState where
  | empty | loading | loaded | unloading
deriving DecidableEq, Repr

structure Slot where
  state : SlotState := .empty
  current : Option Loaded := none
  retained : Option Loaded := none
  owner : BitVec 4 := 0
  /-- E-SVY-20 has been reported for the last slot commit (R119). -/
  skipReported : Bool := false
deriving DecidableEq, Repr

/-- A queued or running load or replacement. -/
structure LoadReq where
  fn : Nat
  slot : Nat
  replace : Bool
  addr : DWord
  len : BitVec 25
  /-- SYS_NUMSIG and the Handler firmware's version when the load started, which its verdict rests on (R133). -/
  numsig : DWord := 0
  fwMajor : BitVec 8 := 0
  fwMinor : BitVec 8 := 0
deriving DecidableEq, Repr

structure Svy where
  slots : Tab Slot := []
  /-- Waiting requests, oldest first. -/
  queue : List LoadReq := []
  running : Option LoadReq := none
  nextGen : Nat := 0
  fieldLocked : Bool := false
  routeFault : Bool := false
  migrateSkip : Bool := false
  migrated : BitVec 16 := 0
  routeFaults : BitVec 16 := 0
deriving DecidableEq, Repr

/-- A function's SVY_ registers. -/
structure SvyFn where
  addr : BitVec 58 := 0
  len : BitVec 25 := 0
  slot : BitVec 4 := 0
  op : BitVec 2 := 0
  busy : Bool := false
  done : Bool := false
  code : BitVec 8 := 0
  section_ : BitVec 8 := 0xFF
  record : BitVec 24 := 0xFFFFFF
  sel : BitVec 4 := 0
deriving DecidableEq, Repr

/-! ### Cores (chapters 4 and 5) and frames (chapter 8) -/

/-- The kinds of accumulation a unit holds. -/
inductive Acc where
  /-- A Surveyed floating accumulation: accumulator in units of 2^−272, count and flags (R155, R156). -/
  | exact (v : Int) (count : Nat) (nan pinf ninf nz : Bool)
  /-- An integer accumulation (R151). -/
  | int (v : Int) (count : Nat)
  /-- A Free floating accumulation: FP32 running sum and count (R153). -/
  | free (sum : BitVec 32) (count : Nat)
deriving DecidableEq, Repr

/-- What a unit waits for. -/
inductive Blocked where
  | send (route : Nat) | read (route : Nat)
  /-- A physical tally and the target. -/
  | tally (t : Nat) (target : BitVec 32)
  /-- A reach load, and whether its line may still be kept (R232). -/
  | load (addr len : Nat) (keep : Bool)
deriving DecidableEq, Repr

/-- One unit of a running frame. -/
structure UnitRun where
  unit : Nat
  /-- Core of a core unit; channel or engine of another unit (kind as Table 3.5). -/
  kind : Nat
  place : Nat
  /-- Base and length of the working region in tile memory. -/
  base : Nat
  size : Nat
  codeLen : Nat
  /-- Sends and reads still to come, counted, in certificate order (R107). -/
  steps : List (CertStep × Nat)
  ended : Bool
  blocked : Option Blocked
  /-- Decisions that passed this ready unit over (R301). -/
  passes : Nat
  accs : Tab Acc
  /-- The last message read, and the last reach load's data. -/
  msg : List Byte
  data : List Byte
  /-- Commands of an engine or Retriever unit that have not started, oldest first, each as its bytes (R258, R360). -/
  queue : List (List Byte)
  /-- Times a younger unit queue of the same place was served while this one's head was ready (R67, R261). -/
  qPasses : Nat
  /-- When the present head of the queue came to the head, as a count (R261). -/
  qAge : Nat
deriving DecidableEq, Repr

/-- A dispatched frame's run. -/
structure FrameRun where
  k : Nat
  /-- Image number of Survey slot contents it runs on. -/
  gen : Nat
  tier : Nat
  units : List UnitRun
  /-- Route IDs in route-index order. -/
  routes : List Nat
  /-- A fence is cancelling this run (R309). -/
  cancelling : Bool
deriving DecidableEq, Repr

/-- Where a frame of a Pack-bound context stands with its barrier (R536): waiting for it, released for a time, or
dispatchable. -/
inductive Whistle where
  | waiting | scheduled (time : DWord) | released
deriving DecidableEq, Repr

/-- A frame that has arrived and neither committed nor been lost. -/
structure Frame where
  no : Nat
  arrival : DWord
  deadline : DWord
  input : Nat
  inputLen : Nat
  inputLoss : Bool
  concealed : Bool
  restarts : Nat
  passes : Nat
  run : Option FrameRun
  /-- Image and numerics signature of the first dispatch (R120). -/
  firstGen : Option Nat
  firstSig : DWord
  firstTier : Nat
  whistle : Option Whistle
  /-- MOVED of its last dispatch, and PIN_BROKEN of any (Table 8.1). -/
  moved : Bool
  pinBroken : Bool
deriving DecidableEq, Repr

/-- What a source has given a context and the Herder has not yet taken, in frame-number order: a frame, or the loss of one
with its code (R463). -/
structure Arriving where
  frame : Frame
  lost : Option Nat
deriving DecidableEq, Repr

inductive CtxState where
  | free | admitted | suspended | ending
deriving DecidableEq, Repr

/-- The stream output of a context (chapter 11). -/
structure StreamOut where
  /-- The header and the first frame unit are written; START_FRAME and START_EPOCH (Table 11.3). -/
  started : Bool := false
  startFrame : Nat := 0
  startEpoch : DWord := 0
  /-- Frame units and markers since the header. -/
  units : Nat := 0
  lastFrame : Option Nat := none
  /-- NUMSIG of the last frame unit (R408). -/
  lastSig : DWord := 0
  /-- Lost frames whose markers wait for the units of earlier frames: FRAME_NO, CODE and arrival, by rising number. -/
  waiting : List (Nat × Nat × DWord) := []
  ended : Bool := false
deriving DecidableEq, Repr

/-- A context (chapter 8). -/
structure Ctx where
  st : CtxState := .free
  func : Nat := 0
  slot : BitVec 4 := 0
  template : BitVec 8 := 0
  source : BitVec 2 := 0
  feed : BitVec 12 := 0
  spanPin : BitVec 3 := 0
  placePin : Bool := false
  pendSpan : Option (BitVec 3) := none
  pendPlace : Option Bool := none
  periodUs : BitVec 32 := 40000
  deadlineUs : BitVec 32 := 0
  pendDeadline : Option (BitVec 32) := none
  seed : DWord := 0
  key : DWord := 0
  /-- FRAME_NO of the last frame record of this instance (Table 17.7). -/
  lastFrame : Option Nat := none
  base : Nat := 0
  len : Nat := 0
  /-- Image the instance runs on, and its template's index there (R119). -/
  gen : Nat := 0
  tmpl : Nat := 0
  held : List Frame := []
  arriving : List Arriving := []
  nextNo : Nat := 0
  submitted : Bool := false
  /-- Cores and widening factor of the last dispatch, and cores of the previous frame. -/
  cores : List Nat := []
  lastPlaceK : Nat := 0
  prevCores : Option (List Nat) := none
  /-- The placement that the placement pin holds: its widening factor, cores and the other units' places (R306). -/
  pinned : Option (Nat × List Nat × List Nat) := none
  /-- Physical tally of each instance tally number in use (R267). -/
  tallies : Tab Nat := []
  /-- Parity of the state banks, and commits so far (the outputs' advance). -/
  bank : Bool := false
  commits : Nat := 0
  endAfter : Bool := false
  /-- Output ring bindings taken at admission (R492). -/
  rings : List (Option Nat) := []
  stream : StreamOut := {}
deriving DecidableEq, Repr

/-- Fence causes (Table 8.8). -/
inductive FenceCause where
  | uncorrectable | selfTest | watchdog | driver
deriving DecidableEq, Repr

/-- State kept per core. -/
structure Core where
  fence : Option FenceCause := none
  underTest : Bool := false
  cache : Cache := {}
  /-- The resident unit, by context and unit, from which the core issues instructions (R140). -/
  issuing : Option (Nat × Nat) := none
deriving DecidableEq, Repr

structure Hrd where
  ctxs : Tab Ctx := []
  cores : Tab Core := []
  fieldLocked : Bool := false
  service : Bool := false
  late : Bool := false
  pinBroken : Bool := false
  widenEn : Bool := true
  steerMargin : BitVec 4 := 5
  heapBase : BitVec 52 := 0
  heapLen : BitVec 52 := 0
  lateCount : BitVec 16 := 0
  restartCount : BitVec 16 := 0
  lostCount : BitVec 16 := 0
  /-- Admission requests, by function and context, that wait for the end of SHUTDOWN-A (Table 17.6), oldest first. -/
  asks : List (Nat × Nat) := []
deriving DecidableEq, Repr

/-- What a function has written to HRD_CTX_CFG, HRD_CTX_TIME and HRD_CTX_SEED for one context number. -/
structure CtxRegs where
  slot : BitVec 4 := 0
  template : BitVec 8 := 0
  source : BitVec 2 := 0
  feed : BitVec 12 := 0
  spanPin : BitVec 3 := 0
  placePin : Bool := false
  periodUs : BitVec 32 := 40000
  deadlineUs : BitVec 32 := 0
  seed : DWord := 0
deriving DecidableEq, Repr

/-- What a function's HRD_CTX_STATUS holds of a context beyond the context's own state (Table 8.7, R720): BUSY, CODE and the
last frame record. -/
structure CtxStat where
  busy : Bool := false
  code : BitVec 8 := 0
  lastK : Nat := 0
  lastFlags : Nat := 0
  frameNo : BitVec 32 := 0
deriving DecidableEq, Repr

/-- A function's HRD_ registers. -/
structure HrdFn where
  ctxSel : BitVec 12 := 0
  op : BitVec 2 := 0
  fenceSel : BitVec 8 := 0
  /-- Its own copies of the context configuration registers, by context (R720). -/
  ctxRegs : Tab CtxRegs := []
  /-- Its own copy of HRD_CTX_STATUS, by context (R324, R720). -/
  stats : Tab CtxStat := []
deriving DecidableEq, Repr

/-! ### Retrievers (chapter 7) -/

/-- A Retriever descriptor (Table 7.1). -/
structure Desc where
  opcode : BitVec 8
  flags : BitVec 8
  spaces : BitVec 8
  res3 : BitVec 8
  tally : BitVec 16
  vector : BitVec 16
  src : DWord
  dst : DWord
  len : BitVec 32
  tagId : BitVec 32
  arg : List Byte
  waitTally : BitVec 16
  peer : BitVec 16
  waitValue : BitVec 32
deriving DecidableEq, Repr

/-- Who issued a command. -/
inductive Issuer where
  /-- A unit of a running frame: context, frame number, unit. -/
  | unit (ctx frame unit : Nat)
  /-- The driver of a function, through a channel. -/
  | driver (fn : Nat)
deriving DecidableEq, Repr

/-- Where a byte run of a command goes. -/
inductive Dest where
  /-- Device memory or a tile window, by module address. -/
  | module (addr : Nat)
  | host (fn addr : Nat)
  /-- An aligned granule of host memory, of which the bytes that the mask holds are written (R227); they are also the data of the write. -/
  | hostMask (fn granule : Nat) (mask : List (Option Byte))
  /-- An Ethernet frame out of a Gate port. -/
  | gate (port : Nat)
deriving DecidableEq, Repr

/-- A started command. -/
structure Cmd where
  tag : Nat
  issuer : Issuer
  desc : Desc
  /-- Physical tally the command increments. -/
  tally : Nat
  /-- Granule writes not yet made: they are made at the latest at completion (R224). -/
  todo : List (Dest × List Byte)
  /-- Device-memory pages written, for the fresh invalidation. -/
  pages : List Nat
  resultLen : Nat
  info : Nat
  status : BitVec 8
  /-- A COPY to an output ring whose entry is not published yet (R494, R495). -/
  unpublished : Bool
  /-- Completed, and held for a full record ring (R273) or for an earlier ORDERED command. -/
  heldRecord : Bool
  /-- The dictionary engine that serves the command, and where it writes its context record. -/
  engine : Option Nat
  ctxOut : Option Dest
  /-- A failure met during the transfer: E-RTV number, the root cause's code and INFO (R281, R671). -/
  fate : Option (Nat × Err × Nat)
  /-- The peer has not answered yet (R244). -/
  waitPeer : Bool
  /-- Bytes that have landed at the destination. -/
  landed : Nat := 0
  /-- Where a put that awaits its peer's report goes: member, job and address. -/
  peerAt : Option (Nat × Nat × Nat) := none
  /-- The tally that a put to this module itself names, counted at completion (R244). -/
  peerTally : Option Nat := none
deriving DecidableEq, Repr

/-- A Retriever channel; the keys from 64 on hold the commands of the dictionary engines' own units. -/
structure Chan where
  mode : BitVec 2 := 1
  func : BitVec 4 := 0
  started : List Cmd := []
  driverQ : List Desc := []
  halted : Bool := false
  fieldLocked : Bool := false
  disabled : Bool := false
  lastErr : BitVec 8 := 0
  crecHost : Bool := false
  crecAddr : BitVec 58 := 0
  crecLog2 : BitVec 5 := 4
  head : BitVec 16 := 0
  tail : BitVec 16 := 0
  phase : Bool := true
  done : BitVec 32 := 0
  failed : BitVec 32 := 0
  nextSerial : Nat := 0
deriving DecidableEq, Repr

structure Rtv where
  chans : Tab Chan := []
  /-- The count that ages the heads of unit queues. -/
  nextAge : Nat := 0
deriving DecidableEq, Repr

/-! ### Host interface (chapter 14) -/

inductive SqKind where
  | disabled | command | frame
deriving DecidableEq, Repr

structure Sq where
  host : Bool := false
  addr : BitVec 58 := 0
  log2 : BitVec 4 := 4
  kind : SqKind := .disabled
  channel : BitVec 6 := 0
  head : BitVec 16 := 0
  tail : BitVec 16 := 0
  halted : Bool := false
  code : BitVec 8 := 0
  /-- Epoch of the doorbell that submitted each entry not yet passed, by index (R490). -/
  bells : List (Nat × DWord) := []
deriving DecidableEq, Repr

/-- An output-ring entry on its way (R493, R494). -/
structure OqEntry where
  ctx : Nat
  ring : Nat
  kind : Nat
  frame : Nat
  payload : List Byte
  /-- The COPY it belongs to: channel and tag. -/
  copy : Option (Nat × Nat)
deriving DecidableEq, Repr

structure Oq where
  host : Bool := false
  addr : BitVec 58 := 0
  log2 : BitVec 5 := 6
  pidx : BitVec 32 := 0
  cidx : BitVec 32 := 0
  wbHost : Bool := false
  wbAddr : BitVec 61 := 0
  vec : BitVec 8 := 0
  en : Bool := false
  coalUs : BitVec 10 := 0
  count : BitVec 8 := 1
  drainLate : Bool := false
  drops : BitVec 32 := 0
  waiting : List OqEntry := []
  /-- The Cadastre denied an access: the ring is disabled until the function's reset (R623). -/
  disabled : Bool := false
  /-- First entry dropped and entries dropped since the last notice (R494). -/
  notice : Option (OqEntry × Nat) := none
  /-- Blocks published and not yet signalled. -/
  unsignalled : Nat := 0
  /-- The drain bound has been exceeded and the late blocks are not freed yet: the producer index they end at (R498). -/
  lateTo : Option (BitVec 32) := none
deriving DecidableEq, Repr

/-- An MSI-X table entry and its pending bit. -/
structure Vector where
  addr : DWord := 0
  data : BitVec 32 := 0
  masked : Bool := true
  pendingBit : Bool := false
deriving DecidableEq, Repr

structure HstFn where
  fieldLocked : Bool := false
  drainLate : Bool := false
  dropsSeen : Bool := false
  bar2Base : BitVec 34 := 0
  errVec : BitVec 8 := 0
  errEn : Bool := false
  accErr : BitVec 32 := 0
  sqs : Tab Sq := []
  oqs : Tab Oq := []
  orbCtx : BitVec 12 := 0
  orbRing : BitVec 3 := 0
  /-- Binding of context × 8 + ring to an output ring, where valid. -/
  bindings : Tab (BitVec 6 × Bool) := []
  vectors : Tab Vector := []
deriving DecidableEq, Repr

structure Hst where
  linkUp : Bool := false
  speed : BitVec 4 := 0
  width : BitVec 5 := 0
  linkDegraded : Bool := false
  numVfs : BitVec 4 := 0
  vfEnable : Bool := false
  /-- *m* of the BAR2 of the physical function and of the virtual functions, as Resizable BAR sets them (R484). -/
  pfBar2 : BitVec 3 := 7
  vfBar2 : BitVec 3 := 7
deriving DecidableEq, Repr

/-! ### Numerics signature and counter generator (chapter 9) -/

structure Sys where
  numsigPrev : DWord := 0x10201
  numsigTime : DWord := 0
deriving DecidableEq, Repr

/-- A function's SYS_RNG_ registers. -/
structure RngFn where
  key : DWord := 0
  ctrLo : DWord := 0
  ctrHi : DWord := 0
  outLo : DWord := 0
  outHi : DWord := 0
  seedMode : Bool := false
  busy : Bool := false
  fieldLocked : Bool := false
deriving DecidableEq, Repr

/-! ### Entropy engines (chapter 10) -/

/-- A started entropy command: who issued it, its 64 bytes, and what it still has to write (R224). -/
structure EcCmd where
  serial : Nat
  ctx : Nat
  frame : Nat
  unit : Nat
  ordered : Bool
  tally : Nat
  todo : List (Dest × List Byte)
  pages : List Nat
  symbols : Nat
  /-- An escape tile is written, and the FLAGS of the tile record. -/
  escTile : Bool
  flags : Nat
deriving DecidableEq, Repr

/-- A table set an engine has derived: TABLES address and the bytes it was derived from (R383). -/
structure DerivedSet where
  addr : Nat
  bytes : List Byte
deriving DecidableEq, Repr

structure EcEngine where
  offline : Bool := false
  disabled : Bool := false
  started : List EcCmd := []
  sets : List DerivedSet := []
  symbols : DWord := 0
  tiles : BitVec 32 := 0
  escTiles : BitVec 16 := 0
  fallbackTiles : BitVec 16 := 0
  nextSerial : Nat := 0
deriving DecidableEq, Repr

structure Ec where
  engines : Tab EcEngine := []
  fieldLocked : Bool := false
  checkFail : Bool := false
  malformed : Bool := false
  checkFails : BitVec 16 := 0
  malformedCount : BitVec 16 := 0
deriving DecidableEq, Repr

/-! ### Dictionary engines (chapter 12) -/

structure DceEngine where
  offline : Bool := false
  disabled : Bool := false
  bytesIn : DWord := 0
  bytesOut : DWord := 0
deriving DecidableEq, Repr

structure Dce where
  engines : Tab DceEngine := []
  fieldLocked : Bool := false
  checkFail : Bool := false
  checkFails : BitVec 16 := 0
  engineFatal : BitVec 16 := 0
deriving DecidableEq, Repr

/-! ### Gate ports and ingest (chapter 13) -/

structure Port where
  en : Bool := false
  vlanEn : Bool := false
  vid : BitVec 12 := 0
  link : Bool := false
  fieldLocked : Bool := false
  mac : BitVec 48 := 0
  /-- WEIGHT of queues 0 to 7. -/
  weights : List (BitVec 4) := [1, 1, 1, 1, 1, 1, 1, 1]
  filtered : BitVec 32 := 0
  excDrops : BitVec 32 := 0
deriving DecidableEq, Repr

/-- A packet placed in an access unit: its sequence number, or for audio the first sample's place in the frame, and its
payload after the RTP header. -/
structure Packet where
  seq : Nat
  payload : List Byte
deriving DecidableEq, Repr

/-- An access unit or audio frame. -/
structure AccessUnit where
  /-- The run of the stream, between discontinuities, whose timestamps it belongs to. -/
  era : Nat := 0
  ts : Nat
  packets : List Packet
  loss : Bool
  discont : Bool
  /-- Frame number and frames inferred lost before it, given at the release (R456). -/
  no : Nat
  lostBefore : Nat
  closedAt : DWord
  /-- NAL units after depacketising (R453). -/
  nals : List (List Byte)
  /-- Host-feed bytes could not be read (R470). -/
  unreadable : Bool
deriving DecidableEq, Repr

/-- A decoded picture. -/
structure Picture where
  width : Nat
  height : Nat
  depth : Nat
  irap : Bool
  y : List Nat
  cb : List Nat
  cr : List Nat
deriving DecidableEq, Repr

structure Stream where
  enable : Bool := false
  dec : BitVec 3 := 7
  ctx : BitVec 12 := 0
  jitMib : BitVec 8 := 4
  port : BitVec 2 := 0
  ipv6 : Bool := false
  codec : BitVec 2 := 1
  ssrcEn : Bool := false
  pt : BitVec 7 := 96
  udpPort : BitVec 16 := 0
  ssrc : BitVec 32 := 0
  daddrLo : DWord := 0
  daddrHi : DWord := 0
  maxW : BitVec 13 := 1920
  maxH : BitVec 12 := 1080
  rateX10 : BitVec 10 := 250
  refSlots : BitVec 5 := 6
  jitterMs : BitVec 8 := 40
  closeMs : BitVec 8 := 40
  depth10 : Bool := false
  bufBase : BitVec 52 := 0
  decUsed : BitVec 2 := 0
  fieldLocked : Bool := false
  code : BitVec 8 := 0
  inputOff : BitVec 32 := 0
  gapMax : BitVec 16 := 250
  latePkt : BitVec 16 := 0
  lostFrames : BitVec 16 := 0
  malformed : BitVec 16 := 0
  dup : BitVec 16 := 0
  dropped : Nat := 0
  /-- Function that enabled the stream's host feed. -/
  func : Nat := 0
  highest : Option Nat := none
  /-- Sequence numbers received within the window. -/
  seen : List Nat := []
  lastSsrc : Option Nat := none
  /-- Open access units or audio frames, closed ones in the jitter buffer, and released ones awaiting decode, each in
  timestamp order; the present run and the run and timestamp of the last released one. -/
  opens : List AccessUnit := []
  closed : List AccessUnit := []
  ready : List AccessUnit := []
  era : Nat := 0
  released : Option (Nat × Nat) := none
  nextNo : Nat := 0
  audioStart : Option Nat := none
  /-- Access units decoded so far, the decoder's input history, and the last decoded picture. -/
  history : List (List (List Byte)) := []
  lastPic : Option Picture := none
  damaged : Bool := false
  /-- Lost frames with E-ING-06 or E-ING-05 until the next random access picture (R460, R477). -/
  waitIrap : Option Err := none
deriving DecidableEq, Repr

structure Decoder where
  disabled : Bool := false
  /-- Stream and access unit being decoded. -/
  busy : Option (Nat × AccessUnit) := none
  /-- Streams with released access units, in release order. -/
  queue : List Nat := []
deriving DecidableEq, Repr

structure Ing where
  ports : Tab Port := []
  excAddr : BitVec 58 := 0
  excLog2 : BitVec 5 := 4
  excHead : BitVec 16 := 0
  excTail : BitVec 16 := 0
  streams : Tab Stream := []
  decoders : Tab Decoder := []
deriving DecidableEq, Repr

/-- A function's host feed. -/
structure HostFeed where
  host : Bool := false
  addr : BitVec 58 := 0
  log2 : BitVec 5 := 4
  head : BitVec 16 := 0
  tail : BitVec 16 := 0
  /-- Closing instants of the descriptors not yet read: index and epoch of the doorbell that submitted it. -/
  bells : List (Nat × DWord) := []
  /-- The Cadastre denied a descriptor's read, or the read failed: disabled until the function's reset (R623). -/
  disabled : Bool := false
deriving DecidableEq, Repr


/-! ### Packs, Traverse links and the Whistle (chapter 15) -/

/-- A probe round under way on a port (R524): exchanges done, sums, and the timestamps of open exchanges. -/
structure Round where
  formation : Bool
  sent : Nat
  done : Nat
  sumOff : Int
  sumRtt : Int
  /-- t1 of each open exchange, at the parent end. -/
  t1 : Tab Nat
  /-- t2 and t3 of each open exchange, at the child end. -/
  t23 : Tab (Nat × Nat)
deriving DecidableEq, Repr

/-- A fingerprint report on VC 4 (Table 15.5, step 6). -/
structure PrintReport where
  print : List Byte
  /-- Largest tree delay of the reporter's subtree as seen from the reporter's parent, in units of 2^−17 ns. -/
  delay : Nat
  differs : Option Nat
deriving DecidableEq, Repr

/-- A virtual channel of a link (R513): its hop credits in hand, and the messages that wait on it, oldest first. How many
credits a channel has is not stated; the model gives it one for each flit of the 1 MiB replay buffer (DESIGN CHOICE, log
141). -/
structure LinkChan where
  credits : Nat := 4096
  waiting : List Out := []
deriving DecidableEq, Repr

structure PckPort where
  /-- The virtual channels 0 to 4 (Table 15.2). -/
  chans : Tab LinkChan := []
  en : Bool := false
  link : Bool := false
  moduleOk : Bool := false
  asym : BitVec 32 := 0
  offset : BitVec 32 := 0
  rtt : DWord := 0
  replays : BitVec 16 := 0
  retrains : BitVec 16 := 0
  greeted : Bool := false
  /-- Round trip of the formation round, once made. -/
  formRtt : Option Int := none
  /-- The child on this port has told that it is ready, and its report. -/
  report : Option PrintReport := none
  round : Option Round := none
  /-- Off-tree or tree offset fault and round-trip fault of this link (R528). -/
  offFault : Bool := false
  rttFault : Bool := false
  rxSeq : Nat := 0
  /-- The flit being replayed and its consecutive replays. -/
  replayOf : Nat := 0
  replayRun : Nat := 0
  retraining : Bool := false
deriving DecidableEq, Repr

/-- A combined ARRIVE (R536): what one subtree reports. -/
structure Arrive where
  frame : Nat
  digest : BitVec 32
  epochOk : Bool
  differs : Option Nat
  members : Nat
deriving DecidableEq, Repr

/-- The barrier of a job. -/
structure Barrier where
  frame : Nat := 0
  selfReady : Bool := false
  /-- Arrivals by port. -/
  arrivals : List (Nat × Arrive) := []
  /-- When the master's timer started, and when this member sent its ARRIVE. -/
  timer : Option Nat := none
  sentAt : Option Nat := none
deriving DecidableEq, Repr

structure Job where
  ctx : BitVec 12 := 0
  template : BitVec 8 := 0
  valid : Bool := false
  ended : Bool := false
  running : Bool := false
  code : BitVec 8 := 0
  frame : BitVec 16 := 0
  barrier : Option Barrier := none
  /-- The released frame and when FAIL was sent or forwarded for it (R542). -/
  failSent : Option Nat := none
deriving DecidableEq, Repr

inductive PackState where
  | idle | forming | formed | failed
deriving DecidableEq, Repr

/-- External-source state of the epoch clock (Table 15.3, PCK_EPOCH_STATUS.STATE). -/
inductive ExtState where
  | freeRun | locking | locked | holdover
deriving DecidableEq, Repr

/-- The epoch clock (R519): nanoseconds with 16 fraction bits, and what disciplines it. -/
structure Epoch where
  count : BitVec 80 := 0
  /-- Remainder of the rate adjustment, in parts per 10^9 of a count. -/
  rem : Nat := 0
  ratePpb : Int := 0
  /-- An announced rate and the epoch time it takes effect at (R521). -/
  pendingRate : Option (Int × DWord) := none
  ext : ExtState := .freeRun
  /-- Consecutive PPS edges within ±10 ns of a whole second. -/
  ppsRun : Nat := 0
  /-- The clock has locked to an external source before (R521). -/
  everLocked : Bool := false
  loadPending : Bool := false
  extOffset : BitVec 16 := 0
  syntLock : Bool := false
  /-- Phase still to be slewed in, in counts. -/
  slew : Int := 0
deriving DecidableEq, Repr

structure Pck where
  state : PackState := .idle
  code : BitVec 8 := 0
  fieldLocked : Bool := false
  formTimeout : BitVec 10 := 60
  slot : BitVec 4 := 0
  shape : BitVec 16 := 0
  member : BitVec 11 := 0
  packId : DWord := 0
  /-- Hash of the admission list checked at FORM (R530). -/
  admitHash : DWord := 0
  admitAddr : BitVec 58 := 0
  epoch : Epoch := {}
  epochSet : DWord := 0
  srcExternal : Bool := false
  lead : BitVec 24 := 0
  failCode : BitVec 8 := 0
  failMember : BitVec 11 := 0
  failPort : BitVec 3 := 0
  aborts : BitVec 16 := 0
  linkDowns : BitVec 16 := 0
  /-- Syntonisation lost since the last good round (R528). -/
  syntFault : Bool := false
  /-- The clock has been stepped in this formation (step 5). -/
  ready : Bool := false
  formedAt : DWord := 0
  /-- The report of step 6 has been sent. -/
  reported : Bool := false
  /-- MODULE_IDs of the admission list checked at FORM, in member order. -/
  admitIds : List DWord := []
  jobSel : BitVec 8 := 0
  jobs : Tab Job := []
  ports : Tab PckPort := []
deriving DecidableEq, Repr

/-! ### Thermal system (chapter 19) -/

structure ThmUnit where
  /-- Published reading and effective forecast, 1/16 °C; the forecast proper without bias. -/
  reading : Int := 0
  forecast : Int := 0
  thr : BitVec 7 := 64
  /-- Floor in 25 MHz units; 0 is none. -/
  floor_ : BitVec 7 := 0
  sensorFail : Bool := false
  /-- No sensor of the unit works. -/
  blind : Bool := false
  breached : Bool := false
deriving DecidableEq, Repr

/-- A cycle-counter channel's reversal detector (R656). -/
structure Channel where
  /-- A first second's mean has been taken. -/
  begun : Bool := false
  /-- The last confirmed extreme's direction: true while the series rises. -/
  rising : Option Bool := none
  /-- The extreme of the present run. -/
  extreme : Int := 0
  /-- Sum and count of this second's step readings. -/
  sum : Int := 0
  n : Nat := 0
deriving DecidableEq, Repr

structure Thm where
  forecaster : Bool := false
  fallback : Bool := false
  /-- Quarters whose fallback has acted in the present episode. -/
  fallbackEpisode : List Nat := []
  sensorFail : Bool := false
  /-- Units whose sensor failure has been reported since the cold reset. -/
  failReported : List Nat := []
  inletHigh : Bool := false
  lifeEnd : Bool := false
  /-- Stacks above 85 °C already reported. -/
  stackHot : List Nat := []
  limit : BitVec 7 := 102
  bias : BitVec 16 := 0
  units : Tab ThmUnit := []
  hot : BitVec 8 := 0
  headroom : BitVec 16 := 0
  fan : BitVec 7 := 100
  /-- The demand the terms ask for, towards which `fan` falls, and the fractions of a point already fallen. -/
  fanTarget : BitVec 7 := 100
  fanTenths : Nat := 0
  dFc : BitVec 7 := 0
  dInlet : BitVec 7 := 0
  dBase : BitVec 7 := 0
  /-- Thermal ceiling in milliwatts; none while it has not been set since reset (the cap). -/
  ceilingMw : Option Nat := none
  channels : Tab Channel := []
  /-- Of the present hour: sum and count of the 1 s means of the hot spot (R658). -/
  hourSum : Int := 0
  hourN : Nat := 0
  throttles : BitVec 16 := 0
  breaches : BitVec 16 := 0
  fallbacks : BitVec 16 := 0
deriving DecidableEq, Repr

/-! ### Per-function state and the whole module -/

/-- Everything a host function has of its own (R16, R480). -/
structure Fn where
  hst : HstFn := {}
  svy : SvyFn := {}
  hrd : HrdFn := {}
  rng : RngFn := {}
  ring : LogRing := {}
  mailbox : Mailbox := {}
  feed : HostFeed := {}
  fabSel : Tab (BitVec 12) := []
  tallySel : BitVec 12 := 0
  ecSel : BitVec 4 := 0
  dceSel : BitVec 3 := 0
  strmSel : BitVec 12 := 0
  rrSel : BitVec 12 := 0
  entrySel : BitVec 9 := 0
  keySel : BitVec 3 := 0
  unitSel : BitVec 8 := 0
  cycleSel : BitVec 7 := 0
  hoursSel : BitVec 2 := 0
  histSel : BitVec 8 := 0
deriving DecidableEq, Repr

/-- The whole module and the queue of commands that wait, first in, first out. -/
structure State where
  pending : List Instr := []
  /-- Nanoseconds of real time since the reset state. -/
  now : Nat := 0
  /-- How many free values have been taken: the model's own field, applied to the opaque constants of Config. -/
  freeCount : Nat := 0
  out : List Out := []
  fuses : Fuses := {}
  pins : Pins := {}
  sup : Sup := {}
  erl : Erl := {}
  fb : FieldBook := {}
  hnd : Hnd := {}
  cad : Cad := {}
  mem : Mem := {}
  fab : Fab := {}
  svy : Svy := {}
  hrd : Hrd := {}
  rtv : Rtv := {}
  sys : Sys := {}
  ec : Ec := {}
  dce : Dce := {}
  ing : Ing := {}
  hst : Hst := {}
  pck : Pck := {}
  thm : Thm := {}
  fns : Tab Fn := []
deriving DecidableEq, Repr


/-- The module right after a cold reset, at its entry to BOOT (SUP_STATUS.STATE resets to 3), its queue empty. -/
def State.reset : State := {}

end Sys2Proof.Machine
end

