-- ==== Sys2Proof/Machine/Ops.lean ====
section
/-!
DEFINITION. Machine/Ops.lean: the named operations over the module's memory and its replicated state. Every family
reads and writes state through these.
-/
namespace Sys2Proof.Machine

/-! ### Replicated state: readers and writers -/

def State.fn (s : State) (f : Nat) : Fn := Tab.getD s.fns f {}
def State.setFn (s : State) (f : Nat) (x : Fn) : State := { s with fns := Tab.put s.fns f x }
def State.modFn (s : State) (f : Nat) (g : Fn → Fn) : State := s.setFn f (g (s.fn f))

def State.ctx (s : State) (c : Nat) : Ctx := Tab.getD s.hrd.ctxs c {}
def State.setCtx (s : State) (c : Nat) (x : Ctx) : State := { s with hrd := { s.hrd with ctxs := Tab.put s.hrd.ctxs c x } }
def State.modCtx (s : State) (c : Nat) (g : Ctx → Ctx) : State := s.setCtx c (g (s.ctx c))

def State.core (s : State) (c : Nat) : Core := Tab.getD s.hrd.cores c {}
def State.setCore (s : State) (c : Nat) (x : Core) : State :=
  { s with hrd := { s.hrd with cores := Tab.put s.hrd.cores c x } }
def State.modCore (s : State) (c : Nat) (g : Core → Core) : State := s.setCore c (g (s.core c))

def State.route? (s : State) (r : Nat) : Option Route := Tab.find? s.fab.routes r
def State.setRoute (s : State) (r : Nat) (x : Route) : State :=
  { s with fab := { s.fab with routes := Tab.put s.fab.routes r x } }
def State.dropRoute (s : State) (r : Nat) : State := { s with fab := { s.fab with routes := Tab.erase s.fab.routes r } }

def State.quarter (s : State) (q : Nat) : Quarter := Tab.getD s.fab.quarters q {}
def State.setQuarter (s : State) (q : Nat) (x : Quarter) : State :=
  { s with fab := { s.fab with quarters := Tab.put s.fab.quarters q x } }
def State.modQuarter (s : State) (q : Nat) (g : Quarter → Quarter) : State := s.setQuarter q (g (s.quarter q))

def State.slot (s : State) (n : Nat) : Slot := Tab.getD s.svy.slots n {}
def State.setSlot (s : State) (n : Nat) (x : Slot) : State := { s with svy := { s.svy with slots := Tab.put s.svy.slots n x } }

/-- A channel's reset value: instance mode for local channels 0 to 11, driver mode for 12 to 15 (Table 7.10). -/
def Chan.initial (n : Nat) : Chan := { mode := if 64 ≤ n ∨ n % 16 < 12 then 1 else 2 }

def State.chan (s : State) (n : Nat) : Chan := Tab.getD s.rtv.chans n (Chan.initial n)
def State.setChan (s : State) (n : Nat) (x : Chan) : State := { s with rtv := { s.rtv with chans := Tab.put s.rtv.chans n x } }
def State.modChan (s : State) (n : Nat) (g : Chan → Chan) : State := s.setChan n (g (s.chan n))

def State.ecEngine (s : State) (n : Nat) : EcEngine := Tab.getD s.ec.engines n {}
def State.setEcEngine (s : State) (n : Nat) (x : EcEngine) : State :=
  { s with ec := { s.ec with engines := Tab.put s.ec.engines n x } }
def State.dceEngine (s : State) (n : Nat) : DceEngine := Tab.getD s.dce.engines n {}
def State.setDceEngine (s : State) (n : Nat) (x : DceEngine) : State :=
  { s with dce := { s.dce with engines := Tab.put s.dce.engines n x } }

/-- A port's reset value: its MAC address comes from fuses (Table 13.8). -/
def State.portInit (s : State) (p : Nat) : Port := { mac := if p = 0 then s.fuses.mac0 else s.fuses.mac1 }
def State.port (s : State) (p : Nat) : Port := Tab.getD s.ing.ports p (s.portInit p)
def State.setPort (s : State) (p : Nat) (x : Port) : State := { s with ing := { s.ing with ports := Tab.put s.ing.ports p x } }
def State.stream (s : State) (n : Nat) : Stream := Tab.getD s.ing.streams n {}
def State.setStream (s : State) (n : Nat) (x : Stream) : State :=
  { s with ing := { s.ing with streams := Tab.put s.ing.streams n x } }
def State.modStream (s : State) (n : Nat) (g : Stream → Stream) : State := s.setStream n (g (s.stream n))
def State.decoder (s : State) (n : Nat) : Decoder := Tab.getD s.ing.decoders n {}
def State.setDecoder (s : State) (n : Nat) (x : Decoder) : State :=
  { s with ing := { s.ing with decoders := Tab.put s.ing.decoders n x } }

def State.link (s : State) (p : Nat) : PckPort := Tab.getD s.pck.ports p {}
def State.setLink (s : State) (p : Nat) (x : PckPort) : State := { s with pck := { s.pck with ports := Tab.put s.pck.ports p x } }
def State.modLink (s : State) (p : Nat) (g : PckPort → PckPort) : State := s.setLink p (g (s.link p))
def State.job (s : State) (j : Nat) : Job := Tab.getD s.pck.jobs j {}
def State.setJob (s : State) (j : Nat) (x : Job) : State := { s with pck := { s.pck with jobs := Tab.put s.pck.jobs j x } }
def State.modJob (s : State) (j : Nat) (g : Job → Job) : State := s.setJob j (g (s.job j))

def State.sq (s : State) (f r : Nat) : Sq := Tab.getD (s.fn f).hst.sqs r {}
def State.setSq (s : State) (f r : Nat) (x : Sq) : State :=
  s.modFn f fun g => { g with hst := { g.hst with sqs := Tab.put g.hst.sqs r x } }
def State.oq (s : State) (f r : Nat) : Oq := Tab.getD (s.fn f).hst.oqs r {}
def State.setOq (s : State) (f r : Nat) (x : Oq) : State :=
  s.modFn f fun g => { g with hst := { g.hst with oqs := Tab.put g.hst.oqs r x } }

/-- Reset clock ceilings of the thermal units: cores 1.60 GHz in Sprint, engine groups 1.20 GHz (Table 19.1). -/
def ThmUnit.initial (u maxCore : Nat) : ThmUnit :=
  { thr := if u < 144 then BitVec.ofNat 7 maxCore else if u < 160 then 48 else 0 }

/-! ### The module's standing facts -/

/-- The quarter of a global core number (R19). -/
def coreQuarter (g : Nat) : Nat := g / 36
/-- A core that exists and is not a spare (R22, R23). -/
def State.enabled (s : State) (g : Nat) : Bool := g < 144 && !s.fuses.spare.contains g
def State.fenced (s : State) (g : Nat) : Bool := (s.core g).fence.isSome
/-- A core of the pool: enabled, not fenced and not under extended test (R305, R311). -/
def State.pooled (s : State) (g : Nat) : Bool := s.enabled g && !s.fenced g && !(s.core g).underTest
/-- The enabled core count E: enabled, unfenced cores. -/
def State.poolCount (s : State) : Nat := ((List.range 144).filter s.pooled).length

/-- The profile's clock ceiling in 25 MHz units (Table 17.5). -/
def State.profileCeiling (s : State) : Nat :=
  if s.sup.profile = 0 then (if s.fuses.grade = 112 then 58 else 64) else if s.sup.profile = 1 then 52 else 38
/-- The power cap in watts (Table 17.5). -/
def State.cap (s : State) : Nat := if s.sup.profile = 0 then 600 else if s.sup.profile = 1 then 480 else 340
/-- The function-unit tier of the profile: 0 quadratic, 1 linear (Table 5.2, Table 9.3). -/
def State.tier (s : State) : Nat := if s.sup.profile = 2 then 1 else 0

/-- SYS_NUMSIG (Table 9.3): layout 1, the two revisions of the fuses, and the tier. -/
def State.numsig (s : State) : DWord :=
  BitVec.ofNat 64 (1 + s.fuses.fuRev.toNat * 2 ^ 8 + s.fuses.gridRev.toNat * 2 ^ 16 + s.tier * 2 ^ 24)

def State.thmUnit (s : State) (u : Nat) : ThmUnit := Tab.getD s.thm.units u (ThmUnit.initial u s.profileCeiling)
def State.setThmUnit (s : State) (u : Nat) (x : ThmUnit) : State :=
  { s with thm := { s.thm with units := Tab.put s.thm.units u x } }

/-- PCK_EPOCH: the whole nanoseconds of the epoch clock (R519). -/
def State.epoch (s : State) : DWord := BitVec.ofNat 64 (s.pck.epoch.count.toNat / 65536)
/-- The epoch clock in units of 2^−16 ns (R524). -/
def State.epoch16 (s : State) : Nat := s.pck.epoch.count.toNat

/-- BOOT, READY, RUN and SHUTDOWN-A: the states with all rails up. -/
def ModState.powered : ModState → Bool
  | .boot | .ready | .run | .shutdownA => true
  | _ => false
def ModState.code : ModState → Nat
  | .off => 0 | .wake => 1 | .hold => 2 | .boot => 3 | .ready => 4 | .run => 5 | .shutdownA => 6 | .shutdownB => 7
/-- READY and RUN. -/
def ModState.serving : ModState → Bool
  | .ready | .run => true
  | _ => false
/-- The module runs its compute: all rails up and not held in reset by RESET_N. -/
def State.alive (s : State) : Bool := s.sup.mstate.powered && !s.sup.heldInReset

/-- Functions that exist: the physical one, and 1 to NumVFs while VF Enable is 1 (R482). -/
def State.fnExists (s : State) (f : Nat) : Bool := f == 0 || (s.hst.vfEnable && f ≤ s.hst.numVfs.toNat)
/-- A host request of a function reaches the module: the link is up, all rails are up, the function exists. -/
def State.hostReach (s : State) (f : Nat) : Bool := s.alive && s.hst.linkUp && s.fnExists f

/-- One message sent out of the module. -/
def State.emit (s : State) (o : Out) : State := { s with out := s.out ++ [o] }
/-- Send an output only where a condition holds. -/
def State.emitIf (s : State) (b : Bool) (o : Out) : State := if b then s.emit o else s

/-- The present free value's index; each use of an open value takes a new one. -/
def State.takeFree (s : State) : State := { s with freeCount := s.freeCount + 1 }

/-! ### Byte memory -/

/-- One byte: what an unlisted address reads as is zero (R246). -/
def readByte : List Host.Cell → Nat → Byte
  | [], _ => 0
  | (k, v) :: r, a => if k = a then v else readByte r a

/-- One byte written, keeping addresses rising and no listed byte zero. -/
def writeByte : List Host.Cell → Nat → Byte → List Host.Cell
  | [], a, v => if v = 0 then [] else [(a, v)]
  | (k, w) :: r, a, v =>
    if k = a then (if v = 0 then r else (k, v) :: r)
    else if a < k then (if v = 0 then (k, w) :: r else (a, v) :: (k, w) :: r)
    else (k, w) :: writeByte r a v

/-- `n` bytes from an address. -/
def readBytes (m : List Host.Cell) (a : Nat) : Nat → List Byte
  | 0 => []
  | n + 1 => readByte m a :: readBytes m (a + 1) n

/-- Bytes written from an address upward. -/
def writeBytes (m : List Host.Cell) (a : Nat) : List Byte → List Host.Cell
  | [] => m
  | b :: r => writeBytes (writeByte m a b) (a + 1) r

/-- The canonical form: addresses strictly rising, and no listed byte zero. -/
def cellsOk : Nat → List Host.Cell → Bool
  | _, [] => true
  | lo, (k, v) :: r => decide (lo ≤ k) && decide (v ≠ 0) && cellsOk (k + 1) r

/-- The canonical form of device and tile memory. -/
def Mem.wf (m : Mem) : Bool := cellsOk 0 m.bytes && cellsOk 0 m.tile

/-! ### Address spaces (Table 6.1) -/

/-- First address beyond device memory. -/
def devTop : Nat := 0x17E0000000
/-- First address beyond slot storage. -/
def slotTop : Nat := 0x1800000000
def tileBase : Nat := 0x10000000000
def tileSpan : Nat := 0x200000
def tileTop : Nat := tileBase + 144 * tileSpan

/-- The granule of an address. -/
def granule (a : Nat) : Nat := a / 64 * 64
/-- The granules that `n` bytes from an address touch. -/
def granules (a n : Nat) : List Nat :=
  if n = 0 then [] else (List.range ((a + n - 1) / 64 - a / 64 + 1)).map fun i => granule a + 64 * i
/-- The 4 KiB pages that `n` bytes from an address touch. -/
def pages (a n : Nat) : List Nat :=
  if n = 0 then [] else (List.range ((a + n - 1) / 4096 - a / 4096 + 1)).map fun i => a / 4096 + i
/-- The home quarter of a device-memory address, and its byte offset within that quarter's stack (R220). -/
def homeQuarter (a : Nat) : Nat := a / 4096 % 4
def homeOffset (a : Nat) : Nat := a / 16384 * 4096 + a % 4096
/-- A byte range wholly in device memory. -/
def inDev (a n : Nat) : Bool := a + n ≤ devTop
/-- A byte range wholly in the tile windows; gives the core. -/
def tileCore? (a n : Nat) : Option Nat :=
  if tileBase ≤ a ∧ a + n ≤ tileTop ∧ (n = 0 ∨ (a + n - 1 - tileBase) / tileSpan = (a - tileBase) / tileSpan) then
    some ((a - tileBase) / tileSpan) else none
/-- The module address of a core's tile memory. -/
def tileAddr (core off : Nat) : Nat := tileBase + core * tileSpan + off

/-- Bytes at the point of coherence: tile windows hold tile memory, everything below holds device memory. -/
def State.peek (s : State) (a n : Nat) : List Byte :=
  if a < tileBase then readBytes s.mem.bytes a n else readBytes s.mem.tile a n

/-- Write tile memory. -/
def State.writeTile (s : State) (a : Nat) (d : List Byte) : State :=
  { s with mem := { s.mem with tile := writeBytes s.mem.tile a d } }

/-- A granule that a write of `n` bytes from `a` covers wholly. -/
def covers (a n g : Nat) : Bool := a ≤ g && g + 64 ≤ a + n

/-- Write device memory with no protection check: the bytes land, and granules wholly covered lose their poison
(R254). -/
def State.writeDev (s : State) (a : Nat) (d : List Byte) : State :=
  { s with mem := { s.mem with
      bytes := writeBytes s.mem.bytes a d
      poison := s.mem.poison.filter fun g => !covers a d.length g.1 } }

/-- Write at a module address: device memory or a tile window. -/
def State.write (s : State) (a : Nat) (d : List Byte) : State :=
  if a < tileBase then s.writeDev a d else s.writeTile a d

/-- A granule is poisoned. -/
def State.poisoned (s : State) (g : Nat) : Bool := (Tab.find? s.mem.poison g).isSome

/-- Add a number to a rising list. -/
def insertNat : Nat → List Nat → List Nat
  | x, [] => [x]
  | x, y :: r => if x = y then y :: r else if x < y then x :: y :: r else y :: insertNat x r

/-- The granules of a device-memory write that it covers only in part. -/
def partGranules (a n : Nat) : List Nat := (granules a n).filter fun g => !covers a n g

/-! ### Read caches (R228 to R232) -/

/-- Drop every line of the pages that meet a test from a cache. -/
def Cache.dropIf (c : Cache) (p : Nat → Bool) : Cache := { lines := c.lines.filter fun x => !p (x.1 / 4096) }

/-- A waiting reach load of a page that meets a test keeps no line (R232). -/
def UnitRun.dropFill (u : UnitRun) (p : Nat → Bool) : UnitRun :=
  match u.blocked with
  | some (.load a n keep) => { u with blocked := some (.load a n (keep && !p (a / 4096))) }
  | _ => u

/-- The line fills in flight of pages that meet a test serve only the loads that wait for them (R232). -/
def Ctx.dropFills (x : Ctx) (p : Nat → Bool) : Ctx :=
  { x with held := x.held.map fun f => { f with run := f.run.map fun r =>
      { r with units := r.units.map fun u => u.dropFill p } } }

/-- Drop every line of the pages that meet a test from every read cache, with the line fills in flight (R231, R232) and
the scale tables derived from those pages (R383). -/
def State.dropLines (s : State) (p : Nat → Bool) : State :=
  { s with
    hrd := { s.hrd with
      cores := Tab.mapVal (fun _ c => { c with cache := c.cache.dropIf p }) s.hrd.cores
      ctxs := Tab.mapVal (fun _ x => x.dropFills p) s.hrd.ctxs }
    mem := { s.mem with src := Tab.mapVal (fun _ c => c.dropIf p) s.mem.src }
    ec := { s.ec with engines := Tab.mapVal (fun _ e =>
      { e with sets := e.sets.filter fun d => !(pages d.addr d.bytes.length).any p }) s.ec.engines } }

/-- A page that `n` bytes from an address touch. -/
def touches (a n page : Nat) : Bool := 0 < n && a / 4096 ≤ page && page ≤ (a + n - 1) / 4096

/-- A fresh invalidation: every core read cache and stream read cache drops the pages. -/
def State.invalidate (s : State) (ps : List Nat) : State := if ps.isEmpty then s else s.dropLines fun p => ps.contains p

/-- Every read cache emptied. -/
def State.dropCaches (s : State) : State := s.dropLines fun _ => true

/-- The sets and ways of a read cache of 64-byte lines (Table 6.3): 64 KiB and 4 ways at a core, 2 MiB and 8 ways at a
quarter. -/
structure CacheShape where
  sets : Nat
  ways : Nat
deriving DecidableEq, Repr

def coreCache : CacheShape := ⟨256, 4⟩
def streamCache : CacheShape := ⟨4096, 8⟩

/-- The lines of a cache that share a granule's set. -/
def Cache.sharing (c : Cache) (h : CacheShape) (g : Nat) : Tab (List Byte) :=
  c.lines.filter fun x => Config.cacheSet x.1 % h.sets == Config.cacheSet g % h.sets

/-- Keep a granule's line; in a full set one of its lines gives way, which one being free (Table 6.3, R231). -/
def Cache.fill (c : Cache) (h : CacheShape) (free g : Nat) (d : List Byte) : Cache :=
  let c : Cache := { lines := Tab.erase c.lines g }
  let same := c.sharing h g
  match if same.length < h.ways then none else same[Config.victim free g % same.length]? with
  | some v => { lines := Tab.put (Tab.erase c.lines v.1) g d }
  | none => { lines := Tab.put c.lines g d }

/-- A granule's line dropped from a cache, as a parity error on it does (R231). -/
def Cache.dropLine (c : Cache) (g : Nat) : Cache := { lines := Tab.erase c.lines g }

/-- One granule read non-volatile through a cache: the line where it is held and not evicted, else memory, which fills
the line (R230). -/
def cacheRead (s : State) (h : CacheShape) (c : Cache) (g : Nat) : List Byte × Cache :=
  match Tab.find? c.lines g, Config.evicted s.freeCount g with
  | some d, false => (d, c)
  | _, _ => (s.peek g 64, c.fill h s.freeCount g (s.peek g 64))

/-- Several granules read non-volatile through a cache. -/
def cacheReadAll (s : State) (h : CacheShape) : Cache → List Nat → List Byte × Cache
  | c, [] => ([], c)
  | c, g :: r =>
    let x := cacheRead s h c g
    let y := cacheReadAll s h x.2 r
    (x.1 ++ y.1, y.2)

/-- The granules of a stream read that are served at the point of coherence: all of a volatile one, and those that the
quarter's stream read cache does not hold (R230). Only these can meet an uncorrectable granule (R253). -/
def State.streamMisses (s : State) (q : Nat) (isVolatile : Bool) (a n : Nat) : List Nat :=
  if a ≥ tileBase then []
  else (granules a n).filter fun g => isVolatile || Config.evicted s.freeCount g ||
    (Tab.find? (Tab.getD s.mem.src q {}).lines g).isNone

/-- `n` bytes of device memory through a quarter's stream read cache, or at the point of coherence when volatile.
Tile memory is never cached. -/
def State.streamRead (s : State) (q : Nat) (isVolatile : Bool) (a n : Nat) : List Byte × State :=
  if isVolatile || a ≥ tileBase then (s.peek a n, s)
  else
    let x := cacheReadAll s streamCache (Tab.getD s.mem.src q {}) (granules a n)
    ((x.1.drop (a % 64)).take n, { s with freeCount := s.freeCount + 1, mem := { s.mem with src := Tab.put s.mem.src q x.2 } })


/-! ### Tallies (R248, R267) -/

/-- Key of a physical tally: quarter and index, as RTV_TALLY_SEL numbers them. -/
def tallyKey (q i : Nat) : Nat := q * 1024 + i
def State.tally (s : State) (k : Nat) : Word := Tab.getD s.mem.tallies k 0
def State.setTally (s : State) (k : Nat) (v : Word) : State := { s with mem := { s.mem with tallies := Tab.put s.mem.tallies k v } }
/-- One completion counted, modulo 2^32. -/
def State.incTally (s : State) (k : Nat) : State := s.setTally k (s.tally k + 1)
/-- A tally has reached a target: their difference, as a signed word, is not negative (R269). -/
def reached (value target : Word) : Bool := !(value - target).msb

/-! ### MSI-X (R486) -/

/-- Raise a vector: sent where the link is up and the vector is not masked; a masked vector becomes pending. -/
def State.msix (s : State) (f v : Nat) : State :=
  let e := Tab.getD (s.fn f).hst.vectors v {}
  if !s.hst.linkUp then s
  else if e.masked then
    s.modFn f fun g => { g with hst := { g.hst with vectors := Tab.put g.hst.vectors v { e with pendingBit := true } } }
  else s.emit (.msix f v e.addr e.data)

/-- A posted write to host memory, discarded while the link is down (R505). -/
def State.hostWrite (s : State) (f a : Nat) (d : List Byte) : State := s.emitIf s.hst.linkUp (.hostWrite f a d)

end Sys2Proof.Machine
end

