-- ==== Sys2Proof/Machine/Clock.lean ====
section
/-!
DEFINITION. Machine/Clock.lean: the passing of time. The table has no row for a tick: one nanosecond passes at a step
on an empty queue (assumption log), and everything that only counts with time counts there.
-/
namespace Sys2Proof.Machine

/-- Advance of the epoch count in one nanosecond at a rate in parts per 10^9: the nominal 2^16 counts plus the rate's
share, whose remainder is carried (R519, R521). -/
def epochAdvance (ppb : Int) (rem : Nat) : Nat × Nat :=
  let x : Int := 65536 * (1000000000 + ppb) + (rem : Int)
  ((x / 1000000000).toNat, (x % 1000000000).toNat)

/-- One nanosecond of the epoch clock: its rate, and one count of any slew in 16 ns, below 1 ppm (R520). -/
def Epoch.tick (e : Epoch) (now : Nat) : Epoch :=
  let a := epochAdvance e.ratePpb e.rem
  let d : Int := if now % 16 = 0 then (if 0 < e.slew then 1 else if e.slew < 0 then -1 else 0) else 0
  { e with count := e.count + BitVec.ofNat 80 a.1 + BitVec.ofInt 80 d, rem := a.2, slew := e.slew - d }

/-- One nanosecond passes: the epoch clock counts in every state with standby power and rails, and the Field book's
powered time counts in BOOT to SHUTDOWN-A (Table 20.8). -/
def State.tick (s : State) : State :=
  let s := { s with now := s.now + 1 }
  if s.sup.mstate.powered then
    { s with
      pck := { s.pck with epoch := s.pck.epoch.tick s.now }
      fb := { s.fb with work := { s.fb.work with poweredNs := s.fb.work.poweredNs + 1 } } }
  else s

end Sys2Proof.Machine
end

