-- ==== Sys2Proof/Machine/Report.lean ====
section
/-!
DEFINITION. Machine/Report.lean: error classes, records and where they go (chapter 20), the Cadastre's verdict on an
access (chapter 18), and the entry to HOLD (R591). `report` is the one way any command reports an error code.
-/
namespace Sys2Proof.Machine

/-! ### Classes, indices and codes -/

/-- Block indices (Table 20.2). -/
def Block.index : Block → Nat
  | .sys => 0 | .hst => 1 | .svy => 2 | .hrd => 3 | .rtv => 4 | .ec => 5 | .dce => 6 | .ing => 7 | .pck => 8 | .thm => 9
  | .erl => 10 | .cad => 11 | .hnd => 12 | .sup => 13 | .fab => 14 | .mem => 15

def ErrClass.code : ErrClass → Nat
  | .corrected => 0 | .reportOnly => 1 | .frameContained => 2 | .instFatal => 3 | .unitFatal => 4 | .moduleFatal => 5

/-- UNIT of a record (Table 20.3). -/
def UnitRef.code : UnitRef → Nat
  | .none => 0 | .core i => 0x1000 + i | .entropy i => 0x2000 + i | .dict i => 0x3000 + i | .decoder i => 0x4000 + i
  | .channel i => 0x5000 + i | .route i => 0x6000 + i | .traverse i => 0x7000 + i | .gate i => 0x8000 + i
  | .stack i => 0x9000 + i | .thermal i => 0xA000 + i | .slot i => 0xB000 + i | .ring i => 0xC000 + i
  | .stream i => 0xD000 + i

/-- The quarter a unit of a record lies in (Tables 1.2, 19.1): Traverse port *q* in quarter *q* / 2, Gate port *p* in
quarter 1 + *p*. Slots, rings and streams belong to no quarter, and a route's record names its quarter itself. -/
def UnitRef.quarter : UnitRef → Option Nat
  | .none | .slot _ | .ring _ | .stream _ | .route _ => Option.none
  | .core i => some (i / 36)
  | .entropy i => some (i / 4)
  | .dict i => some (i / 2)
  | .decoder i | .stack i => some i
  | .channel i => some (i / 16)
  | .traverse i => some (i / 2)
  | .gate i => some (1 + i)
  | .thermal i =>
    if i < 144 then some (i / 36) else if i < 160 then some ((i - 144) / 4) else if i < 164 then some (i - 160)
    else if i < 172 then some ((i - 164) / 2) else Option.none

/-- The class of a code, where it does not depend on the event (R667 and each chapter's error table). -/
def Err.cls (e : Err) : ErrClass :=
  match e.blk with
  | .sys => if e.nn = 23 then .unitFatal else if e.nn = 20 ∨ e.nn = 27 then .corrected
      else if 21 ≤ e.nn ∧ e.nn ≤ 26 then .frameContained else .reportOnly
  | .hst => if e.nn = 11 then .moduleFatal else if e.nn = 9 ∨ e.nn = 10 then .frameContained else .reportOnly
  | .svy => if e.nn = 21 then .instFatal else .reportOnly
  | .hrd => if e.nn = 10 then .unitFatal else if e.nn = 11 then .instFatal
      else if 4 ≤ e.nn ∧ e.nn ≤ 6 then .frameContained else .reportOnly
  | .rtv => if e.nn = 13 then .unitFatal else .reportOnly
  | .ec => if e.nn = 9 then .unitFatal else if e.nn ≤ 5 then .frameContained else .reportOnly
  | .dce => if e.nn = 2 then .unitFatal else if e.nn = 1 then .reportOnly else .frameContained
  | .ing => if e.nn = 11 then .unitFatal
      else if e.nn = 4 ∨ e.nn = 5 ∨ e.nn = 6 ∨ e.nn = 9 then .frameContained else .reportOnly
  | .pck => if 5 ≤ e.nn ∧ e.nn ≤ 7 then .frameContained else .reportOnly
  | .thm => if e.nn = 1 then .moduleFatal else .reportOnly
  | .erl => if e.nn = 1 then .moduleFatal else .reportOnly
  | .cad => if e.nn = 8 then .moduleFatal else .reportOnly
  | .hnd => .reportOnly
  | .sup => if e.nn = 2 then .moduleFatal else .reportOnly
  | .fab => if e.nn = 1 ∨ e.nn = 2 ∨ e.nn = 4 then .instFatal else if e.nn = 6 then .frameContained else .reportOnly
  | .mem => if e.nn = 1 ∨ e.nn = 6 then .corrected else if e.nn = 5 then .moduleFatal
      else if e.nn = 2 ∨ e.nn = 3 then .frameContained else .reportOnly

/-- The loss code of a lost frame (R670). -/
def Err.lossCode (e : Err) : Nat :=
  16 * e.blk.index + (match e.blk with | .sys | .svy => e.nn - 16 | _ => e.nn)

/-- One reported event: its code and what Table 20.3 records of it. -/
structure Ev where
  blk : Block
  nn : Nat
  /-- The class of this event, where the code has several (R667). -/
  cls : Option ErrClass := none
  func : Option Nat := none
  quarter : Option Nat := none
  unit : UnitRef := .none
  ctx : Option Nat := none
  frame : Option Nat := none
  detail : List Nat := []
  /-- The record goes to the ring of FUNC only (R470). -/
  ownOnly : Bool := false

def Ev.err (e : Ev) : Err := ⟨e.blk, e.nn⟩
def Ev.class (e : Ev) : ErrClass := e.cls.getD e.err.cls

/-- QUARTER of a record: the one the event names, its unit's, or Q0 for the PCIe endpoint and the Handler (R25; DESIGN
CHOICE, log 140: Table 20.3 does not say which records of those two carry a quarter). -/
def Ev.where_ (e : Ev) : Option Nat :=
  match e.quarter, e.unit.quarter with
  | some q, _ => some q
  | none, some q => some q
  | none, none => if e.blk = .hst ∨ e.blk = .hnd then some 0 else none

/-- The records that go to the Field book event log (R678). -/
def Ev.toFieldBook (e : Ev) : Bool :=
  match e.class with
  | .unitFatal | .moduleFatal => true
  | _ =>
    match e.blk with
    | .mem => 2 ≤ e.nn && e.nn ≤ 5
    | .sup => e.nn ≤ 5 || e.nn == 9
    | .thm => e.nn ≤ 6
    | .cad => e.nn ≤ 3 || (5 ≤ e.nn && e.nn ≤ 8)
    | .hrd => e.nn == 9
    | .hnd => e.nn ≤ 3 || e.nn == 6
    | .erl => e.nn ≤ 2 || (4 ≤ e.nn && e.nn ≤ 8) || e.nn == 10 || e.nn == 11
    | _ => false

/-- The alert causes a code sets, as bits of ERL_ALERT (Table 20.5). -/
def Ev.alerts (e : Ev) : Nat :=
  (if e.class = .unitFatal then 2 ^ 8 else 0) +
  (match e.blk, e.nn with
   | .sup, 2 => 2 ^ 0
   | .sup, 3 => 2 ^ 1
   | .sup, 5 => 2 ^ 1
   | .cad, 1 => 2 ^ 3
   | .cad, 2 => 2 ^ 4
   | .cad, 3 => 2 ^ 4
   | .cad, 7 => 2 ^ 12
   | .thm, 2 => 2 ^ 5
   | .thm, 4 => 2 ^ 6
   | .thm, 5 => 2 ^ 7
   | .mem, 2 => 2 ^ 9
   | .mem, 3 => 2 ^ 9
   | .erl, 4 => 2 ^ 11
   | .erl, 5 => 2 ^ 11
   | .erl, 6 => 2 ^ 11
   | _, _ => 0)

/-- The replace causes a code sets (Table 20.6). -/
def Ev.replaces (e : Ev) : Nat :=
  match e.blk, e.nn with
  | .hrd, 9 => 1
  | .thm, 6 => 2
  | .erl, 6 => 4
  | .erl, 7 => 8
  | _, _ => 0

/-! ### Serialisation of a record -/

def optNat (d : Nat) : Option Nat → Nat
  | some n => n
  | none => d

/-- The 64 bytes of a record (Table 20.3). `overflow` is FLAGS bit 0 of the copy written to a ring. -/
def Rec.bytes (r : Rec) (overflow : Bool) : List Byte :=
  let body := natLe 4 r.seq.toNat ++ natLe 1 r.err.blk.index ++ natLe 1 r.err.nn ++ natLe 1 r.cls.code ++
    natLe 1 (bitAt 0 overflow + bitAt 1 r.pendingArea + bitAt 2 r.fieldBook) ++ natLe 8 r.epoch.toNat ++
    natLe 1 (optNat 0xFF r.func) ++ natLe 1 (optNat 0xFF r.quarter) ++ natLe 2 r.unit.code ++
    natLe 2 (optNat 0xFFFF r.ctx) ++ natLe 2 r.suppressed.toNat ++ natLe 8 (optNat 0xFFFFFFFFFFFFFFFF r.frame) ++
    (List.range 7).flatMap fun i => natLe 4 (r.detail.getD i 0)
  body ++ natLe 4 (crc32c body)

/-! ### The Cadastre's verdict (R617, R620 to R622) -/

/-- A non-empty entry covers a page. -/
def CadEntry.coversPage (e : CadEntry) (page : Nat) : Bool :=
  e.pages ≠ 0 && e.base.toNat ≤ page && page < e.base.toNat + e.pages.toNat

/-- The entry sets the bit of a requester class for a direction (Table 18.3, class codes of Table 18.4). -/
def CadEntry.grants (e : CadEntry) (cls : Nat) (write : Bool) : Bool :=
  if cls < 0x10 then (if write then e.hostW else e.hostR).getLsbD cls
  else if cls < 0x20 then (if write then e.ctxW else e.ctxR).getLsbD (cls - 0x10)
  else if cls = 0x20 then (if write then e.sysW else e.sysR).getLsbD 0
  else if cls < 0x34 then (if write then e.sysW else e.sysR).getLsbD (cls - 0x30 + 1)
  else false

/-- The lowest-numbered covering entry decides a page (R621). -/
def cadPage (es : List CadEntry) (cls page : Nat) (write : Bool) : Bool :=
  match es.find? fun e => e.coversPage page with
  | some e => e.grants cls write
  | none => false

/-- The first page of an access that the Cadastre denies; every page until CAD_LOCK is set (R617). -/
def State.cadDenied (s : State) (cls a n : Nat) (write : Bool) : Option Nat :=
  (pages a n).find? fun p => !(s.cad.locked && cadPage s.cad.entries cls p write)

/-! ### Alerts, replace causes and platform events -/

/-- A state sensor event (DSP0248, PRESUMED): sensor ID, sensor event class 1, offset, new and old state. -/
def stateSensorEvent (sensor offset new old : Nat) : List Byte :=
  natLe 2 sensor ++ natLe 1 1 ++ natLe 1 offset ++ natLe 1 new ++ natLe 1 old

/-- Queue and send a PlatformEventMessage where a receiver is set and the Handler runs (R693). -/
def State.platformEvent (s : State) (cls : Nat) (body : List Byte) : State :=
  match s.hnd.receiver with
  | none => s
  | some (t, _) =>
    if !s.hnd.running then s
    else
      let e : PldmEvent := {
        id := s.hnd.nextEvent, sends := 1
        body := [0x01] ++ natLe 1 (0x80 + s.hnd.nextEvent % 32) ++ [0x02, 0x0A, 0x01, s.hnd.tid] ++ natLe 1 cls ++ body }
      State.emitIf { s with hnd := { s.hnd with events := s.hnd.events ++ [e], nextEvent := s.hnd.nextEvent + 1 } }
        (t == .smbus || s.hst.linkUp) (.mctp t e.body)

/-- Set alert causes; the rise of each is a platform event of sensor 301, at the cause's offset. -/
def State.raiseAlert (s : State) (bits : Nat) : State :=
  let old := s.erl.alert
  let new := old ||| BitVec.ofNat 13 bits
  ((List.range 13).filter fun i => new.getLsbD i && !old.getLsbD i).foldl
    (fun t i => State.platformEvent t 0 (stateSensorEvent 301 i 1 0)) { s with erl := { s.erl with alert := new } }

/-- Clear alert causes. -/
def State.dropAlert (s : State) (bits : Nat) : State :=
  { s with erl := { s.erl with alert := s.erl.alert &&& ~~~(BitVec.ofNat 13 bits) } }

/-- Set replace causes: REPLACE of the state block, SERVICE_N's latch and the alert cause (R680). -/
def State.raiseReplace (s : State) (bits : Nat) : State :=
  if bits = 0 then s
  else
    State.raiseAlert
      { s with
        erl := { s.erl with replace := s.erl.replace ||| BitVec.ofNat 4 bits }
        fb := { s.fb with work := { s.fb.work with replace := s.fb.work.replace ||| BitVec.ofNat 4 bits } }
        sup := { s.sup with service := true } }
      (2 ^ 10)

/-! ### Rings and the record's destinations (R674 to R678) -/

/-- A code of a suppressed pair is counted and not written; otherwise the count so far, and the pair's new time. -/
def rateLimit (now : Nat) (c : ErrClass) (e : Err) (u : UnitRef) : List RateCell → (Option (BitVec 16)) × List RateCell
  | [] => (some 0, [{ err := e, unit := u, last := now, held := 0 }])
  | x :: r =>
    if x.err = e ∧ x.unit = u then
      if now < x.last + (if c = .corrected then 1000000000 else 1000000) then (none, { x with held := satInc x.held } :: r)
      else (some x.held, { x with last := now, held := 0 } :: r)
    else
      let y := rateLimit now c e u r
      (y.1, x :: y.2)

/-- Where a log ring's record at an index lies. -/
def LogRing.slotAddr (g : LogRing) (i : Nat) : Nat := g.addr.toNat * 64 + 64 * i

/-- What a ring does with a record: full, written, or denied by the Cadastre at a page. -/
inductive RingResult where
  | off | full | written | denied (page : Nat)

def State.ringTry (s : State) (f : Nat) : RingResult :=
  let g := (s.fn f).ring
  if !g.en then .off
  else if (g.head.toNat + 1) % 2 ^ g.log2.toNat = g.tail.toNat then .full
  else if g.host then .written
  else
    match s.cadDenied f (g.slotAddr g.head.toNat) 64 true with
    | some p => .denied p
    | none => .written

/-- Write a record to a function's log ring and send its error vector (R676, R677). A ring that the Cadastre denies is
disabled (R623). -/
def State.ringPut (s : State) (f : Nat) (r : Rec) : State :=
  let g := (s.fn f).ring
  match s.ringTry f with
  | .off => s
  | .full => s.modFn f fun x =>
      { x with ring := { g with drops := satInc g.drops, overflow := true, lost := true } }
  | .denied _ => s.modFn f fun x => { x with ring := { g with en := false } }
  | .written =>
    let d := r.bytes g.lost
    let a := g.slotAddr g.head.toNat
    let s := if g.host then s.hostWrite f a d else s.write a d
    let s := s.modFn f fun x =>
      { x with ring := { g with head := BitVec.ofNat 16 ((g.head.toNat + 1) % 2 ^ g.log2.toNat), lost := false } }
    let h := (s.fn f).hst
    if h.errEn then s.msix f h.errVec.toNat else s

/-- The Field book's share of a record: queued for the Handler, or held in the pending area, which keeps 64 (R686). -/
def State.fieldBookPut (s : State) (cls : ErrClass) (r : Rec) : State :=
  if !r.fieldBook then s
  else if s.hnd.running && cls ≠ .moduleFatal then { s with fb := { s.fb with queue := s.fb.queue ++ [r] } }
  else if s.fb.pending.length < 64 then
    { s with fb := { s.fb with pending := s.fb.pending ++ [{ r with pendingArea := !s.hnd.running }] } }
  else { s with fb := { s.fb with pendingDropped := s.fb.pendingDropped + 1 } }

/-- The functions whose ring receives a record: the physical one, and FUNC where it is virtual (R675); every function's
for a module-fatal one (Table 20.1). -/
def Ev.rings (e : Ev) : List Nat :=
  if e.class = .moduleFatal then List.range 16
  else match e.func with
  | some f => if f = 0 then [0] else if e.ownOnly then [f] else [0, f]
  | none => [0]

/-- The module writes at most one record per code and unit in an interval (R674); R623 alone governs E-CAD-04. -/
def Ev.limited (e : Ev) : Bool := !(e.blk == .cad && e.nn == 4)

/-- A denial counted, shown and, once per class per millisecond, given back for its record (R623). -/
def State.countDenial (s : State) (cls page : Nat) (write : Bool) : Bool × State :=
  let due := match Tab.find? s.cad.denyTimes cls with | some t => t + 1000000 ≤ s.now | none => true
  (due, { s with cad := { s.cad with
            denyCount := satInc s.cad.denyCount
            lastPage := BitVec.ofNat 32 page
            lastClass := BitVec.ofNat 8 cls
            lastWrite := write
            denyTimes := if due then Tab.put s.cad.denyTimes cls s.now else s.cad.denyTimes } })

/-- The record of a denial. -/
def denialEv (cls page : Nat) (write : Bool) (c : ErrClass) (f : Option Nat) (ctx frame : Option Nat) : Ev :=
  { blk := .cad, nn := 4, cls := some c, func := f, ctx := ctx, frame := frame,
    detail := [page, cls, if write then 1 else 0] }

/-- The alert and replace causes an event sets. -/
def State.raiseFor (s : State) (e : Ev) : State := (s.raiseAlert e.alerts).raiseReplace e.replaces

/-- A record goes to a function's ring: a ring that the Cadastre denies reports the denial and its own end (R623). -/
def ringStep (rep : Ev → State → State) (r : Rec) (t : State) (f : Nat) : State :=
  match t.ringTry f with
  | .denied p =>
    let d := (t.ringPut f r).countDenial f p true
    rep { blk := .hst, nn := 3, func := some f }
      (if d.1 then rep (denialEv f p true .reportOnly (some f) none none) d.2 else d.2)
  | _ => t.ringPut f r

/-- Report an event, with fuel for the reports that its own ring writes may raise. -/
def reportWith : Nat → Ev → State → State
  | 0, _, s => s
  | fuel + 1, e, s =>
    let s := s.raiseFor e
    let lim := if e.limited then rateLimit s.now e.class e.err e.unit s.erl.rate else (some 0, s.erl.rate)
    let s := { s with erl := { s.erl with rate := lim.2 } }
    match lim.1 with
    | none => s
    | some held =>
      let r : Rec := {
        seq := s.erl.seq + 1, err := e.err, cls := e.class, overflow := false, pendingArea := false,
        fieldBook := e.toFieldBook, epoch := s.epoch, func := e.func, quarter := e.where_, unit := e.unit, ctx := e.ctx,
        suppressed := held, frame := e.frame, detail := e.detail }
      let s := { s with erl := { s.erl with seq := r.seq, history := (r :: s.erl.history).take 256 } }
      let s := s.fieldBookPut e.class r
      let s := if e.class = .unitFatal ∨ e.class = .moduleFatal then s.platformEvent 0xF0 (r.bytes false) else s
      e.rings.foldl (ringStep (reportWith fuel) r) s

/-- HOLD's cause code for a module-fatal event (Table 17.4). -/
def Ev.holdCause (e : Ev) : Nat :=
  match e.blk with
  | .thm => 0x10 | .erl => 0x11 | .mem => 0x12 | .hst => 0x13 | _ => 0x20

/-! ### The agent that answers SMBus (Table 16.4, R561) -/

/-- Who answers SMBus. -/
inductive SmbusAgent where
  | nobody | responder | handler
deriving DecidableEq, Repr

/-- The row "Handler in reset" of Table 16.4 governs: the Handler is in reset or held, or RESET_N holds the module. -/
def State.handlerRow (s : State) : Bool := s.hnd.inReset || s.hnd.held || s.sup.heldInReset

/-- The agent that answers SMBus (Table 16.4). -/
def State.smbusAgent (s : State) : SmbusAgent :=
  match s.sup.mstate with
  | .off | .shutdownB => .nobody
  | .wake | .hold => .responder
  | .boot | .ready | .run | .shutdownA => if s.handlerRow then .responder else .handler

/-- Where another agent than in `old` answers SMBus now, both lines are released, and no further byte of a transaction
under way is answered (R561). -/
def State.smbusSettled (s old : State) : State :=
  s.emitIf (old.smbusAgent != .nobody && s.smbusAgent != old.smbusAgent) .smbusRelease

/-- A change of module state is a platform event of sensor 300 (R693). -/
def State.toState (s : State) (m : ModState) : State :=
  if s.sup.mstate = m then s
  else (State.platformEvent { s with sup := { s.sup with mstate := m } } 0
    (stateSensorEvent 300 0 m.code s.sup.mstate.code)).smbusSettled s

/-- What is lost with the rails: memory contents, contexts, routes, images, links and every engine's state. The
sequencer, the record store, flash, fuses and pins keep theirs. -/
def State.loseRails (s : State) : State :=
  { s with
    mem := {}, fab := {}, svy := {}, rtv := {}, ec := {}, dce := {}, ing := {}, hst := {}, pck := {}, sys := {}
    hrd := { cores := Tab.mapVal (fun _ c => { fence := c.fence }) s.hrd.cores }
    thm := { lifeEnd := s.thm.lifeEnd, channels := s.thm.channels }, fns := []
    hnd := { watchdogs := s.hnd.watchdogs, resets := s.hnd.resets } }

/-- Take the module to HOLD (R591): E-SUP-02 is recorded once, the hot-swap switch opens and the rails go down. -/
def State.enterHold (s : State) (cause : Nat) : State :=
  let w := s.fb.work
  let s := { s with fb := { s.fb with work := { w with counts := w.counts.set 5 (w.counts.getD 5 0 + 1) } } }
  let s := reportWith 3 { blk := .sup, nn := 2, detail := [cause, s.sup.failedStep, s.sup.attempts] } s
  let s := s.toState .hold
  let s := s.loseRails
  { s with sup := { s.sup with
      holdCause := cause, hotSwap := false, service := false, heldInReset := false
      bootFailAt := if cause = 0x20 then some s.now else s.sup.bootFailAt } }

/-- The third module-fatal error within 720 powered hours (Table 20.6, bit 3). -/
def State.countFatal (s : State) : State :=
  let w := s.fb.work
  let hours := w.poweredNs / 3600000000000
  let third := match w.fatalHours with
    | _ :: b :: _ => decide (hours < b + 720)
    | _ => false
  let s := { s with fb := { s.fb with work := { w with
    fatals := w.fatals + 1, fatalHours := (hours :: w.fatalHours).take 2 } } }
  if third then reportWith 3 { blk := .erl, nn := 7 } s else s

/-- Report an error code, with the module's response to its class (Table 20.1): a module-fatal event also signals AER
and, from BOOT, READY and RUN, takes the module to HOLD, as a thermal trip does from WAKE (R652). In SHUTDOWN-A it makes
cancellation impossible (R607). -/
def State.report (s : State) (e : Ev) : State :=
  if e.class = .moduleFatal ∧ ¬(e.blk = .sup) then
    let s := reportWith 3 e s
    let s := s.emitIf s.hst.linkUp .aerFatal
    let s := s.countFatal
    match s.sup.mstate with
    | .boot | .ready | .run => s.enterHold e.holdCause
    | .wake => if e.blk = .thm then s.enterHold e.holdCause else s
    | .shutdownA => { s with sup := { s.sup with noCancel := true } }
    | _ => s
  else reportWith 3 e s

/-- Count and report a Cadastre denial (R623). -/
def State.deny (s : State) (cls page : Nat) (write : Bool) (c : ErrClass) (f ctx frame : Option Nat) : State :=
  let d := s.countDenial cls page write
  if d.1 then d.2.report (denialEv cls page write c f ctx frame) else d.2

/-- The record of an ignored class L write (R128): the block's locked-write code, the BAR0 offset or port address and the
value written (Table 20.4). -/
def State.lockedRecord (s : State) (blk : Block) (nn f off value : Nat) : State :=
  s.report { blk := blk, nn := nn, func := some f, detail := [off, value % 2 ^ 32] }

/-- Count a bad host access of a function in HST_ACC_ERR and report E-HST-01 (Table 14.6). -/
def State.accessError (s : State) (f : Nat) : State :=
  (s.modFn f fun g => { g with hst := { g.hst with accErr := satInc g.hst.accErr } }).report
    { blk := .hst, nn := 1, func := some f }

/-- An uncorrectable error counted in MEM_UE_INFO, and in UE_TOTAL and UE_STACK of the state block (Tables 6.16, 20.8). -/
def State.countUe (s : State) (quarter : Nat) : State :=
  let w := s.fb.work
  { s with
    mem := { s.mem with ueCount := satInc s.mem.ueCount }
    fb := { s.fb with work := { w with
      ueTotal := w.ueTotal + 1, ueStack := w.ueStack.set quarter (w.ueStack.getD quarter 0 + 1) } } }

/-- An uncorrectable or poisoned granule met by an access (Tables 6.8, 6.15, 6.16): a granule newly found bad is
poisoned and counted once; `source` is 0 for a stack, 1 for a Datum store, 2 for a peer get, whose granule is
another module's. -/
def State.memError (s : State) (nn g source : Nat) (newly : Bool) (e : Ev) : State :=
  let s := if newly then s.countUe (homeQuarter g) else s
  let s := { s with mem := { s.mem with
    poison := if newly then Tab.put s.mem.poison g source else s.mem.poison
    ue := true
    ueAddr := BitVec.ofNat 58 (g / 64)
    ueSource := BitVec.ofNat 2 source
    ueQuarter := BitVec.ofNat 2 (homeQuarter g) } }
  s.report { e with blk := .mem, nn := nn, quarter := some (homeQuarter g)
                    unit := if e.unit = .none ∧ source = 0 then .stack (homeQuarter g) else e.unit
                    detail := [g % 2 ^ 32, g / 2 ^ 32, source] }

/-- The first bad granule of a list: poisoned already, or reported uncorrectable by its store. -/
def State.badGranule (s : State) (ue : UeList) (gs : List Nat) : Option (Nat × Bool × Nat) :=
  match gs.find? fun g => s.poisoned g || ue.any fun u => u.1 == g with
  | none => none
  | some g =>
    match Tab.find? s.mem.poison g with
    | some src => some (g, false, src)
    | none => some (g, true, if ue.any (fun u => u.1 == g && u.2) then 1 else 0)

end Sys2Proof.Machine
end

