-- ==== Sys2Proof/Machine/PackBase.lean ====
section
/-!
DEFINITION. Machine/PackBase.lean: shape, member numbering, the time tree and the messages of a Pack (R514 to R518).
-/
namespace Sys2Proof.Machine

/-- X_d of the configured shape (PCK_CFG.SHAPE holds X_d − 1). -/
def Pck.dim (p : Pck) (d : Nat) : Nat := nfld p.shape.toNat (4 * d) 4 + 1
/-- PACK_SIZE as the shape gives it. -/
def Pck.size (p : Pck) : Nat := p.dim 0 * p.dim 1 * p.dim 2 * p.dim 3
/-- The stride of a dimension in the member number (R514). -/
def Pck.stride (p : Pck) : Nat → Nat
  | 0 => 1
  | d + 1 => p.stride d * p.dim d
/-- Coordinate d of a member. -/
def Pck.coord (p : Pck) (m d : Nat) : Nat := m / p.stride d % p.dim d
/-- The member with coordinate d of `m` replaced. -/
def Pck.withCoord (p : Pck) (m d x : Nat) : Nat := m - p.coord m d * p.stride d + x * p.stride d

/-- The neighbour at a port of a member, where the port is cabled (R515). -/
def Pck.neighbour (p : Pck) (m port : Nat) : Option Nat :=
  let d := port / 2
  let n := p.dim d
  if port ≥ 8 ∨ n < 2 then none
  else if port % 2 = 1 then some (p.withCoord m d ((p.coord m d + 1) % n))
  else some (p.withCoord m d ((p.coord m d + n - 1) % n))

/-- The port at the other end of a port's link. -/
def oppositePort (port : Nat) : Nat := if port % 2 = 1 then port - 1 else port + 1

/-- The port a member reaches its parent through, from the highest dimension with a non-zero coordinate (R518). -/
def Pck.parentPort (p : Pck) (m : Nat) : Option Nat :=
  ([3, 2, 1, 0].find? fun d => p.coord m d ≠ 0).map fun d => if p.coord m d ≤ p.dim d / 2 then 2 * d else 2 * d + 1

def Pck.parent (p : Pck) (m : Nat) : Option Nat := (p.parentPort m).bind (p.neighbour m)

/-- The links between a member and the master. -/
def Pck.depthOf (p : Pck) (m : Nat) : Nat :=
  ((List.range 4).map fun d => min (p.coord m d) (p.dim d - p.coord m d)).foldl (· + ·) 0

/-- The port is a child link: the neighbour's parent port is this link's other end. -/
def Pck.isChild (p : Pck) (m port : Nat) : Bool :=
  match p.neighbour m port with
  | some n => p.parentPort n == some (oppositePort port)
  | none => false

/-- ROLE of a port (Table 15.10). -/
def Pck.role (p : Pck) (m port : Nat) : Nat :=
  match p.neighbour m port with
  | none => 0
  | some _ => if p.parentPort m = some port then 1 else if p.isChild m port then 2 else 3

/-- The member number of this module. -/
def Pck.me (p : Pck) : Nat := p.member.toNat
def Pck.childPorts (p : Pck) : List Nat := (List.range 8).filter fun q => p.isChild p.me q
def Pck.cabledPorts (p : Pck) : List Nat := (List.range 8).filter fun q => (p.neighbour p.me q).isSome
/-- This module is member 0, the master. -/
def Pck.isMaster (p : Pck) : Bool := p.me == 0
/-- FORMING or FORMED. -/
def Pck.busy (p : Pck) : Bool := p.state == .forming || p.state == .formed

/-- A skew fault is present on any link, or syntonisation is lost (R528). -/
def Pck.skewFault (p : Pck) : Bool :=
  p.syntFault || (List.range 8).any fun q => (Tab.getD p.ports q {}).offFault || (Tab.getD p.ports q {}).rttFault

/-- A non-master of a FORMING or FORMED Pack follows its parent (Table 15.3). -/
def Pck.followsParent (p : Pck) : Bool := p.busy && !p.isMaster

/-- The port on which a message to another member leaves: the lowest dimension that differs, the shorter way, the +
direction where both are equal (R517). -/
def Pck.portTowards (p : Pck) (dest : Nat) : Option Nat :=
  ([0, 1, 2, 3].find? fun d => p.coord dest d ≠ p.coord p.me d).map fun d =>
    let delta := (p.coord dest d + p.dim d - p.coord p.me d) % p.dim d
    if delta ≤ p.dim d - delta then 2 * d + 1 else 2 * d

/-- The member a PEER offset away (Table 3.7). -/
def Pck.atOffset (p : Pck) (off : Nat) : Nat := (p.me + off) % p.size

/-! ### Virtual channels (R513, R517) -/

/-- The link of a port joins coordinate X_d − 1 to coordinate 0: the dateline of its dimension. -/
def Pck.dateline (p : Pck) (port : Nat) : Bool :=
  p.coord p.me (port / 2) == if port % 2 = 1 then p.dim (port / 2) - 1 else 0

/-- The channel a message takes on a port: the lower one of its pair, or the upper one on the dateline (Table 15.2). -/
def Pck.channel (p : Pck) (returns : Bool) (port : Nat) : Nat := (if returns then 2 else 0) + (if p.dateline port then 1 else 0)

/-- The channel of control messages (Table 15.2). -/
def controlChannel : Nat := 4

def PckPort.chan (x : PckPort) (vc : Nat) : LinkChan := Tab.getD x.chans vc {}
def PckPort.setChan (x : PckPort) (vc : Nat) (c : LinkChan) : PckPort := { x with chans := Tab.put x.chans vc c }

/-- A message may leave on a channel at once: a hop credit is in hand, none waits before it, and the link is not
retraining (R512, R513). -/
def PckPort.clear (x : PckPort) (vc : Nat) : Bool :=
  !x.retraining && decide (0 < (x.chan vc).credits) && (x.chan vc).waiting.isEmpty

/-- Send a message on a virtual channel of a link: it spends a hop credit of that channel alone, or waits behind that
channel's own messages (R513). -/
def State.sendLink (s : State) (port vc : Nat) (o : Out) : State :=
  let x := s.link port
  let c := x.chan vc
  if x.clear vc then (s.setLink port (x.setChan vc { c with credits := c.credits - 1 })).emit o
  else s.setLink port (x.setChan vc { c with waiting := c.waiting ++ [o] })

/-- The messages of one channel that its credits allow leave, oldest first. -/
def State.drainChan (port : Nat) (s : State) (vc : Nat) : State :=
  let x := s.link port
  let c := x.chan vc
  let n := min c.credits c.waiting.length
  if n = 0 then s
  else { s.setLink port (x.setChan vc { credits := c.credits - n, waiting := c.waiting.drop n }) with
    out := s.out ++ c.waiting.take n }

/-- Every channel of a link sends what its own credits allow: a full channel never blocks another (R513). -/
def State.drainLink (s : State) (port : Nat) : State :=
  if (s.link port).retraining then s else (List.range 5).foldl (State.drainChan port) s

/-- A channel takes back some of the credits it has spent. -/
def LinkChan.credited (c : LinkChan) (n : Nat) : LinkChan := { c with credits := min ({} : LinkChan).credits (c.credits + n) }

/-- Hop credits come back with a flit of the neighbour; how many of each channel is open (log 141). -/
def State.returnCredits (s : State) (port : Nat) : State :=
  let free (vc : Nat) : Nat := Config.freeNat s.freeCount / 8192 ^ vc % 8192
  State.drainLink (s.takeFree.modLink port fun x => { x with chans := Tab.mapVal (fun vc c => c.credited (free vc)) x.chans }) port

/-- Send a control message on a port. -/
def State.sendControl (s : State) (port : Nat) (m : LinkMsg) : State := s.sendLink port controlChannel (.link port m)

/-- Send a peer's message towards a member; to this member itself it crosses no link (R516). -/
def State.sendMember (s : State) (member : Nat) (returns : Bool) (o : Out) : State :=
  match s.pck.portTowards member with
  | some q => s.sendLink q (s.pck.channel returns q) o
  | none => s.emit o

/-- Send a message to the parent. -/
def State.toParent (s : State) (m : LinkMsg) : State :=
  match s.pck.parentPort s.pck.me with
  | some q => s.sendControl q m
  | none => s

/-- Send a message down every tree link. -/
def State.toChildren (s : State) (m : LinkMsg) : State := s.pck.childPorts.foldl (fun t q => t.sendControl q m) s

/-- Report a Pack code: PCK_STATUS.CODE takes its number (Table 15.9). -/
def State.pckReport (s : State) (nn : Nat) (u : UnitRef) (ctx frame : Option Nat) : State :=
  State.report { s with pck := { s.pck with code := BitVec.ofNat 8 nn } }
    { blk := .pck, nn := nn, unit := u, ctx := ctx, frame := frame, func := ctx.map fun c => (s.ctx c).func }

/-- Report a Pack failure, which PCK_FAIL_INFO names (R548). -/
def State.pckFail (s : State) (nn member port : Nat) (ctx frame : Option Nat) : State :=
  State.pckReport { s with pck := { s.pck with
      failCode := BitVec.ofNat 8 nn, failMember := BitVec.ofNat 11 member, failPort := BitVec.ofNat 3 port } }
    nn (if 8 ≤ nn ∧ nn ≠ 9 ∧ nn ≠ 10 ∧ nn ≠ 12 then .traverse port else .none) ctx frame

end Sys2Proof.Machine
end

