-- ==== Sys2Proof/Machine/OutRings.lean ====
section
/-!
DEFINITION. Machine/OutRings.lean: output rings (R492 to R499): placing an entry, publication, the writeback and the
ring's interrupt.
-/
namespace Sys2Proof.Machine

/-- Blocks of an entry with `len` payload bytes (R493). -/
def entryBlocks (len : Nat) : Nat := (16 + len + 63) / 64

/-- An entry's header and payload, padded to whole blocks (Table 14.4). -/
def entryBytes (ctx ring kind frame : Nat) (payload : List Byte) : List Byte :=
  padTo (64 * entryBlocks payload.length)
    (natLe 4 payload.length ++ natLe 2 ctx ++ natLe 1 ring ++ natLe 1 kind ++ natLe 8 frame ++ payload)

/-- A filler covering `blocks` blocks. -/
def fillerBytes (blocks : Nat) : List Byte :=
  entryBytes 0xFFFF 0 2 0 (List.replicate (blocks * 64 - 16) 0)

def Oq.size (o : Oq) : Nat := 2 ^ o.log2.toNat
/-- Free blocks, the indices taken modulo 2^32 (R494). -/
def Oq.free (o : Oq) : Nat := o.size - (o.pidx - o.cidx).toNat
/-- The bytes and blocks to write for an entry at the present producer index: a filler where the entry would wrap. -/
def Oq.layout (o : Oq) (pidx : Nat) (d : List Byte) : List (Nat × List Byte) × Nat :=
  let pos := pidx % o.size
  let left := o.size - pos
  let need := d.length / 64
  if left < need then ([(pos, fillerBytes left), (0, d)], left + need) else ([(pos, d)], need)

/-- The loss notice due before the next entry, where entries were dropped. -/
def Oq.noticeBytes (o : Oq) : List (List Byte) :=
  match o.notice with
  | none => []
  | some (e, n) => [entryBytes e.ctx e.ring 3 e.frame (natLe 4 n ++ List.replicate 12 0)]

/-- Everything an entry needs written now: a due notice, then the entry; and the blocks it takes. -/
def Oq.plan (o : Oq) (e : OqEntry) : List (Nat × List Byte) × Nat :=
  (o.noticeBytes ++ [entryBytes e.ctx e.ring e.kind e.frame e.payload]).foldl
    (fun (acc : List (Nat × List Byte) × Nat) d =>
      let l := o.layout (o.pidx.toNat + acc.2) d
      (acc.1 ++ l.1, acc.2 + l.2)) ([], 0)

/-- The entry fits the ring's free space, its notice and filler included. -/
def Oq.fits (o : Oq) (e : OqEntry) : Bool := (o.plan e).2 ≤ o.free

/-- The function that owns a context's slot: its requester class is CTX f (Table 18.4). -/
def State.ctxOwner (s : State) (c : Nat) : Nat := (s.slot (s.ctx c).slot.toNat).owner.toNat

/-- Write a piece of a ring: host memory, or device memory, whose pages every read cache then drops: a unit's COPY is
always fresh (Table 6.2, R265). -/
def State.ringWrite (s : State) (f : Nat) (host : Bool) (a : Nat) (d : List Byte) : State :=
  if host then s.hostWrite f a d else (s.writeDev a d).invalidate (pages a d.length)

/-- Send the ring's vector (R499). -/
def State.oqInterrupt (s : State) (f r : Nat) : State :=
  let o := s.oq f r
  (s.setOq f r { o with unsignalled := 0 }).msix f o.vec.toNat

/-- The COPY whose entry is published may complete. -/
def State.copyPublished (s : State) (copy : Option (Nat × Nat)) : State :=
  match copy with
  | none => s
  | some (c, tag) => s.modChan c fun x =>
      { x with started := x.started.map fun k => if k.tag = tag then { k with unpublished := false } else k }

/-- The COPY whose entry cannot be published fails with E-RTV-05: its entry may be written, the producer index is unchanged
(Tables 7.7 and 7.8). -/
def State.copyFails (s : State) (copy : Option (Nat × Nat)) : State :=
  match copy with
  | none => s
  | some (c, tag) => s.modChan c fun x =>
      { x with started := x.started.map fun k =>
          if k.tag = tag then { k with unpublished := false, fate := some (5, ⟨.mem, 3⟩, 0xFFFFFFFF) } else k }

/-- Write an entry that fits and publish it: PIDX, its writeback after the entries, and the interrupt (R495, R241). A
ring in device memory that the Cadastre denies is disabled with E-HST-03 (R623). A writeback to part of a poisoned granule
is not applied: E-MEM-03, and the COPY fails (R254). -/
def State.oqPlace (s : State) (f r : Nat) (e : OqEntry) : State :=
  let o := s.oq f r
  let plan := o.plan e
  let base := o.addr.toNat * 64
  let cls := 0x10 + s.ctxOwner e.ctx
  let denied := if o.host then none else plan.1.findSome? fun p => s.cadDenied cls (base + 64 * p.1) p.2.length true
  match denied with
  | some page =>
    let s := (s.setOq f r { o with disabled := true }).deny cls page true .reportOnly (some f) (some e.ctx) (some e.frame)
    (s.report { blk := .hst, nn := 3, func := some f, unit := .ring r, ctx := some e.ctx }).copyPublished e.copy
  | none =>
    let s := plan.1.foldl (fun t p => t.ringWrite f o.host (base + 64 * p.1) p.2) s
    let pidx := o.pidx + BitVec.ofNat 32 plan.2
    let o' := { o with pidx := pidx, notice := none, unsignalled := o.unsignalled + plan.2 }
    let wb := o.wbAddr.toNat * 8
    let wbDenied := if o.wbHost then none else s.cadDenied f wb 4 true
    match if o.wbHost ∨ wbDenied.isSome then none else s.badGranule [] (partGranules wb 4) with
    | some b =>
      (s.memError 3 b.1 b.2.2 b.2.1
        { blk := .mem, nn := 3, func := some f, ctx := some e.ctx, frame := some e.frame }).copyFails e.copy
    | none =>
      let s := s.setOq f r o'
      let s := match wbDenied with
        | some page =>
          let s := (s.setOq f r { o' with disabled := true }).deny f page true .reportOnly (some f) none none
          s.report { blk := .hst, nn := 3, func := some f, unit := .ring r }
        | none => s.ringWrite f o.wbHost wb (natLe 4 pidx.toNat)
      let s := s.copyPublished e.copy
      if o.en && (o.coalUs = 0 || o.count.toNat ≤ o'.unsignalled) then s.oqInterrupt f r else s

/-- An entry reaches an output ring: placed, kept waiting, or dropped for a lossy context (R494). -/
def State.oqPush (s : State) (f r : Nat) (lossy : Bool) (e : OqEntry) : State :=
  let o := s.oq f r
  if o.disabled then s.copyPublished e.copy
  else if o.waiting.isEmpty && o.fits e then s.oqPlace f r e
  else if lossy then
    let notice := match o.notice with | none => some (e, 1) | some (a, n) => some (a, n + 1)
    let s := s.setOq f r { o with drops := o.drops + 1, notice := notice }
    let s := s.modFn f fun g => { g with hst := { g.hst with dropsSeen := true } }
    (s.copyPublished e.copy).report
      { blk := .hst, nn := 5, func := some f, unit := .ring r, ctx := some e.ctx, frame := some e.frame }
  else s.setOq f r { o with waiting := o.waiting ++ [e] }

/-- Place the waiting entries that fit, oldest first. -/
def State.oqDrain (s : State) (f r : Nat) : Nat → State
  | 0 => s
  | n + 1 =>
    let o := s.oq f r
    match o.waiting with
    | [] => s
    | e :: rest => if o.fits e then State.oqDrain ((s.setOq f r { o with waiting := rest }).oqPlace f r e) f r n else s

end Sys2Proof.Machine
end

