-- ==== Sys2Proof/Machine/Streams.lean ====
section
/-!
DEFINITION. Machine/Streams.lean: the units of a Pholan stream and the geometry of its tiles, as byte strings and numbers
(R394 to R405, R415).
-/
namespace Sys2Proof.Machine

/-! ### Layers and tiles (R399) -/

def ceilDiv (a b : Nat) : Nat := (a + b - 1) / b

/-- TW and TH of R399. -/
def layerCols (l : Layer) : Nat := ceilDiv l.latW 16
def layerRows (l : Layer) : Nat := ceilDiv l.latH 16
def layerTiles (l : Layer) : Nat := layerCols l * layerRows l

/-- TILE_W and TILE_H of a layer's local tile (R399). -/
def tileWidth (l : Layer) (j : Nat) : Nat := min 16 (l.latW - 16 * (j % layerCols l))
def tileHeight (l : Layer) (j : Nat) : Nat := min 16 (l.latH - 16 * (j / layerCols l))
/-- *n*: the values of a tile, every channel of the layer counted. -/
def tileSymbols (l : Layer) (j : Nat) : Nat := l.channels * tileWidth l j * tileHeight l j

/-- The tiles of a frame in global order, each with its layer and its local number. -/
def globalTiles (ls : List Layer) : List (Layer × Nat) := ls.flatMap fun l => (List.range (layerTiles l)).map fun j => (l, j)

/-! ### What the fields of a header admit (Tables 11.3 to 11.5) -/

def layerOk (l : Layer) : Bool :=
  decide (1 ≤ l.channels ∧ l.channels ≤ 256 ∧ 1 ≤ l.latW ∧ l.latW ≤ 1024 ∧ 1 ≤ l.latH ∧ l.latH ≤ 1024 ∧ l.tableSet < 65536) &&
  (if l.mixture then
    decide (1 ≤ l.mixN ∧ l.mixN ≤ 256 ∧ 1 ≤ l.mixK ∧ l.mixK ≤ 4 ∧ -32768 ≤ l.mixOffset ∧ l.mixN + l.mixOffset - 1 ≤ 32767)
  else decide (l.mixN = 0 ∧ l.mixOffset = 0 ∧ l.mixK = 0))

def mediaOk : Media → Bool
  | .video w h num den _ =>
    decide (64 ≤ w ∧ w ≤ 4096 ∧ w % 2 = 0 ∧ 64 ≤ h ∧ h ≤ 2304 ∧ h % 2 = 0 ∧ 1 ≤ den ∧ den ≤ num ∧ num ≤ 60 * den ∧
      num < 65536 ∧ den < 65536)
  | .audio c => decide (c = 1 ∨ c = 2)

/-- Bytes of a frame's reconstructed output (R403). -/
def reconLen : Media → Nat
  | .video w h _ _ ten => (w * h + 2 * (w / 2 * (h / 2))) * (if ten then 2 else 1)
  | .audio c => 960 * c * 2

/-- A coded tile keeps Table 11.7 and R402: LENGTH is not 0, and an escape tile has 8 + 2n bytes. -/
def codedOk (t : CodedTile) (n : Nat) : Bool :=
  decide (0 < t.data.length ∧ t.check < 65536) && (!t.escape || t.data.length == 8 + 2 * n)

/-- What a commit is given keeps the tables of chapter 11 for a profile (Table 11.9: Audio has audio media and mixture
layers, Closed and Field video). -/
def partsOk (profile : Nat) (p : StreamParts) : Bool :=
  let ts := globalTiles p.layers
  decide (1 ≤ p.layers.length ∧ p.layers.length ≤ 4 ∧ 1 ≤ p.intraMax ∧ p.intraMax ≤ 64 ∧ p.digest.length = 32) &&
  p.layers.all layerOk && decide ((p.layers.filter fun l => l.dither).length ≤ 1) && mediaOk p.media &&
  (match p.media with
    | .video _ _ _ _ _ => profile == 1 || profile == 2
    | .audio _ => profile == 3 && p.layers.all fun l => l.mixture) &&
  decide (p.tiles.length = ts.length) && ((List.zip p.tiles ts).all fun x => codedOk x.1 (tileSymbols x.2.1 x.2.2)) &&
  decide (p.recon.length = reconLen p.media)

/-! ### Units (R395) -/

/-- A unit (Table 11.1): the unit header, then the payload and its padding, over which UNIT_CRC is taken. -/
def streamUnit (type : Nat) (body : List Byte) : List Byte :=
  let body := padTo (alignUp 4 body.length) body
  natLe 4 0x4E4C4850 ++ natLe 1 type ++ natLe 3 0 ++ natLe 4 (16 + body.length) ++ natLe 4 (crc32c body) ++ body

/-- A layer descriptor's 16 bytes (Table 11.5). -/
def layerBytes (l : Layer) : List Byte :=
  natLe 2 l.channels ++ natLe 2 l.latW ++ natLe 2 l.latH ++ natLe 1 (bitAt 0 l.mixture) ++ natLe 1 (bitAt 0 l.dither) ++
  natLe 2 l.tableSet ++ natLe 2 l.mixN ++ natLe 2 (l.mixOffset % 65536).toNat ++ natLe 1 l.mixK ++ natLe 1 0

/-- MEDIA (Table 11.4). -/
def mediaBytes : Media → List Byte
  | .video w h num den ten =>
    natLe 2 w ++ natLe 2 h ++ natLe 2 num ++ natLe 2 den ++ natLe 1 (if ten then 10 else 8) ++ natLe 1 1 ++ natLe 6 0
  | .audio c => natLe 4 48000 ++ natLe 2 960 ++ natLe 1 c ++ natLe 9 0

/-- The stream header unit (R397): `seed` of the context, signature, number and arrival of the first frame unit. -/
def headerUnit (profile : Nat) (p : StreamParts) (seed numsig no arrival : Nat) : List Byte :=
  streamUnit 1 (natLe 1 1 ++ natLe 1 0 ++ natLe 1 profile ++ natLe 1 p.layers.length ++ natLe 1 p.intraMax ++ natLe 3 0 ++
    p.digest.take 8 ++ p.digest ++ natLe 8 seed ++ natLe 8 numsig ++ natLe 8 no ++ natLe 8 arrival ++ mediaBytes p.media ++
    natLe 4 p.sourceId ++ natLe 12 0 ++ p.layers.flatMap layerBytes)

/-- RECON_CHECK (R403). -/
def reconCheck (p : StreamParts) : Nat := crc32c p.recon

/-- A tile index entry (Table 11.7). -/
def indexEntry (t : CodedTile) : List Byte :=
  natLe 4 t.data.length ++ natLe 2 t.check ++ natLe 1 (bitAt 0 t.escape) ++ natLe 1 (bitAt 0 t.nanFallback)

/-- A frame unit (R401, R402). -/
def frameUnit (p : StreamParts) (no numsig arrival : Nat) (inputLoss sigChange : Bool) : List Byte :=
  let data := p.tiles.flatMap fun t => t.data
  streamUnit 2 (natLe 8 no ++ natLe 1 (if p.intra then 1 else 2) ++ natLe 1 (bitAt 0 inputLoss + bitAt 1 sigChange) ++
    natLe 2 p.tiles.length ++ natLe 4 (reconCheck p) ++ natLe 8 numsig ++ natLe 8 arrival ++ natLe 4 data.length ++ natLe 4 0 ++
    (p.tiles.flatMap indexEntry) ++ data)

/-- The lost-frame marker (R404) and the end unit (R405). -/
def lostMarker (no code arrival : Nat) : List Byte :=
  streamUnit 3 (natLe 8 no ++ natLe 1 code ++ natLe 7 0 ++ natLe 8 arrival)
def endUnit (units last : Nat) : List Byte := streamUnit 4 (natLe 8 units ++ natLe 8 last)

end Sys2Proof.Machine
end

