-- ==== Sys2Proof/Machine/Frames.lean ====
section
/-!
DEFINITION. Machine/Frames.lean: what several families do to contexts, frames and cores: the records of committed and
lost frames, cancellation, restart, the end of an instance, fences, and the end of a Pack job (chapters 8, 15).
-/
namespace Sys2Proof.Machine

/-! ### Images and templates -/

/-- The image of a slot with a given number: its current or its retained one. -/
def State.imageOf (s : State) (slot gen : Nat) : Option Loaded :=
  let x := s.slot slot
  match x.current with
  | some l => if l.gen = gen then some l else match x.retained with
    | some r => if r.gen = gen then some r else none
    | none => none
  | none => match x.retained with
    | some r => if r.gen = gen then some r else none
    | none => none

/-- The image a context runs on, and its template's record there. -/
def State.ctxImage (s : State) (c : Nat) : Option Image :=
  (s.imageOf (s.ctx c).slot.toNat (s.ctx c).gen).map fun l => l.image
def State.ctxTmpl (s : State) (c : Nat) : Option TmplRec :=
  (s.ctxImage c).bind fun i => i.tmpls[(s.ctx c).tmpl]?
def Image.numOf (i : Image) (t : Nat) : Option NumRec := i.nums.find? fun n => n.template == t
/-- Lossy output rings (Table 3.10, FLAGS bit 0). -/
def State.ctxLossy (s : State) (c : Nat) : Bool := (s.ctxTmpl c).any fun t => t.lossy

/-- A Whistle has released the frame. -/
def Frame.whistled (f : Frame) : Bool :=
  match f.whistle with
  | some (.scheduled _) | some .released => true
  | _ => false

/-- The dispatched frame of a context: the oldest held one, while it runs. -/
def Ctx.running (x : Ctx) : Option (Frame × FrameRun) :=
  match x.held with
  | f :: _ => f.run.map fun r => (f, r)
  | [] => none

/-- Change the oldest held frame. -/
def Ctx.modHead (x : Ctx) (g : Frame → Frame) : Ctx :=
  { x with held := match x.held with | f :: r => g f :: r | [] => [] }
def State.modHead (s : State) (c : Nat) (g : Frame → Frame) : State := s.modCtx c fun x => x.modHead g
def State.modRun (s : State) (c : Nat) (g : FrameRun → FrameRun) : State :=
  s.modHead c fun f => { f with run := f.run.map g }
/-- A unit of a context's running frame. -/
def State.unitRun (s : State) (c u : Nat) : Option UnitRun :=
  (s.ctx c).running.bind fun r => r.2.units.find? fun x => x.unit == u
def State.modUnit (s : State) (c u : Nat) (g : UnitRun → UnitRun) : State :=
  s.modRun c fun r => { r with units := r.units.map fun x => if x.unit = u then g x else x }

/-- A core holds a unit of some uncommitted frame (R277, R302). -/
def State.coreBusy (s : State) (core : Nat) : Bool :=
  s.hrd.ctxs.any fun p => match p.2.running with
    | some r => r.2.units.any fun u => u.kind == 0 && u.place == core && !u.ended
    | none => false

/-! ### Which unit a core issues from (R140, R301) -/

/-- A resident unit that could issue: its deadline, times passed over, context and unit. -/
structure Ready where
  deadline : Nat
  passes : Nat
  ctx : Nat
  unit : Nat
deriving DecidableEq, Repr

/-- The core units on a core that neither wait nor have ended. -/
def State.readyOn (s : State) (core : Nat) : List Ready :=
  s.hrd.ctxs.flatMap fun p =>
    match p.2.running with
    | none => []
    | some (f, r) =>
      if r.cancelling then []
      else (r.units.filter fun u => u.kind == 0 && u.place == core && !u.ended && u.blocked.isNone).map fun u =>
        { deadline := f.deadline.toNat, passes := u.passes, ctx := p.1, unit := u.unit }

/-- The earliest deadline of a list, the first of equals. -/
def earliest : List Ready → Option Ready
  | [] => none
  | x :: r =>
    match earliest r with
    | some y => if y.deadline < x.deadline then some y else some x
    | none => some x

/-- The choice among ready units: one passed over in 16 decisions first, else the earliest deadline (R301). -/
def chooseReady (rs : List Ready) : Option Ready :=
  match earliest (rs.filter fun x => 16 ≤ x.passes) with
  | some x => some x
  | none => earliest rs

/-- The unit a core issues from goes on while its unit is resident and waits for no route or tally (R140). -/
def State.keepsIssuing (s : State) (core : Nat) : Bool :=
  match (s.core core).issuing with
  | none => false
  | some (c, u) =>
    match (s.ctx c).running with
    | none => false
    | some (_, r) => !r.cancelling && r.units.any fun x =>
        x.unit == u && x.kind == 0 && x.place == core && !x.ended &&
        (match x.blocked with | none => true | some (.load _ _ _) => true | _ => false)

/-- Let a core decide which unit it issues from, where its present one cannot go on. -/
def State.schedule (s : State) (core : Nat) : State :=
  if s.keepsIssuing core then s
  else
    match chooseReady (s.readyOn core) with
    | none => if (s.core core).issuing.isNone then s else s.modCore core fun x => { x with issuing := none }
    | some x =>
      let s := (s.readyOn core).foldl (fun t y => t.modUnit y.ctx y.unit fun u =>
        { u with passes := if y.ctx = x.ctx ∧ y.unit = x.unit then 0 else u.passes + 1 }) s
      s.modCore core fun k => { k with issuing := some (x.ctx, x.unit) }

/-- Several cores decide. -/
def State.scheduleAll (s : State) (cores : List Nat) : State := cores.foldl (fun t k => t.schedule k) s

/-- The cores that hold a run's core units. -/
def FrameRun.onCores (r : FrameRun) : List Nat := (r.units.filter fun u => u.kind == 0).map fun u => u.place

/-! ### Frame records and the stream output -/

/-- FLAGS of a frame record (Table 8.1). -/
def recordFlags (late lost restarted moved pinBroken : Bool) : Nat :=
  bitAt 0 late + bitAt 1 lost + bitAt 2 restarted + bitAt 3 moved + bitAt 4 pinBroken

/-- The frame record (Table 8.1). -/
def recordBytes (no arrival commit ctx k flags restarts code : Nat) : List Byte :=
  natLe 8 no ++ natLe 8 arrival ++ natLe 8 commit ++ natLe 2 ctx ++ natLe 1 k ++ natLe 1 flags ++ natLe 1 restarts ++
  natLe 1 code ++ natLe 2 0

/-- A function's copy of HRD_CTX_STATUS of a context (R324). -/
def State.ctxStat (s : State) (fn c : Nat) : CtxStat := Tab.getD (s.fn fn).hrd.stats c {}
def State.modStat (s : State) (fn c : Nat) (g : CtxStat → CtxStat) : State :=
  s.modFn fn fun x => { x with hrd := { x.hrd with stats := Tab.put x.hrd.stats c (g (Tab.getD x.hrd.stats c {})) } }

/-- Append a frame record: HRD_CTX_STATUS of the context's function shows it, and it is the last entry of the frame in
ring 0 where the template writes rings and ring 0 is bound (R297, R497). -/
def State.putRecord (s : State) (c : Nat) (f : Frame) (k flags code : Nat) : State :=
  let s := s.modCtx c fun x => { x with lastFrame := some f.no }
  let s := s.modStat (s.ctx c).func c fun x => { x with lastK := k, lastFlags := flags, frameNo := BitVec.ofNat 32 f.no }
  let d := recordBytes f.no f.arrival.toNat s.epoch.toNat c k flags f.restarts code
  match s.ctxTmpl c, (s.ctx c).rings.head? with
  | some t, some (some r) =>
    if t.rings = 0 then s else s.oqPush (s.ctx c).func r t.lossy
      { ctx := c, ring := 0, kind := 1, frame := f.no, payload := d, copy := none }
  | _, _ => s

/-- STREAM profile of a context's template: 0 none, else as Table 11.9. -/
def State.ctxProfile (s : State) (c : Nat) : Nat := (s.ctxTmpl c).elim 0 fun t => t.profile

/-- Append a unit to a context's stream. -/
def State.putUnit (s : State) (c : Nat) (unit : List Byte) (g : StreamOut → StreamOut) : State :=
  (s.modCtx c fun x => { x with stream := g x.stream }).emit (.streamUnit c unit)

/-- A lost frame's marker takes its place, unless the stream has no frame unit yet (R404). -/
def State.putMarker (s : State) (c : Nat) (m : Nat × Nat × DWord) : State :=
  if (s.ctx c).stream.started then
    s.putUnit c (lostMarker m.1 m.2.1 m.2.2.toNat) fun x => { x with units := x.units + 1, lastFrame := some m.1 }
  else s

/-- Markers whose place has come: those of frames before every held one, or all at the end of the context. -/
def State.flushMarkers (s : State) (c : Nat) (all : Bool) : State :=
  let x := s.ctx c
  let due := x.stream.waiting.filter fun m => all || x.held.all fun f => decide (m.1 < f.no)
  if due.isEmpty then s
  else
    due.foldl (fun t m => t.putMarker c m)
      (s.modCtx c fun y => { y with stream := { y.stream with waiting := y.stream.waiting.filter fun m => !due.contains m } })

/-- A number put in its place in a rising list. -/
def insertMarker (m : Nat × Nat × DWord) : List (Nat × Nat × DWord) → List (Nat × Nat × DWord)
  | [] => [m]
  | x :: r => if m.1 ≤ x.1 then m :: x :: r else x :: insertMarker m r

/-- A frame of a stream-profile context is lost: its marker goes where the frame unit would have stood (R404). -/
def State.loseUnit (s : State) (c : Nat) (f : Frame) (code : Nat) : State :=
  if s.ctxProfile c = 0 then s
  else
    (s.modCtx c fun x => { x with stream := { x.stream with
      waiting := insertMarker (f.no, code, f.arrival) x.stream.waiting } }).flushMarkers c false

/-- The frame unit of a committed frame, behind the header where it is the stream's first (R394, R397, R401, R408). -/
def State.putFrameUnit (s : State) (c : Nat) (f : Frame) (p : StreamParts) : State :=
  let profile := s.ctxProfile c
  if profile = 0 then s
  else
    let x := s.ctx c
    let sig : DWord := if profile = 2 then f.firstSig else 0
    let s := if x.stream.started then s
      else s.putUnit c (headerUnit profile p x.seed.toNat sig.toNat f.no f.arrival.toNat) fun y =>
        { y with started := true, startFrame := f.no, startEpoch := f.arrival }
    s.putUnit c (frameUnit p f.no sig.toNat f.arrival.toNat f.inputLoss (x.stream.started && x.stream.lastSig != sig)) fun y =>
      { y with units := y.units + 1, lastFrame := some f.no, lastSig := sig }

/-- The end unit of a stream (R405): a stream without a frame unit has none. -/
def State.putEnd (s : State) (c : Nat) : State :=
  let s := s.flushMarkers c true
  let x := (s.ctx c).stream
  if x.started && !x.ended then
    s.putUnit c (endUnit x.units (x.lastFrame.getD 0)) fun y => { y with ended := true }
  else s

/-! ### Cancellation -/

def Issuer.ofFrame (i : Issuer) (c no : Nat) : Bool :=
  match i with
  | .unit x f _ => x == c && f == no
  | .driver _ => false

/-- A started put that ends without its peer's report still reports to its peer, which counts no tally for it (R279). -/
def State.tellPeer (s : State) (k : Cmd) : State :=
  match k.waitPeer, k.peerAt with
  | true, some (m, job, a) => s.sendMember m false (.peerPutCancel m job a)
  | _, _ => s

/-- Remove the started commands of a frame's unit queues from every channel and engine, which frees their tags; none
increments a tally (R279). -/
def State.dropCommands (s : State) (c no : Nat) : State :=
  let puts := s.rtv.chans.flatMap fun p => p.2.started.filter fun k => k.issuer.ofFrame c no
  let s := puts.foldl (fun t k => t.tellPeer k) s
  { s with
    rtv := { s.rtv with chans := Tab.mapVal (fun _ x =>
      { x with started := x.started.filter fun k => !k.issuer.ofFrame c no }) s.rtv.chans }
    ec := { s.ec with engines := Tab.mapVal (fun _ e =>
      { e with started := e.started.filter fun k => !(k.ctx == c && k.frame == no) }) s.ec.engines } }

/-- The table key of a unit's queue: a Retriever channel, or 64 on for the units of a dictionary engine. -/
def UnitRun.chanKey (u : UnitRun) : Nat := if u.kind = 2 then 64 + u.place else u.place
/-- UNIT and QUARTER of a channel key in an error record. -/
def chanUnit (ch : Nat) : UnitRef := if ch < 64 then .channel ch else .dict (ch - 64)
def chanQuarter (ch : Nat) : Nat := if ch < 64 then ch / 16 else (ch - 64) / 2

/-- The Retriever and dictionary commands of a running frame, started before queued: channel key, TAG_ID and opcode. -/
def State.frameCommands (s : State) (c : Nat) : List (Nat × Nat × Nat) :=
  match (s.ctx c).running with
  | none => []
  | some (f, r) =>
    (s.rtv.chans.flatMap fun p => (p.2.started.filter fun k => k.issuer.ofFrame c f.no).map fun k =>
      (p.1, k.desc.tagId.toNat, k.desc.opcode.toNat)) ++
    ((r.units.filter fun u => u.kind == 2 || u.kind == 3).flatMap fun u => u.queue.map fun d =>
      (u.chanKey, leAt d 0x1C 4, leAt d 0 1))

/-- E-RTV-12 of a cancelled unit-issued command, and LAST_ERR of its channel (R279, R721). -/
def State.reportCancelled (s : State) (c no : Nat) (x : Nat × Nat × Nat) : State :=
  (s.modChan x.1 fun k => { k with lastErr := 12 }).report
    { blk := .rtv, nn := 12, cls := some .frameContained, func := some (s.ctx c).func, quarter := some (chanQuarter x.1)
      unit := chanUnit x.1, ctx := some c, frame := some no, detail := [x.2.1, 0xFFFFFFFF, x.2.2] }

/-- A waiting output entry of a cancelled COPY is never published (R501). -/
def State.dropEntries (s : State) (c no : Nat) : State :=
  { s with fns := Tab.mapVal (fun _ g => { g with hst := { g.hst with oqs := Tab.mapVal (fun _ o =>
      { o with waiting := o.waiting.filter fun e => !(e.ctx == c && e.frame == no && e.kind == 0) }) g.hst.oqs } }) s.fns }

/-- A route with every Leash at its sender and nothing in flight, occupied or returning. -/
def Route.quiesced (r : Route) : Route :=
  { r with
    leash := r.cap, flight := [], occ := [], back := 0, readCnt := 0, heldFrees := 0, waitSend := none, waitRead := false
    nextArrive := if r.crossesLink then r.nextArrive else r.nextSeq }
def Route.quiescent (r : Route) : Bool := r.leash == r.cap && r.flight.isEmpty && r.occ.isEmpty && r.back == 0

/-- Change every route of a context. -/
def State.mapRoutes (s : State) (c : Nat) (g : Route → Route) : State :=
  { s with fab := { s.fab with routes := Tab.mapVal (fun _ r => if r.ctx = c then g r else r) s.fab.routes } }

/-- Discard the messages of a context's routes and return their Leashes. -/
def State.quiesceRoutes (s : State) (c : Nat) : State := s.mapRoutes c Route.quiesced

/-- Cancel the commands of a context's running frame (R279): queued ones never start, started ones stop, waiting entries
go, and no unit sends or reads any more. With `record`, each Retriever command reports E-RTV-12. -/
def State.cancelRun (s : State) (c : Nat) (record : Bool) : State :=
  match (s.ctx c).running with
  | none => s
  | some (f, _) =>
    let cmds := s.frameCommands c
    let s := ((s.dropCommands c f.no).dropEntries c f.no).mapRoutes c fun r => { r with waitSend := none, waitRead := false }
    let s := s.modRun c fun r => { r with units := r.units.map fun u => { u with queue := [], blocked := none } }
    if record then cmds.foldl (fun t x => t.reportCancelled c f.no x) s else s

/-- Stop a context's running frame: its commands are cancelled and its units leave their cores. -/
def State.stopRun (s : State) (c : Nat) (record : Bool) : State :=
  match (s.ctx c).running with
  | none => s
  | some (_, r) => ((s.cancelRun c record).modHead c fun f => { f with run := none }).scheduleAll r.onCores

/-! ### Audits (R61 to R66, R76): what starts one, and what waits -/

/-- The context's current frame: dispatched, and neither committed nor lost. -/
def Ctx.current? (x : Ctx) : Option Frame := x.held.head?.filter fun f => f.firstGen.isSome

/-- An instance has ended: its context is ENDING and none of its frames runs any more (R292). -/
def Ctx.over (x : Ctx) : Bool := x.st == .ending && x.current?.isNone

/-- The quarter of a route ID (R85). -/
def routeQuarter (rid : Nat) : Nat := rid / 1024

/-- Every audit of a route begins with its freeze (R61). -/
def State.startAudit (s : State) (q rid : Nat) (driver : Bool) : State :=
  match s.route? rid with
  | none => s
  | some x =>
    (s.setRoute rid { x with frozen := true, reclaimAudit := false }).modQuarter q fun k =>
      { k with audit := some { route := rid, driver := driver } }

/-- A route waits for an audit of its own: that after a fence, or that at the end of its instance (R62). -/
def State.auditDue (s : State) (x : Route) : Bool :=
  !x.reclaiming && (x.reclaimAudit || (!x.endAudited && (s.ctx x.ctx).over))

/-- The next audit that waits in a quarter: one that is due, then the driver's (R62, R63). -/
def State.nextAudit (s : State) (q : Nat) : State :=
  let k := s.quarter q
  if k.audit.isSome then s
  else
    match Tab.keysWhere (fun rid x => routeQuarter rid == q && s.auditDue x) s.fab.routes with
    | rid :: _ => s.startAudit q rid false
    | [] =>
      if !k.driverBusy then s
      else
        match s.route? k.reqRoute.toNat with
        | none => s.modQuarter q fun y => { y with driverBusy := false, resRoute := k.reqRoute, resCode := 3, resSum := 0 }
        | some x => if x.reclaiming then s else s.startAudit q k.reqRoute.toNat true

/-- Every idle audit engine takes up an audit that waits. -/
def State.kickAudits (s : State) : State := [0, 1, 2, 3].foldl (fun t q => t.nextAudit q) s

/-- End an audit without a verdict (R76): a driver-requested one answers 3. -/
def State.abandonAudit (s : State) (q : Nat) : State :=
  match (s.quarter q).audit with
  | none => s
  | some a => s.modQuarter q fun x =>
    if a.driver then
      { x with audit := none, driverBusy := false, resRoute := BitVec.ofNat 12 a.route, resCode := 3, resSum := 0 }
    else { x with audit := none }

/-- Abandon the audits of routes that meet a test. -/
def State.abandonAudits (s : State) (p : Nat → Bool) : State :=
  [0, 1, 2, 3].foldl (fun t q => if (t.quarter q).audit.any fun a => p a.route then t.abandonAudit q else t) s

/-! ### Lost frames -/

/-- Mark a held frame lost (R296): its run stops, a record and a marker carry its loss code, its number is used up. -/
def State.loseOne (s : State) (c no code : Nat) : State :=
  match (s.ctx c).held.find? fun f => f.no == no with
  | none => s
  | some f =>
    let s := if (s.ctx c).held.head?.any (fun h => h.no == no) then s.stopRun c false else s
    let k := f.run.elim (if f.firstGen.isNone then 0 else (s.ctx c).lastPlaceK) fun r => r.k
    let s := s.modCtx c fun x => { x with
      held := x.held.filter fun h => h.no ≠ no
      prevCores := if f.firstGen.isSome then some x.cores else x.prevCores }
    let s := { s with hrd := { s.hrd with lostCount := satInc s.hrd.lostCount } }
    let s := s.loseUnit c f code
    s.putRecord c f k (recordFlags false true (f.restarts ≠ 0) f.moved f.pinBroken) code

/-- A frame that is lost without ever being held: record and marker only. -/
def State.loseUnheld (s : State) (c : Nat) (f : Frame) (code : Nat) : State :=
  let s := { s with hrd := { s.hrd with lostCount := satInc s.hrd.lostCount } }
  (s.loseUnit c f code).putRecord c f 0 (recordFlags false true false false false) code

/-- Mark every uncommitted frame of a context lost with one code, those still on their way to the Herder included. A frame
that its source has already called lost keeps its own code. -/
def State.loseAll (s : State) (c code : Nat) : State :=
  let s := ((s.ctx c).held.map fun f => f.no).foldl (fun t no => t.loseOne c no code) s
  let s := (s.ctx c).arriving.foldl (fun t x => t.loseUnheld c x.frame (x.lost.getD code)) s
  s.modCtx c fun x => { x with arriving := [] }

/-- A frame as its source supplies it. -/
def Frame.fresh (no : Nat) (arrival deadline : DWord) (input inputLen : Nat) (inputLoss concealed : Bool) : Frame :=
  { no := no, arrival := arrival, deadline := deadline, input := input, inputLen := inputLen, inputLoss := inputLoss,
    concealed := concealed, restarts := 0, passes := 0, run := none, firstGen := none, firstSig := 0, firstTier := 0,
    whistle := none, moved := false, pinBroken := false }

/-- Report an E-HRD code of a context; HRD_CTX_STATUS.CODE of its function takes its number (Table 8.7). -/
def State.hrdReport (s : State) (c nn : Nat) (frame : Option Nat) : State :=
  (s.modStat (s.ctx c).func c fun x => { x with code := BitVec.ofNat 8 nn }).report
    { blk := .hrd, nn := nn, func := some (s.ctx c).func, ctx := some c, frame := frame }

/-! ### Instances and Pack jobs -/

/-- Begin the end of a context: no frame of it dispatches any more, and once none runs its routes are audited (R62, R292). -/
def State.beginEnd (s : State) (c : Nat) : State :=
  (s.modCtx c fun x => if x.st = .free then x else { x with st := .ending }).kickAudits

/-- End an instance at once, its uncommitted frames marked lost with a code (R66, R107). -/
def State.endInstance (s : State) (c code : Nat) : State := (s.loseAll c code).beginEnd c

/-- End an instance with no record of its uncommitted frames (R292 OP 3, R134). -/
def State.endSilently (s : State) (c : Nat) : State :=
  let s := (s.stopRun c false).modCtx c fun x => { x with held := [], arriving := [] }
  (s.flushMarkers c true).beginEnd c

/-- The valid job whose binding names a context (R534). -/
def State.jobOfCtx (s : State) (c : Nat) : Option Nat :=
  (List.find? (fun p => p.2.valid && p.2.ctx.toNat == c) s.pck.jobs).map Prod.fst

/-- The peer puts a frame has started: they fail with E-RTV-06 at an abort (R541). -/
def State.failPuts (s : State) (c : Nat) : State :=
  match (s.ctx c).running with
  | none => s
  | some (f, _) =>
    (Tab.keysWhere (fun _ x => x.started.any fun k => k.issuer.ofFrame c f.no && k.desc.opcode == 6) s.rtv.chans).foldl
      (fun t ch => t.report {
        blk := .rtv, nn := 6, cls := some .frameContained, func := some (s.ctx c).func, quarter := some (ch / 16), unit := .channel ch, ctx := some c, frame := some f.no }) s

/-- What each member does on an abort (R541): its context's frames are lost with the abort's code, the context ends and
the binding becomes invalid. -/
def State.abortJob (s : State) (j : Nat) (e : Err) : State :=
  let x := s.job j
  let s := (s.failPuts x.ctx.toNat).endInstance x.ctx.toNat e.lossCode
  let s := s.setJob j { x with
    valid := false, ended := true, running := false, code := BitVec.ofNat 8 e.nn, barrier := none, failSent := none }
  { s with pck := { s.pck with aborts := satInc s.pck.aborts } }

/-- The end of a released frame of a Pack job (R542): the master aborts at once, another member sends FAIL. -/
def State.packLoss (s : State) (c no code : Nat) : State :=
  match s.jobOfCtx c with
  | none => s
  | some j =>
    if s.pck.isMaster then
      let s := s.hrdReport c 11 (some no)
      let s := s.toChildren (.abort j no 11)
      s.abortJob j ⟨.hrd, 11⟩
    else
      let s := s.toParent (.fail j no code)
      s.modJob j fun x => { x with failSent := some s.now }

/-- Mark a frame of a context lost, with the Pack's consequence where a Whistle had released it. The routes of a frame that
was dispatched are cleared for the next one; where the context was only to end after the frame, its end begins. -/
def State.loseFrame (s : State) (c no code : Nat) : State :=
  let released := (s.ctx c).held.any fun f => f.no == no && f.whistled
  let ran := (s.ctx c).current?.any fun f => f.no == no
  let s := s.loseOne c no code
  let s := if ran then s.quiesceRoutes c else s
  let s := if ran && (s.ctx c).endAfter then (s.putEnd c).endSilently c else s
  if released then s.packLoss c no code else s

/-- Report a frame-contained code of a unit's own frame and mark the frame lost, without restart (R179). -/
def State.faultFrame (s : State) (c : Nat) (e : Ev) (root : Err) : State :=
  match (s.ctx c).running with
  | none => s
  | some (f, _) => (s.report { e with func := some (s.ctx c).func, ctx := some c, frame := some f.no }).loseFrame c f.no root.lossCode

/-- Cancel a frame's run for a restart (R309, R310): a third cancellation marks it lost with E-HRD-06. -/
def State.restartFrame (s : State) (c : Nat) : State :=
  match (s.ctx c).running with
  | none => s
  | some (f, _) =>
    let s := (s.stopRun c true).quiesceRoutes c
    if f.restarts ≥ 2 then
      (s.hrdReport c 6 (some f.no)).loseFrame c f.no (Err.lossCode ⟨.hrd, 6⟩)
    else
      let s := s.modHead c fun f => { f with restarts := f.restarts + 1 }
      { s with hrd := { s.hrd with restartCount := satInc s.hrd.restartCount } }

/-- End an instance with its uncommitted frames lost, and the Pack's consequence where a Whistle had released one. -/
def State.killInstance (s : State) (c code : Nat) : State :=
  let released := (s.ctx c).held.find? fun f => f.whistled
  let s := s.endInstance c code
  match released with
  | some f => s.packLoss c f.no code
  | none => s

/-! ### Fences (R308 to R313) -/

def FenceCause.code : FenceCause → Nat
  | .uncorrectable => 1 | .selfTest => 2 | .watchdog => 3 | .driver => 4

/-- Variant 1 of a context's template fits the pool. -/
def State.fitsPool (s : State) (c : Nat) : Bool := (s.ctxTmpl c).all fun t => t.span ≤ s.poolCount

/-- Contexts whose variant 1 no longer fits become SUSPENDED, and those that fit again ADMITTED (R313). -/
def State.suspendCheck (s : State) : State :=
  { s with hrd := { s.hrd with ctxs := Tab.mapVal (fun c x =>
      if x.st = .admitted ∧ ¬s.fitsPool c then { x with st := .suspended }
      else if x.st = .suspended ∧ s.fitsPool c then { x with st := .admitted } else x) s.hrd.ctxs } }

/-- E falls below 96, from the count before: SERVICE_N, E-HRD-09 and HRD_STATUS.SERVICE (R312). -/
def State.serviceCheck (s : State) (before : Nat) : State :=
  if 96 ≤ before ∧ s.poolCount < 96 then
    State.report { s with hrd := { s.hrd with service := true } } { blk := .hrd, nn := 9 }
  else s

/-- A route has an end on a core, by producer, consumer or Kennel (R62). -/
def Route.onCore (r : Route) (core : Nat) : Bool := r.prodCore == some core || r.consCore == some core || r.host == core

/-- Record a core's fence in the Field book, or in the pending area's map while the Handler is absent (R311, R686). -/
def State.recordFence (s : State) (core : Nat) (cause : FenceCause) : State :=
  let w := s.fb.work
  let s := { s with fb := { s.fb with work := { w with fences := Tab.put w.fences core cause.code } } }
  if s.hnd.running then s
  else { s with fb := { s.fb with pendingFences := Tab.put s.fb.pendingFences core cause.code } }

/-- The cores of every frame that is being cancelled. -/
def State.cancelledCores (s : State) : List Nat :=
  s.hrd.ctxs.flatMap fun p => match p.2.running with
    | some (_, r) => if r.cancelling then r.onCores else []
    | none => []

/-- The running frame has a unit on a core and is not being cancelled yet. -/
def Ctx.hitBy (x : Ctx) (core : Nat) : Bool :=
  match x.running with
  | some (_, r) => !r.cancelling && r.units.any fun u => u.kind == 0 && u.place == core
  | none => false

/-- Take a core out of the pool: its fence is recorded, its cache is reset, and every frame with a unit on it
is stopped and waits for its cancellation to end (R309, R181). -/
def State.fenceCore (s : State) (core : Nat) (cause : FenceCause) : State :=
  if s.fenced core then s
  else
    let before := s.poolCount
    let s := s.recordFence core cause
    let s := s.modCore core fun x => { x with fence := some cause, cache := {} }
    let s := s.abandonAudits fun rid => (s.route? rid).any fun r => r.onCore core
    let reclaim (r : Route) : Route :=
      if r.onCore core then { r.quiesced with reclaiming := true, frozen := false, reclaimAudit := true } else r
    let s := { s with fab := { s.fab with routes := Tab.mapVal (fun _ r => reclaim r) s.fab.routes } }
    let hit := Tab.keysWhere (fun _ x => x.hitBy core) s.hrd.ctxs
    let s := hit.foldl (fun t c => ((t.cancelRun c true).quiesceRoutes c).modRun c fun r => { r with cancelling := true }) s
    (s.scheduleAll s.cancelledCores).suspendCheck.serviceCheck before

end Sys2Proof.Machine
end

