-- ==== Sys2Proof/Machine/FieldBook.lean ====
section
/-!
DEFINITION. Machine/FieldBook.lean: the state block, its two copies, the event log and the pending area (R682 to R688).
-/
namespace Sys2Proof.Machine

/-! ### The state block (Table 20.8) -/

/-- Counts as u32 words. -/
def words32 (l : List Nat) : List Byte := l.flatMap fun n => natLe 4 (min n 0xFFFFFFFF)

/-- One channel's 16 residue values, i16, oldest first. -/
def residueBytes (l : List Int) : List Byte :=
  (List.range 16).flatMap fun i => natLe 2 (ofSigned 16 (l.getD i 0))

/-- FENCE of a core: bit 0 fenced, CAUSE in bits 6 to 2. -/
def StateBlock.fenceByte (b : StateBlock) (g : Nat) : Nat :=
  match Tab.find? b.fences g with | some cause => 1 + 4 * cause | none => 0

/-- FATAL_HOURS: the older of the last two in the low half (log 117). -/
def StateBlock.fatalWord (b : StateBlock) : Nat :=
  let h := b.fatalHours.reverse
  h.getD 0 0 % 65536 + h.getD 1 0 % 65536 * 65536

/-- The 1,024 bytes of a state block (Table 20.8). -/
def StateBlock.bytes (b : StateBlock) (moduleId : DWord) : List Byte :=
  let d := padTo 0x3FC (natLe 4 0x4B424650 ++ natLe 2 1 ++ natLe 2 1 ++ natLe 8 b.seq.toNat ++ natLe 8 moduleId.toNat ++
    natLe 8 (b.poweredNs / 1000000000) ++ words32 b.counts ++ natLe 8 b.lifePpm ++ words32 b.cycles ++ words32 b.hours ++
    b.residue.flatMap residueBytes ++ b.residue.flatMap (fun l => natLe 1 l.length) ++ natLe 3 0 ++
    (List.range 144).flatMap (fun g => natLe 1 (b.fenceByte g)) ++ natLe 4 b.replace.toNat ++ words32 [b.ueTotal] ++
    words32 b.ueStack ++ natLe 4 b.eventHead ++ words32 [b.eventTotal, b.fatals] ++ natLe 4 b.fatalWord)
  d ++ natLe 4 (crc32c d)

/-! ### Copies and the event log -/

/-- Copy B is the current one: the copy with the higher SEQ. -/
def FieldBook.currentB (b : FieldBook) : Bool :=
  match b.copyA, b.copyB with
  | some x, some y => x.seq.toNat < y.seq.toNat
  | none, some _ => true
  | _, none => false

/-- The current copy of the state block, where one is readable (R683). -/
def FieldBook.current (b : FieldBook) : Option StateBlock := if b.currentB then b.copyB else b.copyA

/-- The Handler writes the state block to the copy that is not current (R685). -/
def FieldBook.save (b : FieldBook) : FieldBook :=
  let w := { b.work with seq := (b.current.elim 0 fun c => c.seq) + 1 }
  if b.currentB then { b with work := w, copyA := some w } else { b with work := w, copyB := some w }

/-- Append one record to the circular event log of 65,536 entries (R682). -/
def FieldBook.append (b : FieldBook) (r : Rec) : FieldBook :=
  let l := b.log ++ [r]
  { b with
    log := l.drop (l.length - 65536)
    work := { b.work with eventHead := (b.work.eventHead + 1) % 65536, eventTotal := b.work.eventTotal + 1 } }

/-- The Handler moves the pending area to flash at its start; records dropped are reported as E-ERL-05 (R686). -/
def State.movePending (s : State) : State :=
  let b := s.fb.pending.foldl FieldBook.append s.fb
  let b := if s.fb.pendingBlock.isSome || !s.fb.pendingFences.isEmpty then b.save else b
  let dropped := s.fb.pendingDropped
  let s := { s with fb := { b with pending := [], pendingDropped := 0, pendingFences := [], pendingBlock := none } }
  if dropped = 0 then s else s.report { blk := .erl, nn := 5, detail := [dropped] }

/-- The Handler reads the state block at BOOT (R687): where neither copy is readable it starts a new one with SEQ 1, and the
fences recorded in it before are no longer in force; the pending area's fence map still holds its own. -/
def State.readFieldBook (s : State) : State :=
  match s.fb.current with
  | some _ => s
  | none =>
    let w : StateBlock := { seq := 1, fences := s.fb.pendingFences }
    State.report { s with
      fb := { s.fb with work := w, copyA := some w }
      hrd := { s.hrd with cores := Tab.mapVal (fun g c =>
        if (Tab.find? s.fb.pendingFences g).isSome then c else { c with fence := none }) s.hrd.cores } } { blk := .erl, nn := 6 }

/-- The spares suffice for `failed` blocks that fail under a write (R682). -/
def FieldBook.sparesFor (b : FieldBook) (failed : Nat) : Bool := failed == 0 || decide (b.retired + failed ≤ Config.flashSpares)

/-- A write to the Field book's flash (R682): each failed block is retired for a spare and `good` is the write; where no
spare remains the write fails with E-ERL-04 on `lost`, which keeps the last good state. -/
def State.flashWrite (s : State) (failed : Nat) (good lost : FieldBook) : State :=
  if s.fb.sparesFor failed then { s with fb := { good with retired := s.fb.retired + failed } }
  else State.report { s with fb := { lost with retired := Config.flashSpares } } { blk := .erl, nn := 4 }

/-- FIELD_BOOK_PERIODIC_WRITE (R682, R685). -/
def execFieldBookPeriodicWrite (failed : Nat) (s : State) : Host.Outcome State Fault Refusal :=
  .next (if s.alive && s.hnd.running then s.flashWrite failed s.fb.save s.fb else s)

/-- FIELD_BOOK_APPEND (R678, R682): the oldest record that waits for the Handler enters the event log, or is lost with a
failed write. -/
def execFieldBookAppend (failed : Nat) (s : State) : Host.Outcome State Fault Refusal :=
  match s.fb.queue with
  | [] => .next s
  | r :: rest =>
    .next (if s.alive && s.hnd.running then
      s.flashWrite failed { s.fb.append r with queue := rest } { s.fb with queue := rest } else s)

end Sys2Proof.Machine
end

