-- ==== Sys2Proof/Machine/Units.lean ====
section
/-!
DEFINITION. Machine/Units.lean: what a unit of a running frame does as it issues: which unit may issue, where its
operands come from, its working region, and waiting (R138 to R142).
-/
namespace Sys2Proof.Machine

/-- A unit that may issue now: its frame runs and is not being cancelled, it neither waits nor has ended, and a core
unit is the one its core issues from (R140). -/
def State.issuer? (s : State) (c u : Nat) : Option (Frame × FrameRun × UnitRun) :=
  if !s.alive then none
  else
    match (s.ctx c).running with
    | none => none
    | some (f, r) =>
      if r.cancelling then none
      else
        match r.units.find? fun x => x.unit == u with
        | none => none
        | some x =>
          if x.ended || x.blocked.isSome then none
          else if x.kind = 0 ∧ (s.core x.place).issuing ≠ some (c, u) then none
          else some (f, r, x)

/-- A unit that waits: its frame runs and is not being cancelled. -/
def State.waiter? (s : State) (c u : Nat) : Option (Frame × FrameRun × UnitRun) :=
  if !s.alive then none
  else
    match (s.ctx c).running with
    | none => none
    | some (f, r) =>
      if r.cancelling then none
      else
        match r.units.find? fun x => x.unit == u with
        | none => none
        | some x => if x.blocked.isSome then some (f, r, x) else none

/-- Module address of an offset in a unit's working region. -/
def UnitRun.addr (x : UnitRun) (off : Nat) : Nat := tileAddr x.place (x.base + off)

/-- `n` bytes; those beyond a short string are unspecified (R59). -/
def State.fillFree (s : State) (n : Nat) (bs : List Byte) : List Byte :=
  bs.take n ++ (List.range (n - bs.length)).map fun i => Config.freeByte s.freeCount i

/-- `n` operand bytes of a unit, from `skip` bytes beyond where an operand begins. A core addresses its own tile memory
only (R141): bytes beyond its end are unspecified. -/
def State.operandAt (s : State) (x : UnitRun) (src : Src) (skip n : Nat) : List Byte :=
  match src with
  | .tile off => s.fillFree n (s.peek (x.addr (off + skip)) (min n (tileSpan - (x.base + off + skip))))
  | .msg off => s.fillFree n (slice x.msg (off + skip) n)
  | .data off => s.fillFree n (slice x.data (off + skip) n)
  | .imm bytes => s.fillFree n (slice bytes skip n)

/-- `n` operand bytes of a unit. -/
def State.operand (s : State) (x : UnitRun) (src : Src) (n : Nat) : List Byte := s.operandAt x src 0 n

/-- Write a result into a unit's working region; a result that would leave the region changes nothing. -/
def State.putTile (s : State) (x : UnitRun) (off : Nat) (d : List Byte) : State :=
  if off + d.length ≤ x.size then s.writeTile (x.addr off) d else s

/-- A unit begins to wait; its core turns to another ready unit, except for a load (R140). -/
def State.block (s : State) (c : Nat) (x : UnitRun) (b : Blocked) : State :=
  let s := s.modUnit c x.unit fun y => { y with blocked := some b }
  if x.kind = 0 then s.schedule x.place else s

/-- A unit's wait ends. -/
def State.unblock (s : State) (c : Nat) (x : UnitRun) (g : UnitRun → UnitRun) : State :=
  let s := s.modUnit c x.unit fun y => g { y with blocked := none }
  if x.kind = 0 then s.schedule x.place else s

/-- One SEND or READ of the certificate's step list done (R107). -/
def UnitRun.consume (x : UnitRun) : UnitRun :=
  { x with steps := match x.steps with
      | (st, n) :: r => if n ≤ 1 then r else (st, n - 1) :: r
      | [] => [] }

/-- Bytes in commands of 64; a last one may be shorter. -/
def chunks64 : Nat → List Byte → List (List Byte)
  | 0, _ => []
  | n + 1, bs => if bs.isEmpty then [] else bs.take 64 :: chunks64 n (bs.drop 64)

/-- The commands of a route message to an engine or Retriever unit: 1 to 16 whole ones, else one that breaks its table
(R258, R360). -/
def commandsOf (d : List Byte) : List (List Byte) := if d.length % 64 = 0 ∧ d.length ≤ 1024 then chunks64 16 d else [d]

/-- A unit takes a message: it is the one its reads address, and an engine or Retriever unit queues its commands. -/
def UnitRun.receive (x : UnitRun) (d : List Byte) (age : Nat) : UnitRun :=
  { x.consume with
    msg := d
    queue := if x.kind = 0 then x.queue else x.queue ++ commandsOf d
    qAge := if x.queue.isEmpty then age else x.qAge }

/-- The next age of a unit queue's head. -/
def State.nextAge (s : State) : State := { s with rtv := { s.rtv with nextAge := s.rtv.nextAge + 1 } }

/-- A unit's own fault: its frame is lost without restart (R179). -/
def State.unitFault (s : State) (c : Nat) (x : UnitRun) (blk : Block) (nn : Nat) : State :=
  s.faultFrame c
    { blk := blk, nn := nn, unit := if x.kind = 0 then .core x.place else .none,
      quarter := if x.kind = 0 then some (coreQuarter x.place) else none } ⟨blk, nn⟩

end Sys2Proof.Machine
end

