-- ==== Sys2Proof/Machine/Cores.lean ====
section
/-!
DEFINITION. Machine/Cores.lean: reach loads, tally waits, the end of a unit, and the faults of a core (R169, R170, R178,
R179, R230, R232, R269, R308, R309, R311).
-/
namespace Sys2Proof.Machine

/-! ### Instance tallies (R267) -/

/-- A physical tally belongs to some instance. -/
def State.tallyUsed (s : State) (k : Nat) : Bool := s.hrd.ctxs.any fun p => p.2.tallies.any fun q => q.2 == k

/-- The lowest free instance tally of a quarter, below `n`. -/
def State.freeTallyIn (s : State) (q : Nat) : Nat → Option Nat
  | 0 => none
  | n + 1 =>
    match State.freeTallyIn s q n with
    | some k => some k
    | none => if s.tallyUsed (tallyKey q n) then none else some (tallyKey q n)

/-- The physical tally of an instance tally number: taken at its first use from the context's own quarter, else from the
others; where none is free, one outside the numbered tallies stands for it. -/
def State.instTally (s : State) (c n : Nat) : Nat × State :=
  match Tab.find? (s.ctx c).tallies n with
  | some k => (k, s)
  | none =>
    let home := coreQuarter ((s.ctx c).cores.headD 0)
    let k := (([home, 0, 1, 2, 3].findSome? fun q => s.freeTallyIn q 768)).getD (4096 + 256 * c + n)
    (k, (s.modCtx c fun x => { x with tallies := Tab.put x.tallies n k }).setTally k 0)

/-! ### Reach loads -/

/-- A reach load's form and range (R169, R170). -/
def loadOk (addr len : Nat) : Bool := [2, 4, 8, 16, 32, 64].contains len && addr % len == 0 && addr + len ≤ devTop

/-- A frame lost to a poisoned or uncorrectable granule that one of its reads met (R253). -/
def State.granuleLoss (s : State) (c : Nat) (unit : UnitRef) (b : Nat × Bool × Nat) : State :=
  match (s.ctx c).running with
  | none => s
  | some (f, _) =>
    (s.memError 2 b.1 b.2.2 b.2.1 { blk := .mem, nn := 2, func := some (s.ctx c).func, unit := unit, ctx := some c, frame := some f.no }).loseFrame
      c f.no (Err.lossCode ⟨.mem, 2⟩)

/-- REACH_LOAD (R169, R170, R230): a volatile load and a hit answer at once; a miss waits for its line. -/
def execReachLoad (ctx unit addr len : Nat) (isVolatile : Bool) (ue : UeList) (s : State) : Host.Outcome State Fault Refusal :=
  match s.issuer? ctx unit with
  | none => .next s
  | some (f, _, u) =>
    if u.kind ≠ 0 then .next s
    else if !loadOk addr len then .next (s.unitFault ctx u .sys 22)
    else
      let cls := 0x10 + s.ctxOwner ctx
      match s.cadDenied cls addr len false with
      | some page =>
        .next ((s.deny cls page false .frameContained (some (s.ctx ctx).func) (some ctx) (some f.no)).loseFrame ctx f.no
          (Err.lossCode ⟨.cad, 4⟩))
      | none =>
        if isVolatile then
          match s.badGranule ue (granules addr len) with
          | some b => .next (s.granuleLoss ctx (.core u.place) b)
          | none => .next (s.modUnit ctx unit fun x => { x with data := s.peek addr len })
        else
          match Tab.find? (s.core u.place).cache.lines (granule addr), Config.evicted s.freeCount (granule addr) with
          | some line, false => .next (s.takeFree.modUnit ctx unit fun x => { x with data := slice line (addr % 64) len })
          | _, _ =>
            let s := s.takeFree.modCore u.place fun k => { k with cache := k.cache.dropLine (granule addr) }
            .next (s.block ctx u (.load addr len true))

/-- REACH_LOAD_RETURN (R230, R232): the data returns; its line is kept unless an invalidation came meanwhile. -/
def execReachLoadReturn (ctx unit : Nat) (ue : UeList) (s : State) : Host.Outcome State Fault Refusal :=
  match s.waiter? ctx unit with
  | none => .next s
  | some (_, _, u) =>
    match u.blocked with
    | some (.load addr len keep) =>
      match s.badGranule ue (granules addr len) with
      | some b => .next (s.granuleLoss ctx (.core u.place) b)
      | none =>
        let d := s.peek addr len
        let s := if keep then s.takeFree.modCore u.place fun k =>
            { k with cache := k.cache.fill coreCache s.freeCount (granule addr) (s.peek (granule addr) 64) }
          else s
        .next (s.unblock ctx u fun x => { x with data := d })
    | _ => .next s

/-! ### Tally waits and the end of a unit -/

/-- TALLY_WAIT (R269). -/
def execTallyWait (ctx unit tally : Nat) (target : Word) (s : State) : Host.Outcome State Fault Refusal :=
  match s.issuer? ctx unit with
  | none => .next s
  | some (_, _, u) =>
    if u.kind ≠ 0 ∨ 256 ≤ tally then .next s
    else
      let k := s.instTally ctx tally
      if reached (k.2.tally k.1) target then .next k.2 else .next (k.2.block ctx u (.tally k.1 target))

/-- TALLY_WAIT_RELEASE (R269). -/
def execTallyWaitRelease (ctx unit : Nat) (s : State) : Host.Outcome State Fault Refusal :=
  match s.waiter? ctx unit with
  | none => .next s
  | some (_, _, u) =>
    match u.blocked with
    | some (.tally k target) => .next (if reached (s.tally k) target then s.unblock ctx u fun x => x else s)
    | _ => .next s

/-- A unit's started commands: Retriever and dictionary, or entropy. -/
def State.unitStarted (s : State) (c no u : Nat) : Bool :=
  s.rtv.chans.any (fun p => p.2.started.any fun k => k.issuer == .unit c no u) ||
  s.ec.engines.any fun p => p.2.started.any fun k => k.ctx == c && k.frame == no && k.unit == u

/-- An engine or Retriever unit has nothing left to do: no command queued or started, and nothing more can reach it. -/
def State.engineDone (s : State) (c : Nat) (f : Frame) (r : FrameRun) (u : UnitRun) : Bool :=
  u.queue.isEmpty && !s.unitStarted c f.no u.unit &&
  r.routes.all fun rid => match s.route? rid with
    | some x => x.consUnit != u.unit || (x.flight.isEmpty && x.occ.length == x.readCnt &&
        (x.crossesLink || r.units.any fun y => y.unit == x.prodUnit && y.ended))
    | none => true

/-- UNIT_END (R295): the unit's work for the frame is done, and a core unit leaves its core. -/
def execUnitEnd (ctx unit : Nat) (s : State) : Host.Outcome State Fault Refusal :=
  match (s.ctx ctx).running with
  | none => .next s
  | some (f, r) =>
    match r.units.find? fun x => x.unit == unit with
    | none => .next s
    | some u =>
      if u.kind = 0 then
        match s.issuer? ctx unit with
        | none => .next s
        | some _ => .next ((s.modUnit ctx unit fun x => { x with ended := true }).schedule u.place)
      else if !s.alive || r.cancelling || u.ended || !s.engineDone ctx f r u then .next s
      else .next (s.modUnit ctx unit fun x => { x with ended := true, blocked := none })

/-! ### Core errors -/

/-- A core that works: enabled and not fenced. -/
def State.coreWorks (s : State) (core : Nat) : Bool := s.alive && s.enabled core && !s.fenced core

/-- The event of a core error. -/
def coreEv (blk : Block) (nn core : Nat) : Ev :=
  { blk := blk, nn := nn, quarter := some (coreQuarter core), unit := .core core }

/-- CORE_ECC_CORRECTED (R178): E-SYS-20, timing only. -/
def execCoreEccCorrected (core : Nat) (s : State) : Host.Outcome State Fault Refusal :=
  .next (if s.coreWorks core then s.report (coreEv .sys 20 core) else s)

/-- CORE_CACHE_PARITY_ERROR (R178, R231): the line is dropped, so the load that met it misses and refetches it, with the
checks of any miss (R253); E-SYS-27 is reported. -/
def execCoreCacheParityError (core addr : Nat) (s : State) : Host.Outcome State Fault Refusal :=
  let g := granule addr
  if !s.coreWorks core || (Tab.find? (s.core core).cache.lines g).isNone then .next s
  else
    .next ((s.modCore core fun k => { k with cache := k.cache.dropLine g }).report (coreEv .sys 27 core))

/-- CORE_FATAL_ERROR (R179, R308): E-SYS-23 and a fence. -/
def execCoreFatalError (core : Nat) (s : State) : Host.Outcome State Fault Refusal :=
  .next (if s.coreWorks core then (s.report (coreEv .sys 23 core)).fenceCore core .uncorrectable else s)

/-- CORE_WATCHDOG_EXPIRY (R308): E-HRD-10 and a fence. -/
def execCoreWatchdogExpiry (core : Nat) (s : State) : Host.Outcome State Fault Refusal :=
  .next (if s.coreWorks core then (s.report (coreEv .hrd 10 core)).fenceCore core .watchdog else s)

/-! ### Fences -/

/-- The contexts whose running frame is being cancelled for a core and has no route left to reclaim. -/
def State.cancelledOn (s : State) (core : Nat) : List Nat :=
  Tab.keysWhere (fun c x => match x.running with
    | some (_, r) => r.cancelling && (r.units.any fun u => u.kind == 0 && u.place == core) &&
        !(s.fab.routes.any fun p => p.2.ctx == c && p.2.reclaiming)
    | none => false) s.hrd.ctxs

/-- FENCE_CANCEL_DONE (R309, R310): the frames of a fenced core return to the ready queue, or are lost. -/
def execFenceCancelDone (core : Nat) (s : State) : Host.Outcome State Fault Refusal :=
  .next (if s.alive then (s.cancelledOn core).foldl (fun t c => t.restartFrame c) s else s)

/-- DRIVER_FENCE (R308, R688): E-ERL-11 and a fence of the core that the physical function's HRD_FENCE_SEL names; a
spare, absent or fenced core is left as it is. -/
def execDriverFence (fn : Nat) (s : State) : Host.Outcome State Fault Refusal :=
  let core := (s.fn 0).hrd.fenceSel.toNat
  .next (if s.hostReach fn && fn == 0 && s.coreWorks core then
    (s.report (coreEv .erl 11 core)).fenceCore core .driver else s)

/-- The next core asked for goes under extended test where the Handler runs and none is (R311). -/
def State.nextTest (s : State) : State :=
  match s.hnd.unfenceQueue with
  | core :: _ => if s.hnd.running then s.modCore core fun k => { k with underTest := true } else s
  | [] => s

/-- UNFENCE_REQUEST (R311): the Handler is asked to test the selected core. -/
def execUnfenceRequest (fn : Nat) (s : State) : Host.Outcome State Fault Refusal :=
  let core := (s.fn 0).hrd.fenceSel.toNat
  if !s.hostReach fn || fn != 0 || !s.enabled core || !s.fenced core || s.hnd.unfenceQueue.contains core then .next s
  else .next (State.nextTest { s with hnd := { s.hnd with unfenceQueue := s.hnd.unfenceQueue ++ [core] } })

/-- A core rejoins the pool: its fence and its record are erased, and E-ERL-10 is reported (R311, R688). -/
def State.liftFence (s : State) (core : Nat) : State :=
  let s := { s with fb := { s.fb with
    work := { s.fb.work with fences := Tab.erase s.fb.work.fences core }
    pendingFences := Tab.erase s.fb.pendingFences core } }
  let s := s.modCore core fun k => { k with fence := none }
  (s.report (coreEv .erl 10 core)).suspendCheck

/-- EXTENDED_TEST_DONE (R311): a pass lifts the fence; a failure leaves it and its record. -/
def execExtendedTestDone (core : Nat) (pass : Bool) (s : State) : Host.Outcome State Fault Refusal :=
  if !s.alive || !s.hnd.running || !(s.core core).underTest then .next s
  else
    let s := { s with hnd := { s.hnd with unfenceQueue := s.hnd.unfenceQueue.filter fun k => k != core } }
    let s := s.modCore core fun k => { k with underTest := false }
    .next ((if pass then s.liftFence core else s).nextTest)

end Sys2Proof.Machine
end

