-- ==== Sys2Proof/Machine/Fabric.lean ====
section
/-!
DEFINITION. Machine/Fabric.lean: routes, Leashes, Kennels and the Leash audit (chapter 2).
-/
namespace Sys2Proof.Machine

/-- A stall of an instance ends with any movement on its routes (R81). -/
def State.moved (s : State) (c : Nat) : State :=
  { s with fab := { s.fab with stalled := s.fab.stalled.filter fun x => x ≠ c } }

/-- The route of a run at a producer port, and at a consumer port. -/
def State.routeFrom (s : State) (r : FrameRun) (u port : Nat) : Option (Nat × Route) :=
  r.routes.findSome? fun rid => (s.route? rid).bind fun x =>
    if x.prodUnit = u ∧ x.prodPort = port then some (rid, x) else none
def State.routeTo (s : State) (r : FrameRun) (u port : Nat) : Option (Nat × Route) :=
  r.routes.findSome? fun rid => (s.route? rid).bind fun x =>
    if x.consUnit = u ∧ x.consPort = port then some (rid, x) else none

/-- A core unit's next certificate step is the given one; other units are not held to an order (R107). -/
def UnitRun.inOrder (x : UnitRun) (st : CertStep) : Bool :=
  x.kind != 0 || (match x.steps with | (y, _) :: _ => y == st | [] => false)

/-- A send or read departs from the certificate's order: E-SVY-21 ends the instance (R107). -/
def State.orderFault (s : State) (c : Nat) (f : Frame) (u : UnitRun) : State :=
  let s := s.report { blk := .svy, nn := 21, func := some (s.ctx c).func, quarter := some (coreQuarter u.place)
                      unit := .core u.place, ctx := some c, frame := some f.no }
  let s := { s with svy := { s.svy with routeFault := true, routeFaults := satInc s.svy.routeFaults } }
  s.killInstance c (Err.lossCode ⟨.svy, 21⟩)

/-- A message leaves its sender: one Leash is spent and the message is in flight (R45). -/
def Route.send (x : Route) (d : List Byte) : Route :=
  { x with leash := x.leash - 1, nextSeq := x.nextSeq + 1, waitSend := none,
           flight := if x.crossesLink then x.flight else x.flight ++ [{ seq := x.nextSeq, data := d }] }

/-- A route's sender may send now. The freeze of an audit here stops the sender of a local route; the sender of a route from
another member is that member's. -/
def Route.canSend (x : Route) : Bool := 1 ≤ x.leash && (x.crossesLink || !x.frozen) && !x.reclaiming

/-- Send on a route; a route to a Pack peer puts the message on a Traverse link. -/
def State.sendOn (s : State) (rid : Nat) (x : Route) (d : List Byte) : State :=
  let s := (s.setRoute rid (x.send d)).moved x.ctx
  if x.crossesLink then
    match s.pck.portTowards (s.pck.atOffset x.peer) with
    | some p => s.sendLink p (s.pck.channel false p) (.routeOverLink p (s.pck.channel false p) rid x.nextSeq d)
    | none => s
  else s

/-- ROUTE_SEND (R45, R107, R723). -/
def execRouteSend (ctx unit port : Nat) (src : Src) (len : Nat) (s : State) : Host.Outcome State Fault Refusal :=
  match s.issuer? ctx unit with
  | none => .next s
  | some (f, r, u) =>
    match s.routeFrom r unit port with
    | none => .next (if u.kind = 0 then s.orderFault ctx f u else s)
    | some (rid, x) =>
      if !u.inOrder (.send x.index) then .next (s.orderFault ctx f u)
      else if len = 0 ∨ x.slotSize < len then
        .next (s.faultFrame ctx { blk := .fab, nn := 6, unit := .route rid, quarter := some (routeQuarter rid) } ⟨.fab, 6⟩)
      else
        let d := s.operand u src len
        let s := s.takeFree
        if x.canSend then .next ((s.sendOn rid x d).modUnit ctx unit UnitRun.consume)
        else .next ((s.setRoute rid { x with waitSend := some d, waitSince := s.now }).block ctx u (.send rid))

/-- BLOCKED_SEND_PROCEED (R75): a returned Leash is counted first, and the send proceeds where one is held. -/
def execBlockedSendProceed (route : Nat) (s : State) : Host.Outcome State Fault Refusal :=
  match s.route? route with
  | none => .next s
  | some x =>
    match x.waitSend, s.waiter? x.ctx x.prodUnit with
    | some d, some (_, _, u) =>
      if x.canSend then .next ((s.sendOn route x d).unblock x.ctx u UnitRun.consume) else .next s
    | _, _ => .next s

/-! ### Kennels (R44, R46) -/

/-- Module address of the slot that a message takes. -/
def Route.slotAddr (x : Route) (seq : Nat) : Nat := x.base + seq % x.cap * x.slotSize

/-- The bytes of a message in its slot, as long as the slot's length word says (R59). -/
def State.slotBytes (s : State) (x : Route) (k : Kept) : List Byte := s.peek (x.slotAddr k.seq) k.len

/-- A message stands whole in its slot, with the length word, and is visible (R46). -/
def Route.land (x : Route) (len now : Nat) : Route :=
  { x with nextArrive := x.nextArrive + 1, occ := x.occ ++ [{ seq := x.nextArrive, len := len, landed := now }] }

/-- A snapshot of the books shows L + O > C (R65); on a route to or from a peer the two counters belong to different
routes. -/
def Route.overBooked (x : Route) : Bool := !x.crossesLink && decide (x.cap < x.leash + x.occ.length)

/-! ### Audits (R61 to R66) -/

/-- L as an audit reads it: of a route from another member, that of the sending half there. -/
def Route.auditLeash (x : Route) (peerLeash : Nat) : Nat := if x.crossesLink then peerLeash else x.leash

/-- A route fails its audit (R65, R66): the code is reported with the counters observed, and its instance ends. -/
def State.auditFailure (s : State) (rid nn : Nat) (x : Route) (leash : Nat) : State :=
  let q := routeQuarter rid
  let s := (s.setRoute rid { x with endAudited := true }).modQuarter q fun k =>
    { k with auditFail := true, auditErrs := satInc k.auditErrs }
  let s := s.report {
    blk := .fab, nn := nn, func := some (s.ctx x.ctx).func, quarter := some q, unit := .route rid, ctx := some x.ctx
    detail := [rid, leash, x.occ.length, x.cap] }
  s.killInstance x.ctx (Err.lossCode ⟨.fab, nn⟩)

/-- Read slots are freed in order (R49). -/
def Route.freed (x : Route) (n : Nat) : Route :=
  { x with occ := x.occ.drop n, readCnt := x.readCnt - n, back := if x.crossesLink then x.back else x.back + n }

/-- A route whose freeze ends: the frees it held back happen (R61, step 4). -/
def Route.released (x : Route) : Route := { x.freed x.heldFrees with frozen := false, heldFrees := 0 }

/-- The Leashes of freed slots leave for the sender of a route from another member. -/
def State.sendLeashes (s : State) (rid : Nat) (x : Route) (n : Nat) : State :=
  if !x.crossesLink then s
  else
    match s.pck.portTowards (s.pck.atOffset (s.pck.size - x.peer % s.pck.size)) with
    | some p =>
      let vc := s.pck.channel true p
      (List.range n).foldl (fun t _ => t.sendLink p vc (.leashOverLink p vc rid)) s
    | none => s

/-- An audit ends with a verdict: the freeze is released, and a driver-requested audit shows its result. The audit at the
end of an instance is any whose verdict falls after that end. -/
def State.endAudit (s : State) (q : Nat) (a : Audit) (x : Route) (code : BitVec 2) (sum : Nat) : State :=
  let y := { x.released with endAudited := x.endAudited || (s.ctx x.ctx).over }
  let s := (s.setRoute a.route y).sendLeashes a.route x x.heldFrees
  let s := if x.heldFrees = 0 then s else s.moved x.ctx
  s.modQuarter q fun k =>
    if a.driver then
      { k with audit := none, driverBusy := false, resRoute := BitVec.ofNat 12 a.route, resCode := code, resSum := BitVec.ofNat 9 sum }
    else { k with audit := none }

/-- The compare step and its verdict (R61, R65). -/
def State.compareAudit (s : State) (q : Nat) (a : Audit) (x : Route) (leash : Nat) : State :=
  let sum := leash + x.occ.length
  if sum = x.cap then s.endAudit q a x 0 sum
  else (s.endAudit q a x 1 sum).auditFailure a.route 1 x.released leash

/-- MESSAGE_ARRIVE (R46, R54, R65): the next message in order occupies its slot; a duplicate is discarded; a message
beyond the capacity fails the audit at once. The message of a route from another member is the operand's, and lands while a
frame of this member runs to read it. -/
def execMessageArrive (route seq : Nat) (msg : List Byte) (s : State) : Host.Outcome State Fault Refusal :=
  match s.route? route with
  | none => .next s
  | some x =>
    if !s.alive || x.reclaiming || seq ≠ x.nextArrive then .next s
    else
      let arrived : Option (List Byte × List Msg) :=
        if x.crossesLink then (if (s.ctx x.ctx).running.isSome then some (msg, x.flight) else none)
        else match x.flight with
          | m :: rest => if m.seq = seq then some (m.data, rest) else none
          | [] => none
      match arrived with
      | none => .next s
      | some (d, flight) =>
        if x.cap ≤ x.occ.length then .next (s.auditFailure route 1 x x.leash)
        else
          let y := { x with flight := flight }.land d.length s.now
          if y.overBooked then .next (s.auditFailure route 1 y y.leash)
          else .next (((s.writeTile (x.slotAddr seq) d).setRoute route y).moved x.ctx)

/-- A read takes the oldest unread message: the unit holds it until it reads again. -/
def State.readFrom (s : State) (rid : Nat) (x : Route) : State := s.setRoute rid { x with readCnt := x.readCnt + 1, waitRead := false }

/-- ROUTE_READ (R46, R107). -/
def execRouteRead (ctx unit port : Nat) (s : State) : Host.Outcome State Fault Refusal :=
  match s.issuer? ctx unit with
  | none => .next s
  | some (f, r, u) =>
    match s.routeTo r unit port with
    | none => .next (if u.kind = 0 then s.orderFault ctx f u else s)
    | some (rid, x) =>
      if !u.inOrder (.read x.index) then .next (s.orderFault ctx f u)
      else
        match x.occ[x.readCnt]? with
        | some m => .next ((s.readFrom rid x).nextAge.modUnit ctx unit fun y => y.receive (s.slotBytes x m) s.rtv.nextAge)
        | none => .next ((s.setRoute rid { x with waitRead := true }).block ctx u (.read rid))

/-- BLOCKED_READ_PROCEED (R46). -/
def execBlockedReadProceed (route : Nat) (s : State) : Host.Outcome State Fault Refusal :=
  match s.route? route with
  | none => .next s
  | some x =>
    match x.waitRead, s.waiter? x.ctx x.consUnit, x.occ[x.readCnt]? with
    | true, some (_, _, u), some m =>
      .next ((s.readFrom route x).nextAge.unblock x.ctx u fun y => y.receive (s.slotBytes x m) s.rtv.nextAge)
    | _, _, _ => .next s

/-- SLOT_FREE (R49, R61): the oldest read slot is freed and its Leash returns; a free that meets the freeze of an audit waits
for the audit's end. -/
def execSlotFree (route : Nat) (s : State) : Host.Outcome State Fault Refusal :=
  match s.route? route with
  | none => .next s
  | some x =>
    if !s.alive || x.reclaiming || (s.ctx x.ctx).running.isNone || x.readCnt ≤ x.heldFrees then .next s
    else if x.frozen then .next (s.setRoute route { x with heldFrees := x.heldFrees + 1 })
    else .next (((s.setRoute route (x.freed 1)).moved x.ctx).sendLeashes route x 1)

/-- LEASH_RECEIVE (R49): a returning Leash is held by the sender again. -/
def execLeashReceive (route : Nat) (s : State) : Host.Outcome State Fault Refusal :=
  match s.route? route with
  | none => .next s
  | some x =>
    if !s.alive || x.reclaiming then .next s
    else if x.crossesLink then
      if x.cap ≤ x.leash then .next s
      else .next ((s.setRoute route { x with leash := x.leash + 1 }).moved x.ctx)
    else if x.back = 0 then .next s
    else
      let y := { x with back := x.back - 1, leash := x.leash + 1 }
      if y.overBooked then .next (s.auditFailure route 1 y y.leash) else .next ((s.setRoute route y).moved x.ctx)

/-- The route after a given one in a quarter's round robin (R62). -/
def State.robinNext (s : State) (q : Nat) : Option Nat :=
  let ids := Tab.keysWhere (fun rid x => routeQuarter rid == q && !x.reclaiming) s.fab.routes
  match ids.find? fun rid => (s.quarter q).robin < rid with
  | some rid => some rid
  | none => ids.head?

/-- AUDIT_PERIOD_TICK (R62). -/
def execAuditPeriodTick (quarter : Nat) (s : State) : Host.Outcome State Fault Refusal :=
  if !s.alive || (s.quarter quarter).audit.isSome then .next s
  else
    match s.robinNext quarter with
    | none => .next s
    | some rid => .next ((s.startAudit quarter rid false).modQuarter quarter fun k => { k with robin := rid })

/-- E-FAB-05: a locked FAB_ write (R86, R128); details are the BAR0 offset and the value (Table 20.4). -/
def State.fabLocked (s : State) (f q off value : Nat) : State :=
  (s.modQuarter q fun k => { k with fieldLocked := true }).report
    { blk := .fab, nn := 5, func := some f, quarter := some q, detail := [off, value % 2 ^ 32] }

/-- BAR0 offset of a quarter's FAB_AUDIT_REQ (R85). -/
def fabAuditReqOff (q : Nat) : Nat := 0x2800000 + q * 0x10000 + 0x010

/-- AUDIT_REQUEST: a write of GO with a route ID to FAB_AUDIT_REQ (R86). -/
def execAuditRequest (fn quarter route : Nat) (s : State) : Host.Outcome State Fault Refusal :=
  if !s.hostReach fn || fn ≠ 0 then .next s
  else if (s.quarter quarter).driverBusy then
    .next (s.fabLocked fn quarter (fabAuditReqOff quarter) (2 ^ 31 + route))
  else if routeQuarter route ≠ quarter ∨ (s.route? route).isNone then
    .next (s.modQuarter quarter fun k =>
      { k with reqRoute := BitVec.ofNat 12 route, resRoute := BitVec.ofNat 12 route, resCode := 3, resSum := 0 })
  else .next ((s.modQuarter quarter fun k => { k with reqRoute := BitVec.ofNat 12 route, driverBusy := true }).nextAudit quarter)

/-- A Traverse link of the module retrains. -/
def State.linkBusy (s : State) : Bool := s.pck.ports.any fun p => p.2.retraining

/-- Nothing of a route is in motion (R61, R63). Of a route from another member, what moves lies in the links' replay windows
and in the other member; that the drain is done there is part of the event, which cannot occur while a link retrains. -/
def State.drained (s : State) (x : Route) : Bool := if x.crossesLink then !s.linkBusy else x.flight.isEmpty && x.back == 0

/-- AUDIT_DRAIN_DONE (R61, R65): compare L + O with C and release the route. -/
def execAuditDrainDone (drain : AuditDrain) (s : State) : Host.Outcome State Fault Refusal :=
  match (s.quarter drain.quarter).audit with
  | none => .next s
  | some a =>
    match s.route? a.route with
    | none => .next ((s.abandonAudit drain.quarter).nextAudit drain.quarter)
    | some x =>
      if !s.alive || !s.drained x then .next s
      else .next ((s.compareAudit drain.quarter a x (x.auditLeash drain.peerLeash)).nextAudit drain.quarter)

/-- AUDIT_DRAIN_TIMEOUT (R65): E-FAB-04, with the counters observed. -/
def execAuditDrainTimeout (drain : AuditDrain) (s : State) : Host.Outcome State Fault Refusal :=
  match (s.quarter drain.quarter).audit with
  | none => .next s
  | some a =>
    match s.route? a.route with
    | none => .next ((s.abandonAudit drain.quarter).nextAudit drain.quarter)
    | some x =>
      if !s.alive || (!x.crossesLink && s.drained x) then .next s
      else .next (((s.endAudit drain.quarter a x 2 0).auditFailure a.route 4 x.released (x.auditLeash drain.peerLeash)).nextAudit drain.quarter)

/-! ### Stalls, parity and reclamation -/

/-- The least of a list by a measure, the first of equals. -/
def leastBy (xs : List (Nat × Nat)) : Option (Nat × Nat) :=
  match xs with
  | [] => none
  | x :: r =>
    match leastBy r with
    | some y => if y.1 < x.1 then some y else some x
    | none => some x

/-- The route a stall names (R81): the one with the oldest message waiting to be read, else the one whose sender has
waited longest, else none. -/
def State.stalledRoute (s : State) (c : Nat) : Option Nat :=
  let mine := s.fab.routes.filter fun p => p.2.ctx == c
  let unread := mine.filterMap fun p => (p.2.occ[p.2.readCnt]?).map fun m => (m.landed, p.1)
  let waiting := mine.filterMap fun p => if p.2.waitSend.isSome then some (p.2.waitSince, p.1) else none
  match leastBy unread with
  | some p => some p.2
  | none => (leastBy waiting).map Prod.snd

/-- The quarter in which a run's first core unit lies. -/
def FrameRun.homeOf (r : FrameRun) : Nat :=
  match r.units.find? fun u => u.kind == 0 with
  | some u => coreQuarter u.place
  | none => 0

/-- STALL_DETECTED (R81): reported once per stall, and only where the detector is on. FAB_STALL_TIMEOUT and STALL are those of
the named route's quarter, or where no route is named those of the quarter of the instance's first core unit. Mark: DESIGN
CHOICE, because the spec gives each quarter its own and does not say which applies (log 143). -/
def execStallDetected (ctx : Nat) (s : State) : Host.Outcome State Fault Refusal :=
  match (s.ctx ctx).running with
  | none => .next s
  | some (f, r) =>
    let named := s.stalledRoute ctx
    let q := match named with | some rid => routeQuarter rid | none => r.homeOf
    let ms := (s.quarter q).stallMs
    if !s.alive || ms = 0 || s.fab.stalled.contains ctx then .next s
    else
      let s := { s with fab := { s.fab with stalled := ctx :: s.fab.stalled } }
      let s := s.modQuarter q fun k => { k with stall := true }
      .next (s.report {
        blk := .fab, nn := 3, func := some (s.ctx ctx).func, quarter := some q, ctx := some ctx, frame := some f.no
        unit := (match named with | some rid => .route rid | none => .none)
        detail := [(match named with | some rid => rid | none => 0xFFFF), ms.toNat] })

/-- CROSSING_PARITY_ERROR (R79): a bad message granule restarts the frame; a bad Leash token ends the instance. -/
def execCrossingParityError (route : Nat) (leash : Bool) (s : State) : Host.Outcome State Fault Refusal :=
  match s.route? route with
  | none => .next s
  | some x =>
    if !s.alive || (!x.crossesLink && (if leash then x.back == 0 else x.flight.isEmpty)) then .next s
    else
      let q := routeQuarter route
      let s := s.modQuarter q fun k => { k with xingParity := true, parityErrs := satInc k.parityErrs }
      let s := s.report {
        blk := .fab, nn := 2, cls := some (if leash then .instFatal else .frameContained)
        func := some (s.ctx x.ctx).func, quarter := some q, unit := .route route, ctx := some x.ctx
        frame := (s.ctx x.ctx).running.map fun p => p.1.no }
      .next (if leash then s.killInstance x.ctx (Err.lossCode ⟨.fab, 2⟩) else s.restartFrame x.ctx)

/-- ROUTE_RECLAIM_DONE (R62, R80): reclamation ends and the audit after the fence starts. -/
def execRouteReclaimDone (route : Nat) (s : State) : Host.Outcome State Fault Refusal :=
  match s.route? route with
  | none => .next s
  | some x =>
    if !s.alive || !x.reclaiming then .next s
    else .next ((s.setRoute route { x with reclaiming := false }).nextAudit (routeQuarter route))

end Sys2Proof.Machine
end

