-- ==== Sys2Proof/Machine/Crypto.lean ====
section
/-!
DEFINITION. Machine/Crypto.lean: SHA-384 (FIPS 180-4) and the verification of ECDSA over P-384 (FIPS 186), which the
spec names for Survey images, firmware and policies (R92, R610, R626).
-/
namespace Sys2Proof.Machine

/-! ### SHA-384 -/

/-- The largest `r` with `r ^ k ≤ n`, found bit by bit below `acc + 2 ^ b`. -/
def rootBelow (k n : Nat) : Nat → Nat → Nat
  | 0, acc => acc
  | b + 1, acc => rootBelow k n b (if (acc + 2 ^ b) ^ k ≤ n then acc + 2 ^ b else acc)

/-- The first 64 bits of the fractional part of the `k`-th root of a number below 512, `k` being 2 or 3. -/
def rootFraction (k n : Nat) : Nat := rootBelow k (n * 2 ^ (64 * k)) 69 0 % 2 ^ 64

/-- The primes below 410, of which there are 80. -/
def shaPrimes : List Nat :=
  (List.range 410).filter fun n => decide (2 ≤ n) && [2, 3, 5, 7, 11, 13, 17, 19].all fun d => n % d != 0 || n == d

/-- The constants of the 80 rounds: from the cube roots of the first 80 primes (FIPS 180-4). -/
def shaConstants : List Nat := shaPrimes.map (rootFraction 3)

/-- The initial hash value of SHA-384: from the square roots of the ninth to the sixteenth prime (FIPS 180-4). -/
def sha384Init : List Nat := ((shaPrimes.drop 8).take 8).map (rootFraction 2)

def m64 (x : Nat) : Nat := x % 0x10000000000000000
def rotr64 (n x : Nat) : Nat := (x >>> n) ||| m64 (x <<< (64 - n))
def shaCh (x y z : Nat) : Nat := (x &&& y) ^^^ ((0xFFFFFFFFFFFFFFFF - x) &&& z)
def shaMaj (x y z : Nat) : Nat := (x &&& y) ^^^ (x &&& z) ^^^ (y &&& z)
def shaSum0 (x : Nat) : Nat := rotr64 28 x ^^^ rotr64 34 x ^^^ rotr64 39 x
def shaSum1 (x : Nat) : Nat := rotr64 14 x ^^^ rotr64 18 x ^^^ rotr64 41 x
def shaSig0 (x : Nat) : Nat := rotr64 1 x ^^^ rotr64 8 x ^^^ (x >>> 7)
def shaSig1 (x : Nat) : Nat := rotr64 19 x ^^^ rotr64 61 x ^^^ (x >>> 6)

/-- `f` of a number, by the number's form, so that evaluation makes the number a numeral once. -/
def strict {α : Type} (n : Nat) (f : Nat → α) : α :=
  match n with
  | 0 => f 0
  | k + 1 => f (k + 1)

/-- The rounds: each takes the sum of its constant and its schedule word, and the eight working variables. -/
def shaRounds : List Nat → Nat → Nat → Nat → Nat → Nat → Nat → Nat → Nat → List Nat
  | [], a, b, c, d, e, f, g, h => [a, b, c, d, e, f, g, h]
  | kw :: r, a, b, c, d, e, f, g, h =>
    strict (h + shaSum1 e + shaCh e f g + kw) fun t1 =>
      strict (m64 (t1 + shaSum0 a + shaMaj a b c)) fun a' => strict (m64 (d + t1)) fun e' =>
        shaRounds r a' a b c e' e f g

/-- The message schedule, newest word first, with `n` words to come. -/
def shaSchedule : Nat → List Nat → List Nat
  | 0, w => w
  | n + 1, w =>
    strict (m64 (shaSig1 (w.getD 1 0) + w.getD 6 0 + shaSig0 (w.getD 14 0) + w.getD 15 0)) fun x => shaSchedule n (x :: w)

/-- The number a big-endian byte string spells. -/
def beNat (bs : List Byte) : Nat := bs.foldl (fun n b => 256 * n + b.toNat) 0
/-- The `n` bytes of a number, most significant first. -/
def natBe (n v : Nat) : List Byte := (natLe n v).reverse

/-- One 128-byte block folded into the hash value. -/
def shaBlock (h : List Nat) (block : List Byte) : List Nat :=
  let w := (List.range 16).map fun i => beNat (slice block (8 * (15 - i)) 8)
  let v (i : Nat) : Nat := h.getD i 0
  List.zipWith (fun x y => m64 (x + y)) h
    (shaRounds (List.zipWith (· + ·) shaConstants (shaSchedule 64 w).reverse) (v 0) (v 1) (v 2) (v 3) (v 4) (v 5) (v 6)
      (v 7))

/-- Message padding to whole blocks. -/
def shaPad (bs : List Byte) : List Byte :=
  bs ++ [0x80] ++ List.replicate ((239 - bs.length % 128) % 128) 0 ++ natBe 16 (8 * bs.length)

/-- Blocks of a padded message, with fuel for their count. -/
def shaBlocks : Nat → List Nat → List Byte → List Nat
  | 0, h, _ => h
  | n + 1, h, bs => shaBlocks n (shaBlock h (bs.take 128)) (bs.drop 128)

/-- SHA-384 of a byte string, 48 bytes. -/
def sha384 (bs : List Byte) : List Byte :=
  let p := shaPad bs
  ((shaBlocks (p.length / 128) sha384Init p).flatMap (natBe 8)).take 48

/-- The first eight bytes of a SHA-384 value as a little-endian number: image IDs, key IDs, policy and owner IDs. -/
def hashId (bs : List Byte) : DWord := BitVec.ofNat 64 (leAt (sha384 bs) 0 8)

/-! ### P-384 -/

def p384P : Nat := 2 ^ 384 - 2 ^ 128 - 2 ^ 96 + 2 ^ 32 - 1
def p384N : Nat :=
  0xffffffffffffffffffffffffffffffffffffffffffffffffc7634d81f4372ddf581a0db248b0a77aecec196accc52973
def p384B : Nat :=
  0xb3312fa7e23ee7e4988e056be3f82d19181d9c6efe8141120314088f5013875ac656398d8a2ed19d2a85c8edd3ec2aef
def p384Gx : Nat :=
  0xaa87ca22be8b05378eb1c71ef320ad746e1d3b628ba79b9859f741e082542a385502f25dbf55296c3a545e3872760ab7
def p384Gy : Nat :=
  0x3617de4a96262c6f5d9e98bf9292dc29f8f41dbd289a147ce9da3113b5f0b8c00a60b1ce1d7e819d7a431d7c90ea0e5f

/-- x to a power modulo m, by the power's low `k` bits. -/
def powMod (m : Nat) : Nat → Nat → Nat → Nat
  | 0, _, _ => 1 % m
  | k + 1, x, e =>
    let r := powMod m k (x * x % m) (e / 2)
    if e % 2 = 1 then x * r % m else r

/-- The inverse modulo a prime. -/
def invMod (m x : Nat) : Nat := powMod m 384 (x % m) (m - 2)

/-- A point of the curve in Jacobian coordinates: (X / Z², Y / Z³), and the point at infinity where Z = 0. -/
structure P384Point where
  x : Nat
  y : Nat
  z : Nat
deriving DecidableEq, Repr

/-- Difference modulo p. -/
def subMod (m x y : Nat) : Nat := (x + m - y % m) % m

/-- Twice a point. -/
def p384Double (q : P384Point) : P384Point :=
  let zz := q.z * q.z % p384P
  let yy := q.y * q.y % p384P
  let xyy := q.x * yy % p384P
  let slope := 3 * subMod p384P q.x zz * (q.x + zz) % p384P
  let x3 := subMod p384P (slope * slope) (8 * xyy)
  ⟨x3, subMod p384P (slope * subMod p384P (4 * xyy) x3) (8 * yy * yy), 2 * q.y * q.z % p384P⟩

/-- The sum of two points. -/
def p384Add (p q : P384Point) : P384Point :=
  if p.z = 0 then q
  else if q.z = 0 then p
  else
    let zp := p.z * p.z % p384P
    let zq := q.z * q.z % p384P
    let u := p.x * zq % p384P
    let v := p.y * (zq * q.z % p384P) % p384P
    let h := subMod p384P (q.x * zp) u
    let r := subMod p384P (q.y * (zp * p.z % p384P)) v
    if h = 0 then (if r = 0 then p384Double p else ⟨1, 1, 0⟩)
    else
      let hh := h * h % p384P
      let uhh := u * hh % p384P
      let x3 := subMod p384P (r * r) (hh * h + 2 * uhh)
      ⟨x3, subMod p384P (r * subMod p384P uhh x3) (v * (hh * h % p384P)), h * (p.z * q.z % p384P) % p384P⟩

/-- A multiple of a point, by the multiplier's low `k` bits. -/
def p384Mul : Nat → Nat → P384Point → P384Point
  | 0, _, _ => ⟨1, 1, 0⟩
  | k + 1, e, q =>
    let r := p384Mul k (e / 2) (p384Double q)
    if e % 2 = 1 then p384Add q r else r

/-- The point an SEC 1 uncompressed public key names (97 bytes), where it lies on the curve. -/
def p384Key (key : List Byte) : Option (Nat × Nat) :=
  let x := beNat (slice key 1 48)
  let y := beNat (slice key 49 48)
  if key.length = 97 ∧ key.head? = some 4 ∧ x < p384P ∧ y < p384P ∧
      y * y % p384P = (x * x * x + p384B + (p384P - 3) * x) % p384P then some (x, y) else none

/-- The SEC 1 uncompressed form of the curve's base point: the key the factory part carries in this model. -/
def p384BaseKey : List Byte := 0x04 :: (natBe 48 p384Gx ++ natBe 48 p384Gy)

/-- An ECDSA signature over a 48-byte hash verifies: r and s are 48 bytes each, most significant first (R92). -/
def ecdsaVerify (key hash r s : List Byte) : Bool :=
  match p384Key key with
  | none => false
  | some q =>
    let r := beNat r
    let s := beNat s
    if r = 0 ∨ s = 0 ∨ p384N ≤ r ∨ p384N ≤ s then false
    else
      let w := invMod p384N s
      let p := p384Add (p384Mul 384 (beNat hash * w % p384N) ⟨p384Gx, p384Gy, 1⟩) (p384Mul 384 (r * w % p384N) ⟨q.1, q.2, 1⟩)
      p.z != 0 && p.x * invMod p384P (p.z * p.z) % p384P % p384N == r

end Sys2Proof.Machine
end

