-- ==== Sys2Proof/Machine/SurveyCheck.lean ====
section
/-!
DEFINITION. Machine/SurveyCheck.lean: the layout of a Survey image and the load-time checks (R88 to R112, R722).
-/
namespace Sys2Proof.Machine

/-- A refusal: its code, the section table index and the record within the section; 0xFF and 0xFFFFFF for none; and the
uncorrectable granule that caused it (R722). -/
structure SvyFail where
  code : Nat
  sect : Nat := 0xFF
  record : Nat := 0xFFFFFF
  bad : Option (Nat × Bool × Nat) := none
deriving DecidableEq, Repr

/-- A check that must hold. -/
def must (b : Bool) (e : SvyFail) : Option SvyFail := if b then none else some e
/-- The first failure over a list. -/
def firstFail {α : Type} (f : α → Option SvyFail) : List α → Option SvyFail
  | [] => none
  | x :: r => match f x with | some e => some e | none => firstFail f r

/-- A list with the index of each element. -/
def withIndex {α : Type} (l : List α) : List (Nat × α) := (List.range l.length).zip l

def zeros (bs : List Byte) : Bool := bs.all fun b => b == 0

/-! ### The parts of an image -/

/-- A section table entry (Table 3.2). -/
structure Sect where
  idx : Nat
  type : Nat
  recSize : Nat
  recCount : Nat
  off : Nat
  len : Nat
  crc : Nat
  resOk : Bool
deriving DecidableEq, Repr

def readSect (bs : List Byte) (i : Nat) : Sect :=
  let b := 0x80 + 32 * i
  { idx := i, type := leAt bs b 2, recSize := leAt bs (b + 2) 2, recCount := leAt bs (b + 4) 4, off := leAt bs (b + 8) 4,
    len := leAt bs (b + 12) 4, crc := leAt bs (b + 16) 4, resOk := zeros (slice bs (b + 20) 12) }

/-- REC_SIZE by section type (Table 3.3); 0 for a type that does not exist. -/
def sectRecSize (t : Nat) : Nat :=
  match t with
  | 1 => 32 | 2 => 16 | 3 => 16 | 4 => 16 | 5 => 64 | 6 => 64 | 7 => 16 | 8 => 8 | 9 => 64 | 10 => 32 | _ => 0

/-- An image's bytes with its section table. -/
structure RawImage where
  bytes : List Byte
  sects : List Sect
deriving DecidableEq, Repr

def RawImage.sect? (r : RawImage) (t : Nat) : Option Sect := r.sects.find? fun x => x.type == t
def RawImage.count (r : RawImage) (t : Nat) : Nat := (r.sect? t).elim 0 fun x => x.recCount
def RawImage.sectIdx (r : RawImage) (t : Nat) : Nat := (r.sect? t).elim 0xFF fun x => x.idx
/-- Bytes of a section, and a piece of them. -/
def RawImage.sectBytes (r : RawImage) (x : Sect) : List Byte := slice r.bytes x.off x.len
/-- The records of a section with their indices. -/
def RawImage.recs (r : RawImage) (t : Nat) : List (Nat × List Byte) :=
  match r.sect? t with
  | none => []
  | some x => (List.range x.recCount).map fun i => (i, slice r.bytes (x.off + i * x.recSize) x.recSize)
/-- A piece of a section's data area, by offset from the section start, where it lies beyond the record area and inside
the section. -/
def RawImage.data? (r : RawImage) (t off len : Nat) : Option (List Byte) :=
  match r.sect? t with
  | none => none
  | some x => if x.recSize * x.recCount ≤ off ∧ off + len ≤ x.len then some (slice r.bytes (x.off + off) len) else none

/-! ### Checks 2 to 4: the header -/

/-- Check 2, but for IMAGE_LEN against SVY_LOAD_LEN; that the section table fits is R88's, at check 5. -/
def headerOk (bs : List Byte) : Bool :=
  let len := leAt bs 0x08 4
  leAt bs 0 4 == 0x59565350 && leAt bs 0x0C 2 == 128 && len % 64 == 0 && len ≤ 0x1000000 &&
  (7 ≤ leAt bs 0x0E 2 && leAt bs 0x0E 2 ≤ 10) && leAt bs 0x10 4 + 128 == len &&
  leAt bs 0x14 1 == 2 && leAt bs 0x16 2 < 2 && leAt bs 0x24 4 == 0 &&
  zeros (slice bs 0x48 56)

/-! ### Check 5: sections and records -/

/-- Sections against R88, R90 and R91. `lo` is where the next section may begin, `last` the last TYPE. -/
def sectsOk (sigOff : Nat) : Nat → List Sect → Option SvyFail
  | _, [] => none
  | last, x :: r =>
    let e : SvyFail := { code := 3, sect := x.idx }
    match must (x.resOk && last < x.type && sectRecSize x.type != 0 && x.recSize == sectRecSize x.type &&
        x.off % 64 == 0 && x.recSize * x.recCount ≤ x.len && x.off + x.len ≤ sigOff) e with
    | some f => some f
    | none => sectsOk sigOff x.type r

/-- The sections in order of their offsets. -/
def bySectOff : List Sect → List Sect
  | [] => []
  | x :: r => insertSect x (bySectOff r)
where
  insertSect (x : Sect) : List Sect → List Sect
    | [] => [x]
    | y :: r => if x.off ≤ y.off then x :: y :: r else y :: insertSect x r

/-- No section begins before the one before it ends, and the gaps hold zeros. -/
def gapsOk (bs : List Byte) (sigOff : Nat) : Nat → List Sect → Option SvyFail
  | lo, [] => must (zeros (slice bs lo (sigOff - lo))) { code := 3 }
  | lo, x :: r =>
    match must (lo ≤ x.off && zeros (slice bs lo (x.off - lo))) { code := 3, sect := x.idx } with
    | some f => some f
    | none => gapsOk bs sigOff (x.off + x.len) r

/-- The signature block's form (Table 3.4). Table 3.17 names no check for it: it is judged with the form of the sections, at
check 5 with E-SVY-03. Mark: DESIGN CHOICE (log 144). -/
def sigFormOk (sig : List Byte) : Bool :=
  leAt sig 0 2 < 2 && zeros (slice sig 2 6) && zeros (slice sig 0x70 16) && (leAt sig 0 2 == 1 || zeros (slice sig 8 104))

def readTmpl (b : List Byte) : TmplRec :=
  { nameId := leAt b 0 4, span := leAt b 4 2, variants := leAt b 6 1, boundary := leAt b 7 1, cost := leAt b 8 4,
    deadline := leAt b 0x0C 4, role := leAt b 0x10 1, profile := leAt b 0x11 1, lossy := leAt b 0x12 1 % 2 == 1,
    packBound := leAt b 0x12 1 / 2 % 2 == 1, rings := leAt b 0x13 1, drainMs := leAt b 0x14 2, maxInst := leAt b 0x16 2,
    instKib := leAt b 0x18 4, compatKey := leAt b 0x20 8 }

def tmplRecOk (b : List Byte) : Bool :=
  let t := readTmpl b
  (1 ≤ t.span && t.span ≤ 128) && t.variants < 16 && t.variants % 2 == 1 && t.boundary < 2 && t.role < 4 && t.profile < 4 &&
  leAt b 0x12 1 < 4 && t.rings ≤ 8 && t.drainMs ≤ 10000 && (t.drainMs != 0 || t.rings == 0) &&
  (1 ≤ t.maxInst && t.maxInst ≤ 4096) && leAt b 0x1C 4 == 0 && zeros (slice b 0x28 24)

/-- Variant `k` of a template is present. -/
def TmplRec.hasVariant (t : TmplRec) (k : Nat) : Bool := 1 ≤ k && k ≤ 4 && t.variants.testBit (k - 1)
/-- A (template, variant) pair names a variant that exists. -/
def variantOk (ts : List TmplRec) (t k : Nat) : Bool := (ts[t]?).any fun x => x.hasVariant k
/-- Core units of a variant. -/
def coreUnits (ts : List TmplRec) (t k : Nat) : Nat := (ts[t]?).elim 0 fun x => k * x.span

def readProg (r : RawImage) (b : List Byte) : ProgRec :=
  { template := leAt b 0 2, variant := leAt b 2 1, kind := leAt b 3 1, unit := leAt b 4 2, tileBytes := leAt b 0x14 4,
    codeLen := leAt b 0x0C 4, code := (r.data? 1 (leAt b 8 4) (leAt b 0x0C 4)).getD [] }

def progRecOk (r : RawImage) (ts : List TmplRec) (b : List Byte) : Bool :=
  let p := readProg r b
  variantOk ts p.template p.variant && p.kind < 4 && (p.kind == 0) == decide (p.unit < coreUnits ts p.template p.variant) &&
  leAt b 6 2 == 0 && leAt b 8 4 % 16 == 0 && (16 ≤ p.codeLen && p.codeLen ≤ 65536) && p.codeLen % 16 == 0 &&
  (p.kind != 0 || leAt b 0x10 4 < p.codeLen) && leAt b 0x1C 4 == 0 && (r.data? 1 (leAt b 8 4) p.codeLen).isSome

def readKennel (b : List Byte) : KennelRec :=
  { template := leAt b 0 2, variant := leAt b 2 1, host := leAt b 4 2, slots := leAt b 6 2, slotSize := leAt b 8 4 }

def kennelRecOk (ts : List TmplRec) (b : List Byte) : Bool :=
  let k := readKennel b
  variantOk ts k.template k.variant && leAt b 3 1 == 0 && k.host < coreUnits ts k.template k.variant &&
  (1 ≤ k.slots && k.slots ≤ 256) && (64 ≤ k.slotSize && k.slotSize ≤ 65536) && k.slotSize % 64 == 0 && leAt b 12 4 == 0

def readRoute (b : List Byte) : RouteRec :=
  { template := leAt b 0 2, variant := leAt b 2 1, link := leAt b 3 1 % 2 == 1, prodUnit := leAt b 4 2, prodPort := leAt b 6 1,
    consPort := leAt b 7 1, consUnit := leAt b 8 2, kennel := leAt b 10 2, peer := leAt b 12 2 }

/-- Kennels, routes and units of one variant. -/
def kennelsOf (ks : List KennelRec) (t k : Nat) : List KennelRec := ks.filter fun x => x.template == t && x.variant == k
def routesOf (rs : List RouteRec) (t k : Nat) : List RouteRec := rs.filter fun x => x.template == t && x.variant == k
def unitsOf (ps : List ProgRec) (t k : Nat) : List ProgRec := ps.filter fun x => x.template == t && x.variant == k

def routeRecOk (ts : List TmplRec) (ps : List ProgRec) (ks : List KennelRec) (b : List Byte) : Bool :=
  let r := readRoute b
  let units := (unitsOf ps r.template r.variant).length
  variantOk ts r.template r.variant && leAt b 3 1 < 2 && r.prodUnit < units && r.consUnit < units && r.prodPort < 32 &&
  r.consPort < 32 && r.kennel < (kennelsOf ks r.template r.variant).length &&
  (if r.link then 1 ≤ r.peer && r.peer ≤ 2047 else r.peer == 0) && leAt b 14 2 == 0

/-- Two routes of one variant share a port of a unit (R43). -/
def portClash (x y : RouteRec) : Bool :=
  y.template == x.template && y.variant == x.variant &&
    ((y.prodUnit == x.prodUnit && y.prodPort == x.prodPort) || (y.consUnit == x.consUnit && y.consPort == x.consPort))

/-- The first route, by its index, that shares a port with an earlier one. -/
def clashingRoute (rs : List RouteRec) : Option Nat :=
  (List.range rs.length).find? fun i => (rs[i]?).any fun x => (rs.take i).any fun y => portClash x y

/-- Preload messages: each a u32 length and its bytes, padded with zeros to a multiple of 64 (R96). -/
def readPreloads : Nat → List Byte → Option (List (List Byte))
  | 0, bs => if bs.isEmpty then some [] else none
  | n + 1, bs =>
    let len := leAt bs 0 4
    let total := alignUp 64 (4 + len)
    if bs.length < total ∨ len = 0 ∨ ¬zeros (slice bs (4 + len) (total - 4 - len)) then none
    else (readPreloads n (bs.drop total)).map fun r => slice bs 4 len :: r

def readLeash (r : RawImage) (b : List Byte) : LeashRec :=
  { route := leAt b 0 2, init := leAt b 2 2, preloadCount := leAt b 4 2,
    preload := if leAt b 4 2 = 0 then [] else
      ((r.data? 4 (leAt b 8 4) (leAt b 12 4)).bind fun d => readPreloads (leAt b 4 2) d).getD [] }

def leashRecOk (r : RawImage) (ks : List KennelRec) (rs : List RouteRec) (b : List Byte) : Bool :=
  let l := readLeash r b
  match rs[l.route]? with
  | none => false
  | some x =>
    leAt b 6 2 == 0 &&
    (if l.preloadCount = 0 then leAt b 8 4 == 0 && leAt b 12 4 == 0
     else l.preload.length == l.preloadCount &&
      ((kennelsOf ks x.template x.variant)[x.kennel]?).any fun k => l.preload.all fun m => m.length ≤ k.slotSize)

def readWref (b : List Byte) : WrefRec :=
  { modelId := leAt b 0 8, addr := leAt b 8 8, length := leAt b 16 8, template := leAt b 24 2, format := leAt b 26 1,
    recheck := leAt b 27 1 % 2 == 1, check := slice b 32 32 }

/-- The format codes of Table 4.2. -/
def formatOk (f : Nat) : Bool := f ≤ 4 || (0x10 ≤ f && f ≤ 0x14)

def wrefRecOk (ts : List TmplRec) (b : List Byte) : Bool :=
  let w := readWref b
  w.addr % 4096 == 0 && (1 ≤ w.length && w.length ≤ 0x100000000) && (w.template == 0xFFFF || w.template < ts.length) &&
  formatOk w.format && leAt b 27 1 < 2 && leAt b 28 4 == 0

def readNum (b : List Byte) : NumRec :=
  { template := leAt b 0 2, cls := leAt b 2 1, uses := leAt b 3 1, spanPolicy := leAt b 4 1, strict := leAt b 5 1 % 2 == 1,
    numsig := leAt b 8 8 }

def numRecOk (ts : List TmplRec) (b : List Byte) : Bool :=
  let n := readNum b
  n.template < ts.length && n.cls < 4 && n.uses < 8 && n.spanPolicy < 2 && leAt b 5 1 < 2 && leAt b 6 2 == 0

def readOpen (b : List Byte) : OpenRec :=
  { template := leAt b 0 2, variant := leAt b 2 1, rights := leAt b 3 1, buffer := leAt b 4 2, base := leAt b 8 8,
    length := leAt b 16 8 }

def openRecOk (ts : List TmplRec) (b : List Byte) : Bool :=
  let o := readOpen b
  variantOk ts o.template o.variant && o.rights < 4 && leAt b 6 2 == 0 && leAt b 24 8 == 0

def readPack (b : List Byte) : PackRec :=
  { size := leAt b 0 2, profile := leAt b 2 1, fwMajor := leAt b 3 1, whistleMs := leAt b 4 4, admitHash := leAt b 8 8,
    packId := leAt b 16 8 }

def packRecOk (b : List Byte) : Bool :=
  let p := readPack b
  (2 ≤ p.size && p.size ≤ 2048) && p.profile < 3 && p.fwMajor == 2 && (1 ≤ p.whistleMs && p.whistleMs ≤ 60000) &&
  zeros (slice b 24 40)

/-- The records of a section against a test, in order. -/
def recsOk (r : RawImage) (t : Nat) (ok : List Byte → Bool) : Option SvyFail :=
  firstFail (fun x => must (ok x.2) { code := 3, sect := r.sectIdx t, record := x.1 }) (r.recs t)

/-- Each value occurs once. -/
def noRepeats : List Nat → Bool
  | [] => true
  | x :: r => !r.contains x && noRepeats r

/-! ### The certificate (R106) -/

/-- The certificate as it is read: finished runs with the record of each, the run in hand, steps still due for its last
unit, and whether witnesses have begun. -/
structure CertRead where
  runs : List (Nat × CertRun)
  cur : Option (Nat × CertRun)
  left : Nat
  inWitness : Bool
deriving DecidableEq, Repr

/-- A step record's step (Table 3.16), where its fields are in range. -/
def certStep (routes kind a b : Nat) : Option (CertStep × Nat) :=
  match kind with
  | 3 => if a < routes ∧ 1 ≤ b then some (.send a, b) else none
  | 4 => if a < routes ∧ 1 ≤ b then some (.read a, b) else none
  | 5 => if a < 256 ∧ 1 ≤ b then some (.signal a, b) else none
  | 6 => if a < 256 ∧ 1 ≤ b then some (.wait a, b) else none
  | 7 => if b = 0 then some (.write a, 1) else none
  | 8 => if b = 0 then some (.load a, 1) else none
  | _ => none

/-- Append a step to a run's last unit. -/
def CertRun.addStep (r : CertRun) (st : CertStep × Nat) : CertRun :=
  { r with units := match r.units.reverse with
      | (u, l) :: rest => (rest.reverse) ++ [(u, l ++ [st])]
      | [] => [] }

/-- One CERT record read; none where it breaks R106. -/
def CertRead.next (rs : List RouteRec) (st : CertRead) (idx : Nat) (b : List Byte) : Option CertRead :=
  let kind := leAt b 0 1
  let a := leAt b 2 2
  let n := leAt b 4 4
  if leAt b 1 1 ≠ 0 then none
  else if kind = 1 then
    if st.left ≠ 0 then none
    else some { runs := st.runs ++ st.cur.toList, cur := some (idx, { template := a, variant := n, units := [], witness := [] }),
                left := 0, inWitness := false }
  else
    match st.cur with
    | none => none
    | some (i, r) =>
      if kind = 2 then
        if st.left ≠ 0 ∨ st.inWitness ∨ a ≠ r.units.length then none
        else some { st with cur := some (i, { r with units := r.units ++ [(a, [])] }), left := n }
      else if kind = 9 then
        if st.left ≠ 0 ∨ r.units.length ≤ a ∨ n = 0 then none
        else some { st with cur := some (i, { r with witness := r.witness ++ [(a, n)] }), inWitness := true }
      else if st.left = 0 then none
      else (certStep (routesOf rs r.template r.variant).length kind a n).map fun s =>
        { st with cur := some (i, r.addStep s), left := st.left - 1 }

/-- All CERT records read; the index of the first that breaks R106. -/
def readCert (rs : List RouteRec) : CertRead → List (Nat × List Byte) → Except Nat (List (Nat × CertRun))
  | st, [] => if st.left = 0 then .ok (st.runs ++ st.cur.toList) else .error 0xFFFFFF
  | st, (i, b) :: r =>
    match st.next rs i b with
    | some st => readCert rs st r
    | none => .error i

def certStart : CertRead := { runs := [], cur := none, left := 0, inWitness := false }

/-- Every present variant has one run with every unit, and no run names another. -/
def certRunsOk (ts : List TmplRec) (ps : List ProgRec) (runs : List (Nat × CertRun)) : Option SvyFail :=
  match firstFail (fun x => must (variantOk ts x.2.template x.2.variant &&
      x.2.units.length == (unitsOf ps x.2.template x.2.variant).length &&
      (runs.filter fun y => y.2.template == x.2.template && y.2.variant == x.2.variant).length == 1)
      { code := 3, record := x.1 }) runs with
  | some e => some e
  | none =>
    must ((List.range ts.length).all fun t => [1, 2, 3, 4].all fun k =>
      !variantOk ts t k || runs.any fun x => x.2.template == t && x.2.variant == k) { code := 3 }

/-! ### The listing of R108 -/

/-- The state of the listing: Leashes and occupied slots per route, queues of clocks per route and tally, counts per
tally, steps left per unit, vector clocks per unit, and the last writes and reads per buffer. -/
structure Listing where
  lea : Tab Nat
  occ : Tab Nat
  q : Tab (List (Option (Tab Nat)))
  cnt : Tab Nat
  tq : Tab (List (Tab Nat))
  steps : Tab (List (CertStep × Nat))
  vc : Tab (Tab Nat)
  lastw : Tab (Nat × Nat)
  reads : Tab (List (Nat × Nat))
  noted : Bool
deriving DecidableEq, Repr

/-- The larger of each pair of clocks. -/
def clockMax (a b : Tab Nat) : Tab Nat := b.foldl (fun t p => if Tab.getD t p.1 0 < p.2 then Tab.put t p.1 p.2 else t) a

/-- What the listing needs of a variant: routes by index, and the OPEN rights by buffer. -/
structure ListingEnv where
  routes : List RouteRec
  opens : List OpenRec
deriving DecidableEq, Repr

/-- OPEN records grant both kinds; bit 0 is load, bit 1 write. -/
def ListingEnv.opened (e : ListingEnv) (buf rights : Nat) : Bool :=
  e.opens.any fun o => o.buffer == buf && (o.rights &&& rights) == rights

/-- One expanded step of a unit; none is a refusal. -/
def Listing.run1 (e : ListingEnv) (l : Listing) (u : Nat) : Option Listing :=
  match Tab.getD l.steps u [] with
  | [] => none
  | (st, n) :: rest =>
    let l := { l with steps := Tab.put l.steps u (if n ≤ 1 then rest else (st, n - 1) :: rest) }
    let c := Tab.getD l.vc u []
    let me := (Tab.getD c u 0 + 1) % 2 ^ 32
    let c := Tab.put c u me
    let l := { l with vc := Tab.put l.vc u c }
    match st with
    | .send a =>
      if (e.routes[a]?).all (fun r => r.prodUnit ≠ u) ∨ Tab.getD l.lea a 0 = 0 then none
      else some { l with lea := Tab.put l.lea a (Tab.getD l.lea a 0 - 1), occ := Tab.put l.occ a (Tab.getD l.occ a 0 + 1),
                         q := Tab.put l.q a (Tab.getD l.q a [] ++ [some c]) }
    | .read a =>
      if (e.routes[a]?).all (fun r => r.consUnit ≠ u) ∨ Tab.getD l.occ a 0 = 0 then none
      else
        let l := { l with occ := Tab.put l.occ a (Tab.getD l.occ a 0 - 1), lea := Tab.put l.lea a (Tab.getD l.lea a 0 + 1) }
        match Tab.getD l.q a [] with
        | v :: r => some { l with q := Tab.put l.q a r, vc := Tab.put l.vc u (match v with | some x => clockMax c x | none => c) }
        | [] => some l
    | .signal a => some { l with cnt := Tab.put l.cnt a (Tab.getD l.cnt a 0 + 1), tq := Tab.put l.tq a (Tab.getD l.tq a [] ++ [c]) }
    | .wait a =>
      if Tab.getD l.cnt a 0 = 0 then none
      else
        let l := { l with cnt := Tab.put l.cnt a (Tab.getD l.cnt a 0 - 1) }
        match Tab.getD l.tq a [] with
        | v :: r => some { l with tq := Tab.put l.tq a r, vc := Tab.put l.vc u (clockMax c v) }
        | [] => some l
    | .write b =>
      let note1 := (Tab.find? l.lastw b).any fun p => p.1 ≠ u && Tab.getD c p.1 0 < p.2 && !e.opened b 2
      let note2 := (Tab.getD l.reads b []).any fun p => p.1 ≠ u && Tab.getD c p.1 0 < p.2 && !e.opened b 3
      some { l with noted := l.noted || note1 || note2, lastw := Tab.put l.lastw b (u, me), reads := Tab.put l.reads b [] }
    | .load b =>
      let note1 := (Tab.find? l.lastw b).any fun p => p.1 ≠ u && Tab.getD c p.1 0 < p.2 && !e.opened b 3
      some { l with noted := l.noted || note1, reads := Tab.put l.reads b (Tab.getD l.reads b [] ++ [(u, me)]) }

/-- A witness entry: `n` expanded steps of a unit. -/
def Listing.runN (e : ListingEnv) (u : Nat) : Nat → Listing → Option Listing
  | 0, l => some l
  | n + 1, l => (l.run1 e u).bind (Listing.runN e u n)

/-- The whole witness. -/
def Listing.runAll (e : ListingEnv) : List (Nat × Nat) → Listing → Option Listing
  | [], l => some l
  | (u, n) :: r, l => (Listing.runN e u n l).bind (Listing.runAll e r)

/-- A variant's routes with their capacities and LEASH records. -/
structure VariantRoutes where
  routes : List RouteRec
  caps : List Nat
  leashes : List (Nat × Nat)
deriving DecidableEq, Repr

/-- The verdict on a variant: none is refused; otherwise whether it made a note. -/
def certVerdict (v : VariantRoutes) (opens : List OpenRec) (r : CertRun) : Option Bool :=
  let e : ListingEnv := { routes := v.routes, opens := opens }
  let idx := List.range v.routes.length
  let l : Listing := {
    lea := idx.map fun i => (i, (v.leashes.getD i (0, 0)).1), occ := idx.map fun i => (i, (v.leashes.getD i (0, 0)).2)
    q := idx.map fun i => (i, List.replicate (v.leashes.getD i (0, 0)).2 none), cnt := [], tq := []
    steps := r.units, vc := [], lastw := [], reads := [], noted := false }
  (l.runAll e r.witness).bind fun l =>
    if l.steps.all (fun p => p.2.isEmpty) && idx.all (fun i => Tab.getD l.occ i 0 == 0 && Tab.getD l.lea i 0 == v.caps.getD i 0) &&
        l.cnt.all (fun p => p.2 == 0) then some l.noted else none

/-! ### All checks -/

/-- The image the records spell. -/
structure Parsed where
  raw : RawImage
  image : Image
  certs : List (Nat × CertRun)
deriving DecidableEq, Repr

/-- Capacity of a route record's Kennel. -/
def kennelOf (ks : List KennelRec) (r : RouteRec) : Option KennelRec := (kennelsOf ks r.template r.variant)[r.kennel]?

/-- Check 5: the form of sections and records; the parsed image where all hold. -/
def check5 (bs : List Byte) (signed : Bool) : Except SvyFail Parsed :=
  let raw : RawImage := { bytes := bs, sects := (List.range (leAt bs 0x0E 2)).map (readSect bs) }
  let sigOff := bs.length - 128
  let tableEnd := 0x80 + 32 * raw.sects.length
  let tb := raw.recs 6
  let ts := tb.map fun x => readTmpl x.2
  let ps := (raw.recs 1).map fun x => readProg raw x.2
  let ks := (raw.recs 2).map fun x => readKennel x.2
  let rs := (raw.recs 3).map fun x => readRoute x.2
  let ns := (raw.recs 7).map fun x => readNum x.2
  let allVariants := (List.range ts.length).flatMap fun t => ([1, 2, 3, 4].filter fun k => variantOk ts t k).map fun k => (t, k)
  let fail : Option SvyFail :=
    must (tableEnd ≤ sigOff) { code := 3 }
    <|> sectsOk sigOff 0 raw.sects
    <|> gapsOk bs sigOff tableEnd (bySectOff raw.sects)
    <|> must ([1, 2, 3, 4, 6, 7, 8].all fun t => (raw.sect? t).isSome) { code := 3 }
    <|> must (sigFormOk (slice bs sigOff 128)) { code := 3 }
    <|> must (leAt bs 0x20 4 == raw.count 6) { code := 3, sect := raw.sectIdx 6 }
    <|> recsOk raw 6 tmplRecOk
    <|> must (noRepeats (ts.map fun t => t.nameId)) { code := 3, sect := raw.sectIdx 6 }
    <|> recsOk raw 1 (progRecOk raw ts)
    <|> recsOk raw 1 (fun x => (readProg raw x).kind != 0 || !Config.scanReserved (readProg raw x).code)
    <|> firstFail (fun v =>
        let us := (unitsOf ps v.1 v.2).map fun p => p.unit
        must (noRepeats us && (List.range (max us.length (coreUnits ts v.1 v.2))).all us.contains)
          { code := 3, sect := raw.sectIdx 1 }) allVariants
    <|> recsOk raw 2 (kennelRecOk ts)
    <|> recsOk raw 3 (routeRecOk ts ps ks)
    <|> (clashingRoute rs).bind fun i => some { code := 3, sect := raw.sectIdx 3, record := i }
    <|> recsOk raw 4 (leashRecOk raw ks rs)
    <|> recsOk raw 5 (wrefRecOk ts)
    <|> recsOk raw 7 (numRecOk ts)
    <|> must ((List.range ts.length).all fun t => (ns.filter fun n => n.template == t).length == 1)
        { code := 3, sect := raw.sectIdx 7 }
    <|> recsOk raw 9 packRecOk
    <|> recsOk raw 10 (openRecOk ts)
  match fail with
  | some e => .error e
  | none =>
    match readCert rs certStart (raw.recs 8) with
    | .error i => .error { code := 3, sect := raw.sectIdx 8, record := i }
    | .ok runs =>
      match certRunsOk ts ps runs with
      | some e => .error { e with sect := raw.sectIdx 8 }
      | none => .ok {
          raw := raw, certs := runs
          image := {
            id := hashId (bs.take sigOff), signed := signed, packBound := leAt bs 0x16 2 % 2 == 1
            progs := ps, kennels := ks, routes := rs, leashes := (raw.recs 4).map fun x => readLeash raw x.2
            wrefs := (raw.recs 5).map fun x => readWref x.2, tmpls := ts, nums := ns, certs := runs.map Prod.snd
            pack := ((raw.recs 9).head?).map fun x => readPack x.2, opens := (raw.recs 10).map fun x => readOpen x.2 } }

/-- Check 6: section and code CRCs. -/
def check6 (p : Parsed) : Option SvyFail :=
  firstFail (fun x => must (crc32c (p.raw.sectBytes x) == x.crc) { code := 4, sect := x.idx }) p.raw.sects
  <|> firstFail (fun (x : Nat × List Byte) =>
      must (crc32c (readProg p.raw x.2).code == leAt x.2 0x18 4) { code := 4, sect := p.raw.sectIdx 1, record := x.1 })
      (p.raw.recs 1)

/-- Checks 7 and 8 (R631, R632): the signature under a key enrolled for the function; an image whose key is not enrolled for
it is not verified. -/
def check78 (s : State) (fn : Nat) (bs : List Byte) : Option SvyFail :=
  let sigOff := bs.length - 128
  let sig := slice bs sigOff 128
  if leAt sig 0 2 = 0 then must s.cad.allowUnsigned { code := 6 }
  else
    match s.cad.keys.find? fun k => k.id.toNat == leAt sig 8 8 && k.mask.getLsbD fn with
    | none => some { code := 6 }
    | some k => must (ecdsaVerify k.key (sha384 (bs.take sigOff)) (slice sig 0x10 48) (slice sig 0x40 48)) { code := 5 }

/-- The core unit whose core hosts a route's Kennel: the consumer where it is a core unit, else the one the Kennel names
(R44). -/
def Image.hostUnit (i : Image) (r : RouteRec) : Nat :=
  if r.consUnit < coreUnits i.tmpls r.template r.variant then r.consUnit
  else (kennelOf i.kennels r).elim 0 fun k => k.host

/-- Bytes of a route's Kennel. -/
def Image.kennelLen (i : Image) (r : RouteRec) : Nat := (kennelOf i.kennels r).elim 0 fun k => k.slots * k.slotSize

/-- Sum of a list of numbers. -/
def sumOf (l : List Nat) : Nat := l.foldl (fun n x => n + x) 0

/-- Kennel bytes a core unit of a variant hosts: those of its routes' Kennels, and of Kennels that no route uses. -/
def Image.kennelBytes (i : Image) (t k u : Nat) : Nat :=
  let rs := routesOf i.routes t k
  sumOf ((rs.filter fun r => i.hostUnit r == u).map i.kennelLen) +
  sumOf (((withIndex (kennelsOf i.kennels t k)).filter fun x => x.2.host == u && rs.all fun r => r.kennel != x.1).map fun x =>
    x.2.slots * x.2.slotSize)

/-- Expanded steps of a certificate run (R106). -/
def CertRun.expanded (r : CertRun) : Nat := r.units.foldl (fun n u => u.2.foldl (fun m x => m + x.2) n) 0

/-- Check 9: the sums and counts of Tables 2.2 and 3.18. -/
def check9 (s : State) (p : Parsed) : Option SvyFail :=
  let i := p.image
  must (i.tmpls.length ≤ 256) { code := 8, sect := p.raw.sectIdx 6 }
  <|> firstFail (fun (x : Nat × TmplRec) =>
      must (x.2.span ≤ s.poolCount && [1, 2, 3, 4].all fun k => !x.2.hasVariant k || k * x.2.span ≤ 128)
        { code := 8, sect := p.raw.sectIdx 6, record := x.1 }) (withIndex i.tmpls)
  <|> firstFail (fun (r : Nat × CertRun) =>
      let t := r.2.template
      let k := r.2.variant
      let us := unitsOf i.progs t k
      must ((us.filter fun u => u.kind != 0).length ≤ 16) { code := 8, sect := p.raw.sectIdx 1 }
      <|> must ((us.filter fun u => u.kind == 0).all fun u =>
          i.kennelBytes t k u.unit ≤ 0x100000 && u.tileBytes + i.kennelBytes t k u.unit ≤ 0x200000)
          { code := 8, sect := p.raw.sectIdx 2 }
      <|> must ((routesOf i.routes t k).length ≤ 1024) { code := 8, sect := p.raw.sectIdx 3 }
      <|> must (r.2.expanded ≤ 16777216 && r.2.witness.length ≤ 1048576) { code := 8, sect := p.raw.sectIdx 8, record := r.1 })
      p.certs
  <|> must (i.wrefs.length ≤ 1024) { code := 8, sect := p.raw.sectIdx 5 }
  <|> must (i.opens.length ≤ 64) { code := 8, sect := p.raw.sectIdx 10 }

/-- Check 10: Table 3.12. -/
def numOk (i : Image) (n : NumRec) : Bool :=
  (match n.cls with
   | 0 => n.uses == 0 && n.numsig == 0
   | 1 => n.uses == 1 && n.numsig != 0
   | 2 => n.spanPolicy == 0 && n.numsig != 0
   | _ => n.spanPolicy == 1 && n.numsig != 0) &&
  (n.spanPolicy == 1 || (i.tmpls[n.template]?).all fun t => t.variants == 1)

/-- The code scan of R190: a template declares the instructions its core units' code holds. -/
def scanOk (i : Image) (n : NumRec) : Bool :=
  (i.progs.filter fun p => p.template == n.template && p.kind == 0).all fun p =>
    (n.uses.testBit 0 || !Config.scanFp32 p.code) && (n.uses.testBit 2 || !Config.scanFreeRow p.code)

/-- Check 11: Table 3.13 and the OPEN rule of R102, for which Table 3.17 names no code of its own: E-SVY-14 like the rest of
R102. Mark: DESIGN CHOICE (log 144). -/
def profileOk (i : Image) (x : Nat × TmplRec) : Bool :=
  let t := x.2
  (i.numOf x.1).all (fun n =>
    match t.profile with
    | 1 => (t.role != 1 && t.role != 2) || n.cls == 0
    | 2 => if t.role = 1 then (n.cls == 0 || n.cls == 2) && n.spanPolicy == 0 else t.role != 2 || n.cls == 0
    | 3 => n.cls == 0
    | _ => true) &&
  ((t.role != 1 && t.role != 2) || i.opens.all fun o => o.template != x.1)

/-- Check 12: R103 and R104. A PACK record field out of its own range has failed check 5 before (E-SVY-03): Table 3.17 names
both rows for it, and the first failure ends the load. Mark: DESIGN CHOICE (log 144). -/
def check12 (p : Parsed) : Option SvyFail :=
  let i := p.image
  let e : SvyFail := { code := 22, sect := p.raw.sectIdx 9, record := if p.raw.count 9 = 0 then 0xFFFFFF else 0 }
  must ((i.packBound == (p.raw.sect? 9).isSome) && (!i.packBound || p.raw.count 9 == 1)) e
  <|> firstFail (fun (x : Nat × TmplRec) => must (!x.2.packBound || (i.packBound && x.2.boundary == 0))
      { code := 22, sect := p.raw.sectIdx 6, record := x.1 }) (withIndex i.tmpls)
  <|> firstFail (fun (x : Nat × RouteRec) => must (!x.2.link || (i.tmpls[x.2.template]?).any fun t => t.packBound)
      { code := 22, sect := p.raw.sectIdx 3, record := x.1 }) (withIndex i.routes)

/-- LEASH records of a route, by section-wide route index. -/
def leashesOf (i : Image) (r : Nat) : List LeashRec := i.leashes.filter fun l => l.route == r

/-- Check 14: R52 and one LEASH record per route. -/
def check14 (p : Parsed) : Option SvyFail :=
  let i := p.image
  firstFail (fun (x : Nat × RouteRec) =>
    match leashesOf i x.1 with
    | [l] => must ((kennelOf i.kennels x.2).any fun k => l.init + l.preloadCount == k.slots)
        { code := 10, sect := p.raw.sectIdx 4, record := (i.leashes.findIdx fun y => y.route == x.1) }
    | _ => some { code := 10, sect := p.raw.sectIdx 3, record := x.1 }) (withIndex i.routes)

/-- Check 15: a weight region lies in device memory, holds no uncorrectable granule and matches its CHECK. -/
def wrefFail (s : State) (ue : UeList) (sect : Nat) (x : Nat × WrefRec) : Option SvyFail :=
  let w := x.2
  if devTop < w.addr + w.length then some { code := 11, sect := sect, record := x.1 }
  else
    match s.badGranule ue (granules w.addr w.length) with
    | some b => some { code := 11, sect := sect, record := x.1, bad := some b }
    | none => must ((sha384 (s.peek w.addr w.length)).take 32 == w.check) { code := 11, sect := sect, record := x.1 }

/-- The routes of a variant with capacities and LEASH values. -/
def Image.variantRoutes (i : Image) (t k : Nat) : VariantRoutes :=
  let rs := (withIndex i.routes).filter fun x => x.2.template == t && x.2.variant == k
  { routes := rs.map Prod.snd, caps := rs.map fun x => (kennelOf i.kennels x.2).elim 0 fun y => y.slots
    leashes := rs.map fun x => ((leashesOf i x.1).head?).elim (0, 0) fun l => (l.init, l.preloadCount) }

/-- The certificate runs by template and then by variant. -/
def sortedRuns (p : Parsed) : List (Nat × CertRun) :=
  (List.range p.image.tmpls.length).flatMap fun t => [1, 2, 3, 4].flatMap fun k =>
    p.certs.filter fun x => x.2.template == t && x.2.variant == k

/-- Checks 16 and 17: the listing of R108 on every variant. -/
def check1617 (p : Parsed) : Option SvyFail :=
  let verdicts := (sortedRuns p).map fun x =>
    (x.1, certVerdict (p.image.variantRoutes x.2.template x.2.variant)
      (p.image.opens.filter fun o => o.template == x.2.template && o.variant == x.2.variant) x.2)
  match verdicts.find? fun v => v.2.isNone with
  | some v => some { code := 9, sect := p.raw.sectIdx 8, record := v.1 }
  | none =>
    match verdicts.find? fun v => v.2 == some true with
    | some v => some { code := 15, sect := p.raw.sectIdx 8, record := v.1 }
    | none => none

/-- The section and the record that contain an offset of the image, where one does, for a bad granule (R722). -/
def placeIn (bs : List Byte) (off : Nat) : SvyFail :=
  match ((List.range (leAt bs 0x0E 2)).map (readSect bs)).find? fun x => x.off ≤ off && off < x.off + x.len with
  | none => { code := 4 }
  | some x =>
    { code := 4, sect := x.idx
      record := if off < x.off + x.recSize * x.recCount then (off - x.off) / x.recSize else 0xFFFFFF }

/-- The Handler firmware in use. -/
def State.firmware (s : State) : FwImage := if s.cad.fwBank then s.cad.bankB else s.cad.bankA

/-- All load-time checks in the order of Table 3.17. The loader reads the whole staged image after check 1, and an
uncorrectable granule ends the load there (R722). -/
def State.checkLoad (s : State) (ue : UeList) (q : LoadReq) : Except SvyFail (Image × List Byte) :=
  let a := q.addr.toNat
  let n := q.len.toNat
  if a % 64 ≠ 0 ∨ devTop < a + n then .error { code := 23 }
  else
    let bs := s.peek a n
    match s.badGranule ue (granules a n) with
    | some b => .error { placeIn bs (b.1 - a) with bad := some b }
    | none =>
      match must (headerOk bs && leAt bs 8 4 == n) { code := 1 }
        <|> must (leAt bs 4 2 == 1 && leAt bs 6 2 == 0) { code := 2 }
        <|> must (decide (q.fwMajor.toNat = 2 ∧ leAt bs 0x15 1 ≤ q.fwMinor.toNat)) { code := 7 } with
      | some e => .error e
      | none =>
        match check5 bs (leAt bs (n - 128) 2 == 1) with
        | .error e => .error e
        | .ok p =>
          match check6 p <|> check78 s q.fn bs <|> check9 s p
            <|> firstFail (fun (x : Nat × NumRec) => must (numOk p.image x.2 && scanOk p.image x.2)
                { code := 12, sect := p.raw.sectIdx 7, record := x.1 }) (withIndex p.image.nums)
            <|> firstFail (fun (x : Nat × TmplRec) => must (profileOk p.image x)
                { code := 14, sect := p.raw.sectIdx 6, record := x.1 }) (withIndex p.image.tmpls)
            <|> check12 p
            <|> firstFail (fun (x : Nat × NumRec) => must (!x.2.strict || x.2.numsig == q.numsig.toNat)
                { code := 13, sect := p.raw.sectIdx 7, record := x.1 }) (withIndex p.image.nums)
            <|> check14 p
            <|> firstFail (wrefFail s ue (p.raw.sectIdx 5)) (withIndex p.image.wrefs)
            <|> check1617 p with
          | some e => .error e
          | none => .ok (p.image, sha384 (bs.take (n - 128)))

end Sys2Proof.Machine
end

