-- ==== Sys2Proof/Machine/Survey.lean ====
section
/-!
DEFINITION. Machine/Survey.lean: Survey slots and load requests (R117 to R125, R132, R135), and when an instance moves to
another image (R119).
-/
namespace Sys2Proof.Machine

/-! ### Who runs on a slot's images -/

/-- An instance uses an image of a slot: it runs on it, or its oldest frame was first dispatched on it (R120). -/
def Ctx.uses (x : Ctx) (slot gen : Nat) : Bool :=
  x.st != .free && x.slot.toNat == slot && (x.gen == gen || x.held.head?.any fun f => f.firstGen == some gen)
/-- How many instances use an image of a slot. -/
def State.usersOf (s : State) (slot gen : Nat) : Nat := (s.hrd.ctxs.filter fun p => p.2.uses slot gen).length

/-- Free what nothing runs on: a retained image with no instance, and an UNLOADING slot with none (R118, R122). -/
def State.settleSlot (s : State) (n : Nat) : State :=
  let x := s.slot n
  let x : Slot := match x.retained with
    | some l => if s.usersOf n l.gen = 0 then { x with retained := none } else x
    | none => x
  let busy : Bool := x.retained.isSome || x.current.any fun l => decide (s.usersOf n l.gen ≠ 0)
  s.setSlot n (if x.state = .unloading ∧ busy = false then { x with state := .empty, current := none } else x)

/-! ### Requests -/

/-- BAR0 offset of SVY_LOAD_CTRL. -/
def svyCtrlOff : Nat := 0x200014

/-- A request ends with a code: BUSY falls, DONE is set, and a refusal is reported. -/
def State.svyEnd (s : State) (fn slot : Nat) (e : SvyFail) : State :=
  let s := s.modFn fn fun g => { g with svy := { g.svy with
    busy := false, done := true, code := BitVec.ofNat 8 e.code, section_ := BitVec.ofNat 8 e.sect, record := BitVec.ofNat 24 e.record } }
  if e.code = 0 then s else s.report { blk := .svy, nn := e.code, func := some fn, unit := .slot slot }

/-- A load or replacement of a slot is queued or running. -/
def State.slotPending (s : State) (n : Nat) : Bool :=
  s.svy.queue.any (fun q => q.slot == n) || s.svy.running.any fun q => q.slot == n

/-- The refusal of an operation at GO, ownership first (R135); 0 where it is accepted. A slot for which a load or replacement
is queued or running takes no second one: it is no longer EMPTY, or no longer free of a retained image, by the time a second
would run, and every refusal is given at GO (R125; DEDUCED, log 145). -/
def State.svyRefusal (s : State) (fn slot op : Nat) : Nat :=
  let x := s.slot slot
  if x.owner.toNat ≠ fn then 17
  else
    match op with
    | 0 => if x.state = .empty ∧ ¬s.slotPending slot then 0 else 16
    | 1 => if x.state = .loaded ∧ x.retained.isNone ∧ ¬s.slotPending slot then 0 else 16
    | 2 => if x.state = .loaded ∧ ¬s.slotPending slot then 0 else 16
    | _ => 16

/-- A locked write to an SVY_ field (E-SVY-18). -/
def State.svyLocked (s : State) (fn off value : Nat) : State :=
  State.lockedRecord { s with svy := { s.svy with fieldLocked := true } } .svy 18 fn off value

/-- A write of SVY_LOAD_CTRL with GO (Table 3.26): ignored with one E-SVY-18 record while BUSY; else refused, queued,
or, for an unload, done at once. A replacement or unload of the slot of a FORMING or FORMED Pack has no effect (R546). `value` is
what was written. -/
def State.svyGo (s : State) (fn slot op value : Nat) : State :=
  if (s.fn fn).svy.busy then
    s.svyLocked fn svyCtrlOff value
  else
    let code := s.svyRefusal fn slot op
    let s := s.modFn fn fun g => { g with svy := { g.svy with slot := BitVec.ofNat 4 slot, op := BitVec.ofNat 2 op } }
    if code ≠ 17 ∧ (op = 1 ∨ op = 2) ∧ s.pck.busy ∧ s.pck.slot.toNat = slot then s.pckReport 10 .none none none
    else if code ≠ 0 then s.svyEnd fn slot { code := code }
    else if op = 2 then
      ((s.setSlot slot { s.slot slot with state := .unloading }).settleSlot slot).svyEnd fn slot { code := 0 }
    else
      let q : LoadReq := { fn := fn, slot := slot, replace := op == 1, addr := (s.fn fn).svy.addr.setWidth 64 <<< 6, len := (s.fn fn).svy.len }
      State.modFn { s with svy := { s.svy with queue := s.svy.queue ++ [q] } } fn fun g => { g with svy := { g.svy with
        busy := true, done := false } }

/-- SVY_LOAD_CTRL with GO, an operation and a slot (Table 3.26). -/
def svyGoValue (slot op : Nat) : Nat := 2 ^ 31 + op * 16 + slot

/-- LOAD_REQUEST (R118). -/
def execLoadRequest (fn slot : Nat) (s : State) : Host.Outcome State Fault Refusal :=
  .next (if s.hostReach fn then s.svyGo fn slot 0 (svyGoValue slot 0) else s)
/-- REPLACE_REQUEST (R118). -/
def execReplaceRequest (fn slot : Nat) (s : State) : Host.Outcome State Fault Refusal :=
  .next (if s.hostReach fn then s.svyGo fn slot 1 (svyGoValue slot 1) else s)
/-- UNLOAD_REQUEST (R118, R125, R132). -/
def execUnloadRequest (fn slot : Nat) (s : State) : Host.Outcome State Fault Refusal :=
  .next (if s.hostReach fn then s.svyGo fn slot 2 (svyGoValue slot 2) else s)
/-- INVALID_SURVEY_OP (R135). -/
def execInvalidSurveyOp (fn slot : Nat) (s : State) : Host.Outcome State Fault Refusal :=
  .next (if s.hostReach fn then s.svyGo fn slot 3 (svyGoValue slot 3) else s)

/-! ### What the Herder and the loader share -/

/-- A running instance of the previous image would not move to a new one (R119): BOUNDARY 1, but no template of the
same name and key, or not with the variant it would next use. -/
def migrateTo (old new : Image) (t k : Nat) : Option Nat :=
  match old.tmpls[t]? with
  | none => none
  | some a =>
    if a.boundary ≠ 1 then none
    else
      match (withIndex new.tmpls).find? fun x => x.2.nameId == a.nameId && x.2.compatKey == a.compatKey with
      | some x => if x.2.hasVariant k then some x.1 else none
      | none => none

/-- E-SVY-20 for a slot, once for a slot commit (R119). -/
def State.skipReport (s : State) (slot c : Nat) : State :=
  if (s.slot slot).skipReported then s
  else
    let s := s.setSlot slot { s.slot slot with skipReported := true }
    State.report { s with svy := { s.svy with migrateSkip := true } }
      { blk := .svy, nn := 20, func := some (s.ctx c).func, unit := .slot slot, ctx := some c }

/-- An uncorrectable granule the loader or a recheck met: poisoned and recorded, no frame is lost (R722). -/
def State.loaderGranule (s : State) (fn : Nat) (e : SvyFail) : State :=
  match e.bad with
  | none => s
  | some (g, newly, source) => s.memError 2 g source newly { blk := .mem, nn := 2, cls := some .reportOnly, func := some fn }

end Sys2Proof.Machine
end

