-- ==== Sys2Proof/Machine/Whistle.lean ====
section
/-!
DEFINITION. Machine/Whistle.lean: the binding fingerprint and the barriers of Pack jobs (R531, R536 to R542).
-/
namespace Sys2Proof.Machine

/-- The binding fingerprint (Table 15.4) of an image on this module. -/
def State.fingerprint (s : State) (l : Loaded) : List Byte :=
  let p : PackRec := l.image.pack.getD { size := 0, profile := 0, fwMajor := 0, whistleMs := 0, admitHash := 0, packId := 0 }
  l.hash.take 16 ++ natLe 8 p.packId ++ natLe 8 s.pck.admitHash.toNat ++ natLe 8 s.numsig.toNat ++ natLe 2 p.size ++
  natLe 1 s.sup.profile.toNat ++ natLe 1 s.firmware.major.toNat ++
  ([0, 1, 2, 3].flatMap fun d => natLe 1 (s.pck.dim d)) ++ natLe 4 p.whistleMs ++
  natLe 1 (if s.pck.skewFault then 0 else 1) ++ List.replicate 11 0

/-- The digest of the fingerprint of a context's image (R531). -/
def State.digestOf (s : State) (c : Nat) : BitVec 32 :=
  match s.imageOf (s.ctx c).slot.toNat (s.ctx c).gen with
  | some l => BitVec.ofNat 32 (crc32c (s.fingerprint l))
  | none => 0

/-- The smaller of two optional numbers. -/
def optMin : Option Nat → Option Nat → Option Nat
  | some a, some b => some (min a b)
  | some a, none => some a
  | none, b => b

/-- Own readiness and the children's arrivals combined: a child whose frame or digest differs is named (R536). -/
def State.combine (s : State) (c frame : Nat) (arrivals : List (Nat × Arrive)) : Arrive :=
  let own : Arrive := { frame := frame, digest := s.digestOf c, epochOk := !s.pck.skewFault, differs := none, members := 1 }
  arrivals.foldl (fun a p =>
    let b := p.2
    let here := if b.frame = own.frame ∧ b.digest = own.digest then none else s.pck.neighbour s.pck.me p.1
    { a with epochOk := a.epochOk && b.epochOk, differs := optMin a.differs (optMin b.differs here),
             members := a.members + b.members }) own

/-- Change the head frame's standing with its barrier. -/
def State.setWhistle (s : State) (c : Nat) (w : Whistle) : State := s.modHead c fun f => { f with whistle := some w }

/-- The code of an abort: E-HRD-11, or an E-PCK code. -/
def abortErr (code : Nat) : Err := if code = 11 then ⟨.hrd, 11⟩ else ⟨.pck, code⟩

/-- This member records an abort's code and acts on it (R541). -/
def State.abortHere (s : State) (j frame code member : Nat) : State :=
  let c := (s.job j).ctx.toNat
  let s := if code = 11 then s.hrdReport c 11 (some frame)
    else s.pckFail code member 0 (some c) (some frame)
  s.abortJob j (abortErr code)

/-- The master aborts a job: ABORT goes down the tree (R536). -/
def State.masterAbort (s : State) (j frame code member : Nat) : State :=
  (s.toChildren (.abort j frame code)).abortHere j frame code member

/-- A job's frame is released for a time. -/
def State.releaseFrame (s : State) (j frame : Nat) (t : DWord) : State :=
  let x := s.job j
  let s := s.setJob j { x with barrier := none, running := true, frame := BitVec.ofNat 16 frame, failSent := none }
  s.setWhistle x.ctx.toNat (.scheduled t)

/-- The barrier of a job goes on once this member is ready and every child has arrived (R536). -/
def State.barrierStep (s : State) (j : Nat) : State :=
  let x := s.job j
  match x.barrier with
  | none => s
  | some b =>
    if s.pck.state ≠ .formed || !b.selfReady || b.sentAt.isSome || !(s.pck.childPorts.all fun p => b.arrivals.any fun a => a.1 == p) then s
    else
      let a := s.combine x.ctx.toNat b.frame b.arrivals
      if s.pck.isMaster then
        match a.differs with
        | some m => s.masterAbort j b.frame 5 m
        | none =>
          if a.members ≠ s.pck.size then s.masterAbort j b.frame 5 0
          else if !a.epochOk then s.masterAbort j b.frame 6 0
          else
            let t := s.epoch + s.pck.lead.setWidth 64
            (s.toChildren (.release j b.frame t)).releaseFrame j b.frame t
      else
        (s.toParent (.arrive j a.frame a.digest a.epochOk a.differs a.members)).setJob j
          { x with barrier := some { b with sentAt := some s.now } }

/-- A Pack-bound context's next frame has arrived: this member is ready for its barrier (R536, R540). -/
def State.barrierReady (s : State) (c : Nat) : State :=
  match s.jobOfCtx c, (s.ctx c).held with
  | some j, f :: _ =>
    if f.whistle ≠ some .waiting then s
    else
      let b := ((s.job j).barrier).getD {}
      let b : Barrier := { b with frame := f.no, selfReady := true, timer := some (b.timer.getD s.now) }
      (s.modJob j fun x => { x with barrier := some b }).barrierStep j
  | _, _ => s

/-- WHISTLE_ARRIVE (R536, R540, R541): the ARRIVE of a child's subtree; one for an unbound job is discarded. -/
def execWhistleArrive (port job frame : Nat) (digest : Word) (epochOk : Bool) (differs : Option Nat) (members : Nat)
    (s : State) : Host.Outcome State Fault Refusal :=
  let x := s.job job
  if !s.alive || !x.valid || !s.pck.busy || !s.pck.childPorts.contains port then .next s
  else
    let b := x.barrier.getD { frame := frame }
    if b.arrivals.any fun a => a.1 == port then .next s
    else
      let a : Arrive := { frame := frame, digest := digest, epochOk := epochOk, differs := differs, members := members }
      let b : Barrier := { b with arrivals := b.arrivals ++ [(port, a)], timer := some (b.timer.getD s.now) }
      .next ((s.setJob job { x with barrier := some b }).barrierStep job)

/-- The barrier a member has sent its ARRIVE for. -/
def Job.awaits (x : Job) (frame : Nat) : Bool := x.barrier.any fun b => b.sentAt.isSome && b.frame == frame

/-- WHISTLE_RELEASE (R536, R537): forwarded down the tree; a release after its time takes effect on receipt. -/
def execWhistleRelease (port job frame : Nat) (time : DWord) (s : State) : Host.Outcome State Fault Refusal :=
  let x := s.job job
  if !s.alive || s.pck.parentPort s.pck.me ≠ some port || !x.valid || !x.awaits frame then .next s
  else
    let s := (s.toChildren (.release job frame time)).releaseFrame job frame time
    if s.epoch.toNat ≤ time.toNat then .next s
    else .next ((s.setWhistle x.ctx.toNat .released).pckReport 14 .none (some x.ctx.toNat) (some frame))

/-- WHISTLE_RELEASE_TIME (R536): the epoch has reached the release time. -/
def execWhistleReleaseTime (job : Nat) (s : State) : Host.Outcome State Fault Refusal :=
  let c := (s.job job).ctx.toNat
  match (s.ctx c).held.head?.bind fun f => f.whistle with
  | some (.scheduled t) => .next (if s.alive ∧ t.toNat ≤ s.epoch.toNat then s.setWhistle c .released else s)
  | _ => .next s

/-- WHISTLE_ABORT (R541). -/
def execWhistleAbort (port job frame code : Nat) (s : State) : Host.Outcome State Fault Refusal :=
  if !s.alive || s.pck.parentPort s.pck.me ≠ some port || !(s.job job).valid then .next s
  else .next (s.masterAbort job frame code 0)

/-- BARRIER_TIMEOUT (R540): the master's timer. -/
def execBarrierTimeout (job : Nat) (s : State) : Host.Outcome State Fault Refusal :=
  match (s.job job).barrier with
  | some b => .next (if s.alive && (s.job job).valid && s.pck.isMaster && b.timer.isSome then s.masterAbort job b.frame 7 0 else s)
  | none => .next s

/-- ARRIVE_TIMEOUT (R540): neither RELEASE nor ABORT has come. -/
def execArriveTimeout (job : Nat) (s : State) : Host.Outcome State Fault Refusal :=
  match (s.job job).barrier with
  | some b => .next (if s.alive && (s.job job).valid && b.sentAt.isSome then s.abortHere job b.frame 7 0 else s)
  | none => .next s

/-- WHISTLE_FAIL (R542): forwarded unchanged, or answered by the master with ABORT. -/
def execWhistleFail (port job frame code : Nat) (s : State) : Host.Outcome State Fault Refusal :=
  if !s.alive || !(s.job job).valid || !s.pck.childPorts.contains port then .next s
  else if s.pck.isMaster then .next (s.masterAbort job frame 11 0)
  else .next ((s.toParent (.fail job frame code)).modJob job fun x => { x with failSent := some s.now })

/-- FAIL_TIMEOUT (R542): no ABORT has come. -/
def execFailTimeout (job : Nat) (s : State) : Host.Outcome State Fault Refusal :=
  let x := s.job job
  .next (if s.alive && x.valid && x.failSent.isSome then s.abortHere job x.frame.toNat 11 0 else s)

end Sys2Proof.Machine
end

