-- ==== Sys2Proof/Machine/Placement.lean ====
section
/-!
DEFINITION. Machine/Placement.lean: the Herder's choices at a dispatch: which frame, which variant, and where its units
go (R139, R299 to R307, R313, R314). A placement is an operand of the dispatch; here is what makes one legal.
-/
namespace Sys2Proof.Machine

/-! ### Residency (R139) -/

/-- The units resident on a core. -/
def State.residents (s : State) (core : Nat) : List UnitRun :=
  s.hrd.ctxs.flatMap fun p => match p.2.running with
    | some (_, r) => r.units.filter fun u => u.kind == 0 && u.place == core && !u.ended
    | none => []

/-- The Kennels that contexts other than one host on a core: offset in its tile memory, and bytes. -/
def State.hostedKennels (s : State) (core c : Nat) : List (Nat × Nat) :=
  s.fab.routes.filterMap fun p =>
    if p.2.host = core ∧ p.2.ctx ≠ c then some (p.2.base - tileAddr core 0, p.2.cap * p.2.slotSize) else none

/-- A range of `n` bytes from `b` overlaps none of those in use. -/
def clearOf (used : List (Nat × Nat)) (b n : Nat) : Bool := used.all fun r => b + n ≤ r.1 || r.1 + r.2 ≤ b

/-- Where a range of `n` bytes goes in tile memory: the lowest 64-byte boundary at which it fits. -/
def rangeBase (used : List (Nat × Nat)) (n : Nat) : Option Nat :=
  let starts := (0 :: used.map fun r => alignUp 64 (r.1 + r.2)).filter fun b => b + n ≤ tileSpan && clearOf used b n
  starts.foldl (fun o b => match o with | some a => some (min a b) | none => some b) none

/-- Where several ranges go, one after another. -/
def rangeBases : List (Nat × Nat) → List Nat → Option (List Nat)
  | _, [] => some []
  | used, n :: r =>
    match rangeBase used n with
    | none => none
    | some b => (rangeBases ((b, n) :: used) r).map fun l => b :: l

/-- The tile memory in use on a core, apart from the Kennels of one context. -/
def State.tileUsed (s : State) (core c : Nat) : List (Nat × Nat) :=
  (s.residents core).map (fun r => (r.base, r.size)) ++ s.hostedKennels core c

/-- What a unit needs of a core: code bytes, working region, and the bytes of each Kennel it hosts. -/
structure Need where
  code : Nat
  tile : Nat
  kennels : List Nat

/-- A core takes a unit of a context: R139 holds after placement. -/
def State.coreFits (s : State) (c core : Nat) (n : Need) : Bool :=
  let rs := s.residents core
  let k := sumOf ((s.hostedKennels core c).map Prod.snd) + sumOf n.kennels
  s.pooled core && decide (rs.length < 8) &&
  decide (rs.foldl (fun a r => a + r.codeLen) n.code ≤ 0x10000) &&
  decide (rs.foldl (fun a r => a + r.size) (n.tile + k) ≤ tileSpan) && decide (k ≤ 0x100000) &&
  (rangeBases (s.tileUsed core c) (n.tile :: n.kennels)).isSome

/-! ### Which frame and which variant -/

/-- The module dispatches and admits: READY and RUN (R323, Table 17.6). -/
def State.dispatching (s : State) : Bool := s.sup.mstate.serving && !s.sup.heldInReset

/-- A context's next frame, where it is ready for dispatch (R293, R299, R536). -/
def Ctx.readyFrame (x : Ctx) : Option Frame :=
  match x.held with
  | f :: _ =>
    if f.run.isSome then none
    else if x.st = .ending ∧ ¬(x.endAfter ∧ f.firstGen.isSome) then none
    else if x.st = .free then none
    else if f.whistle = none ∨ f.whistle = some .released then some f
    else none
  | [] => none

/-- A ready frame in dispatch order: released Pack frames first (R538), then deadline, then context number. -/
structure Turn where
  ctx : Nat
  frame : Frame

def Turn.before (a b : Turn) : Bool :=
  if a.frame.whistled ≠ b.frame.whistled then a.frame.whistled
  else if a.frame.deadline.toNat ≠ b.frame.deadline.toNat then a.frame.deadline.toNat < b.frame.deadline.toNat
  else a.ctx < b.ctx

def State.turns (s : State) : List Turn :=
  s.hrd.ctxs.filterMap fun p => (p.2.readyFrame).map fun f => { ctx := p.1, frame := f }

/-- The image, template and variant a frame is dispatched with. -/
structure Want where
  gen : Nat
  image : Image
  tmpl : Nat
  rec_ : TmplRec
  k : Nat
  /-- Widened by the Herder: every core unit goes to an idle core (R302). -/
  idle : Bool
  /-- The instance moves to another image with this dispatch (R119). -/
  moves : Bool
  /-- It would move but cannot: E-SVY-20 (R119). -/
  skips : Bool

/-- A unit put in its place by unit index. -/
def insertUnit (u : ProgRec) : List ProgRec → List ProgRec
  | [] => [u]
  | x :: r => if u.unit ≤ x.unit then u :: x :: r else x :: insertUnit u r
/-- The units of a variant in unit order; core units come first (Table 3.5). -/
def Image.unitsInOrder (i : Image) (t k : Nat) : List ProgRec := (unitsOf i.progs t k).foldl (fun l u => insertUnit u l) []

/-- The needs of a variant's core units, in unit order. -/
def Image.needs (i : Image) (t k : Nat) : List Need :=
  ((i.unitsInOrder t k).filter fun u => u.kind == 0).map fun u =>
    { code := u.codeLen, tile := u.tileBytes
      kennels := ((routesOf i.routes t k).filter fun r => i.hostUnit r == u.unit).map i.kennelLen }

/-- The sets of quarters, fewest first. -/
def quarterSets : List (List Nat) :=
  [[0], [1], [2], [3], [0, 1], [0, 2], [0, 3], [1, 2], [1, 3], [2, 3], [0, 1, 2], [0, 1, 3], [0, 2, 3], [1, 2, 3],
   [0, 1, 2, 3]]

/-- A core whose effective forecast is within the steering margin of the limit (R307, R644); while the forecaster stands,
forecasts hold (R666). -/
def State.hotCore (s : State) (core : Nat) : Bool :=
  let margin := if s.hrd.steerMargin = 0 then 1 else s.hrd.steerMargin.toNat
  decide (((s.thm.limit.toNat : Int) - (margin : Int)) * 16 ≤ (s.thmUnit core).forecast)

/-- Live routes of contexts other than one, by the quarter of their Kennels. -/
def State.liveRoutes (s : State) (c q : Nat) : Nat :=
  (s.fab.routes.filter fun p => p.2.ctx != c && routeQuarter p.1 == q).length

/-- The core that hosts a route's Kennel. -/
def hostCore (i : Image) (cores : List Nat) (r : RouteRec) : Nat := cores.getD (i.hostUnit r) 0

/-- With a frame's routes added, every quarter stays within 1,024 live routes and the module within 4,096 (R300). -/
def State.routesFit (s : State) (c : Nat) (w : Want) (cores : List Nat) : Bool :=
  let rs := routesOf w.image.routes w.tmpl w.k
  ([0, 1, 2, 3].all fun q =>
    decide (s.liveRoutes c q + (rs.filter fun r => coreQuarter (hostCore w.image cores r) == q).length ≤ 1024)) &&
  decide ((s.fab.routes.filter fun p => p.2.ctx != c).length + rs.length ≤ 4096)

/-! ### Channels and engines -/

/-- The core of an engine unit's host: the host of a Kennel it reads, else core unit 0. -/
def engineHost (w : Want) (cores : List Nat) (unit : Nat) : Nat :=
  match (routesOf w.image.routes w.tmpl w.k).find? fun r => r.consUnit == unit with
  | some r => hostCore w.image cores r
  | none => cores.headD 0

/-- A channel takes unit queues: instance mode and not disabled. -/
def State.chanUsable (s : State) (ch : Nat) : Bool := ch < 64 && (s.chan ch).mode == 1 && !(s.chan ch).disabled

/-- A channel or engine may serve a unit of a frame (R258, R300). -/
def State.placeOk (s : State) (w : Want) (cores : List Nat) (u : ProgRec) (place : Nat) : Bool :=
  match u.kind with
  | 1 => decide (place / 4 = coreQuarter (engineHost w cores u.unit)) && place < 16 &&
      !(s.ecEngine place).offline && !(s.ecEngine place).disabled
  | 2 => decide (place / 2 = coreQuarter (engineHost w cores u.unit)) && place < 8 &&
      !(s.dceEngine place).offline && !(s.dceEngine place).disabled
  | _ => s.chanUsable place && cores.any fun k => coreQuarter k == place / 16

/-- Some channel or engine may serve a unit. -/
def State.hasPlace (s : State) (w : Want) (cores : List Nat) (u : ProgRec) : Bool :=
  (List.range 64).any fun p => s.placeOk w cores u p

def Want.engines (w : Want) : List ProgRec := (w.image.unitsInOrder w.tmpl w.k).filter fun u => u.kind != 0

/-! ### Finding a placement -/

/-- Cores for the needs in order, each once, out of a list, so that the whole choice meets a test; the search tries every
choice. -/
def State.searchCores (s : State) (c : Nat) (ok : List Nat → Bool) : List Need → List Nat → List Nat → Option (List Nat)
  | [], chosen, _ => if ok chosen then some chosen else none
  | n :: r, chosen, cores =>
    (cores.filter fun k => s.coreFits c k n).findSome? fun k =>
      s.searchCores c ok r (chosen ++ [k]) (cores.filter fun x => x != k)

/-- Pool cores a frame may take: all, or where it is widened the idle ones. -/
def State.usableCores (s : State) (w : Want) : List Nat :=
  (List.range 144).filter fun k => s.pooled k && !(w.idle && s.coreBusy k)

/-- Room for a choice of cores beyond the cores themselves: routes, and a channel or engine for every other unit (R300). -/
def State.hasRoom (s : State) (c : Nat) (w : Want) (cores : List Nat) : Bool :=
  s.routesFit c w cores && w.engines.all fun u => s.hasPlace w cores u

/-- Cores for a frame out of a list, from the fewest quarters (R300). -/
def State.findCores (s : State) (c : Nat) (w : Want) (cores : List Nat) : Option (List Nat) :=
  quarterSets.findSome? fun qs =>
    s.searchCores c (s.hasRoom c w) (w.image.needs w.tmpl w.k) [] (cores.filter fun k => qs.contains (coreQuarter k))

/-- A span pin names a present variant, and its core units do not exceed E (R303, R535). -/
def State.pinValid (s : State) (t : TmplRec) (pin : Nat) : Bool :=
  pin == 0 || (t.hasVariant pin && decide (pin * t.span ≤ s.poolCount) && !(t.packBound && decide (1 < pin)))

/-- The variant of a frame (R302, R303, R535). -/
def State.chooseVariant (s : State) (c : Nat) (w : Want) (others : Bool) : Want :=
  let pin := (s.ctx c).spanPin.toNat
  if pin ≠ 0 ∧ s.pinValid w.rec_ pin then { w with k := pin, idle := false }
  else
    let pinned : Bool := w.rec_.packBound || (w.image.numOf w.tmpl).all fun n => n.spanPolicy == 0
    let wide := if pinned || others || !s.hrd.widenEn then none
      else [4, 3, 2].find? fun k => w.rec_.hasVariant k && decide (k * w.rec_.span ≤ s.poolCount) &&
        (s.findCores c { w with k := k, idle := true } (s.usableCores { w with k := k, idle := true })).isSome
    match wide with
    | some k => { w with k := k, idle := true }
    | none => { w with k := 1, idle := false }

/-- What a ready frame is dispatched with where it runs on a given image and template. -/
def State.wantOn (s : State) (c : Nat) (l : Loaded) (tmpl : Nat) (moves : Bool) : Option Want :=
  (l.image.tmpls[tmpl]?).map fun t => s.chooseVariant c
    { gen := l.gen, image := l.image, tmpl := tmpl, rec_ := t, k := 1, idle := false, moves := moves, skips := false }
    ((s.turns.filter fun x => x.ctx != c).length ≠ 0)

/-- The template of the current image to which an instance moves from another image of its slot, with the variant it would
use there next (R119). -/
def State.moveTo (s : State) (c : Nat) (old new : Loaded) : Option Nat :=
  (s.wantOn c old (s.ctx c).tmpl false).bind fun w => migrateTo old.image new.image w.tmpl w.k

/-- What a ready frame is to be dispatched with: on the image of its first dispatch (R120), else on the current one where its
instance moves, and otherwise where it is (R119). -/
def State.wantFor (s : State) (c : Nat) (f : Frame) : Option Want :=
  let x := s.ctx c
  match f.firstGen with
  | some g => (s.imageOf x.slot.toNat g).bind fun l => s.wantOn c l x.tmpl false
  | none =>
    match s.imageOf x.slot.toNat x.gen, (s.slot x.slot.toNat).current with
    | none, _ => none
    | some old, none => s.wantOn c old x.tmpl false
    | some old, some new =>
      if new.gen = old.gen then s.wantOn c old x.tmpl false
      else
        match s.moveTo c old new with
        | some t => s.wantOn c new t true
        | none => (s.wantOn c old x.tmpl false).map fun w => { w with skips := w.rec_.boundary == 1 }

/-- The placement that a placement pin holds for a frame, and whether a fence has taken a core of it (R306, R314). A frame of
another widening factor is not held to it, unless a fence broke it. -/
def State.pinFor (s : State) (c : Nat) (w : Want) : Option (List Nat × List Nat × Bool) :=
  let x := s.ctx c
  match x.pinned with
  | some (k, cores, places) =>
    let broken := cores.any fun g => s.fenced g
    if x.placePin ∧ (broken ∨ k = w.k) then some (cores, places, broken) else none
  | none => none

/-- Every core of a list is distinct, fits its unit, and is idle where widened. -/
def State.coresLegal (s : State) (c : Nat) (w : Want) (cores : List Nat) : Bool :=
  let ns := w.image.needs w.tmpl w.k
  decide (cores.length = ns.length) && decide cores.Nodup &&
  (List.zip cores ns).all fun p => s.coreFits c p.1 p.2 && !(w.idle && s.coreBusy p.1)

/-- The quarters a list of cores lies in, counted. -/
def quartersOf (cores : List Nat) : Nat := ([0, 1, 2, 3].filter fun q => cores.any fun k => coreQuarter k == q).length

/-- The choice of cores for a frame that no pin holds in place (R300, R307): no hot core is taken that the frame can do
without, but for a context with a placement pin, and no more quarters than there must be. -/
def State.coresBest (s : State) (c : Nat) (w : Want) (cores : List Nat) : Bool :=
  let usable := s.usableCores w
  let hot := if (s.ctx c).placePin then [] else cores.filter s.hotCore
  let others := if (s.ctx c).placePin then usable else usable.filter fun k => !s.hotCore k
  (hot.all fun h => (s.findCores c w (others ++ hot.filter fun k => k != h)).isNone) &&
  (s.findCores c w (others ++ hot)).all fun l => decide (quartersOf cores ≤ quartersOf l)

/-- A placement is legal for a frame (R300, R306, R307). -/
def State.placementOk (s : State) (c : Nat) (w : Want) (p : Placement) : Bool :=
  s.coresLegal c w p.cores && s.routesFit c w p.cores &&
  decide (p.places.length = w.engines.length) &&
  ((List.zip w.engines p.places).all fun x => s.placeOk w p.cores x.1 x.2) &&
  match s.pinFor c w with
  | some (cores, places, false) => decide (p.cores = cores) &&
      (List.zip w.engines (List.zip p.places places)).all fun x =>
        x.1.kind != 3 || x.2.1 == x.2.2 || !(s.placeOk w p.cores x.1 x.2.2)
  | _ => s.coresBest c w p.cores

/-- A frame can be placed now. -/
def State.canPlace (s : State) (c : Nat) (f : Frame) : Bool :=
  match s.wantFor c f with
  | none => false
  | some w =>
    match s.pinFor c w with
    | some (cores, _, false) => s.coresLegal c w cores && s.hasRoom c w cores
    | _ => (s.findCores c w (s.usableCores w)).isSome

/-- The frames that stand before one in dispatch order; one passed over 16 times stands before all that are not. -/
def State.ahead (s : State) (c : Nat) (f : Frame) : List Turn :=
  let me : Turn := { ctx := c, frame := f }
  s.turns.filter fun x => x.ctx != c &&
    (if decide (16 ≤ x.frame.passes) ≠ decide (16 ≤ f.passes) then decide (16 ≤ x.frame.passes) else x.before me)

/-- It is a frame's turn: none before it can be placed, and none before it has reserved placement (R299). -/
def State.turnOf (s : State) (c : Nat) (f : Frame) : Bool :=
  (s.ahead c f).all fun x => decide (x.frame.passes < 16) && !s.canPlace x.ctx x.frame

end Sys2Proof.Machine
end

