-- ==== Sys2Proof/Machine/Rng.lean ====
section
/-!
DEFINITION. Machine/Rng.lean: the counter generator and its test registers (R339 to R342, R359).
-/
namespace Sys2Proof.Machine

/-- The four words of a counter or of a block's output. -/
structure Words4 where
  x0 : Word
  x1 : Word
  x2 : Word
  x3 : Word
deriving DecidableEq, Repr

/-- One round of the block function. -/
def rngRound (k0 k1 : Word) (x : Words4) (r : Nat) : Words4 :=
  let kr := if r % 2 = 0 then k0 else k1
  let x0 := x.x0 + x.x1 + kr + BitVec.ofNat 32 r
  let x3 := (x.x3 ^^^ x0).rotateLeft 16
  let x2 := x.x2 + x3
  let x1 := (x.x1 ^^^ x2).rotateLeft 12
  let x0 := x0 + x1
  let x3 := (x3 ^^^ x0).rotateLeft 8
  let x2 := x2 + x3
  let x1 := (x1 ^^^ x2).rotateLeft 7
  ⟨x0, x1, x2, x3⟩

/-- The block function (R339). -/
def rngBlock (key : DWord) (c : Words4) : Words4 :=
  (List.range 12).foldl (rngRound (key.extractLsb' 0 32) (key.extractLsb' 32 32)) c

/-- Two words as one, the first low. -/
def joinWords (lo hi : Word) : DWord := hi ++ lo

/-- The key of a seed (R340). -/
def deriveKey (seed : DWord) : DWord :=
  let o := rngBlock 0x70686F6C6D696F6E ⟨seed.extractLsb' 0 32, seed.extractLsb' 32 32, 0, 0xFFFFFFFF⟩
  joinWords o.x0 o.x1

/-- A draw of 16 bits (R341). -/
def draw16 (key : DWord) (purpose plane tile frame position : Nat) : BitVec 16 :=
  let c3 := purpose % 256 * 2 ^ 24 + plane % 256 * 2 ^ 16 + (frame >>> 32) % 2 ^ 16
  let o := rngBlock key ⟨BitVec.ofNat 32 (position >>> 3), BitVec.ofNat 32 tile, BitVec.ofNat 32 frame, BitVec.ofNat 32 c3⟩
  let j := position % 8
  let w := if j < 2 then o.x0 else if j < 4 then o.x1 else if j < 6 then o.x2 else o.x3
  (w >>> (16 * (j % 2))).extractLsb' 0 16

/-- A locked write to a SYS_RNG_ field (E-SYS-32, R128). -/
def State.rngLocked (s : State) (fn off value : Nat) : State :=
  (s.modFn fn fun g => { g with rng := { g.rng with fieldLocked := true } }).lockedRecord .sys 32 fn off value

/-- RNG_COMPUTE: a write of SYS_RNG_CTRL with GO (R359, Table 9.12). -/
def execRngCompute (fn : Nat) (value : Word) (s : State) : Host.Outcome State Fault Refusal :=
  if !s.hostReach fn then .next s
  else
    let locked := (s.fn fn).rng.fieldLocked && !value.getLsbD 3
    if (s.fn fn).rng.busy then
      .next (s.rngLocked fn 0x140 value.toNat)
    else .next (s.modFn fn fun g => { g with rng :=
      { g.rng with busy := true, seedMode := value.getLsbD 1, fieldLocked := locked } })

/-- What a computation writes to SYS_RNG_OUT. -/
def RngFn.result (g : RngFn) : Words4 :=
  rngBlock (if g.seedMode then deriveKey g.key else g.key)
    ⟨g.ctrLo.extractLsb' 0 32, g.ctrLo.extractLsb' 32 32, g.ctrHi.extractLsb' 0 32, g.ctrHi.extractLsb' 32 32⟩

/-- RNG_COMPLETE (R359). -/
def execRngComplete (fn : Nat) (s : State) : Host.Outcome State Fault Refusal :=
  if !s.alive || !(s.fn fn).rng.busy then .next s
  else .next (s.modFn fn fun g => { g with rng := { g.rng with
    busy := false
    outLo := joinWords g.rng.result.x0 g.rng.result.x1
    outHi := joinWords g.rng.result.x2 g.rng.result.x3 } })

end Sys2Proof.Machine
end

