-- ==== Sys2Proof/Machine/Herder.lean ====
section
/-!
DEFINITION. Machine/Herder.lean: admission, the end of a context, arrival, dispatch and commit (R286 to R299, R305,
R309, R313, R314, R323).
-/
namespace Sys2Proof.Machine

/-! ### Loads (R290, R291) -/

/-- The load of a context in millicores (R290). -/
def loadOf (cost mhz period : Nat) : Nat := (cost * 1000 * 1600 + mhz * period - 1) / (mhz * period)
/-- The declared load: the sum over the contexts that are not FREE. -/
def State.declaredLoad (s : State) : Nat :=
  s.hrd.ctxs.foldl (fun n p => if p.2.st = .free then n else
    match s.ctxTmpl p.1 with
    | some t => n + loadOf t.cost (25 * s.profileCeiling) p.2.periodUs.toNat
    | none => n) 0
/-- The admission limit, floor(920 × E). -/
def State.admitLimit (s : State) : Nat := 920 * s.poolCount
def State.overload (s : State) : Bool := s.admitLimit < s.declaredLoad

/-! ### Instance memory (R288) -/

/-- Bytes the heap gives an instance. -/
def heapBytes (kib : Nat) : Nat := max 4096 (alignUp 4096 (kib * 1024))

/-- The heap ranges in use. -/
def State.heapUsed (s : State) : List (Nat × Nat) :=
  (s.hrd.ctxs.filter fun p => p.2.st != .free).map fun p => (p.2.base, heapBytes (p.2.len / 1024))

/-- The lowest free range of the heap for `n` bytes, 4 KiB aligned and outside slot storage. -/
def State.heapAlloc (s : State) (n : Nat) : Option Nat :=
  let lo := s.hrd.heapBase.toNat * 4096
  let hi := min (lo + s.hrd.heapLen.toNat * 4096) devTop
  let used := s.heapUsed
  let starts := (lo :: used.map fun u => u.1 + u.2).filter fun a =>
    lo ≤ a && a + n ≤ hi && used.all fun u => a + n ≤ u.1 || u.1 + u.2 ≤ a
  starts.foldl (fun o a => match o with | some b => some (min a b) | none => some a) none

/-- Cells outside a range: the range then reads as zeros. -/
def zeroCells (m : List Host.Cell) (a n : Nat) : List Host.Cell := m.filter fun x => x.1 < a || a + n ≤ x.1

/-- Write zeros to a range of device memory, fresh. -/
def State.zeroDev (s : State) (a n : Nat) : State :=
  State.dropLines { s with mem := { s.mem with
      bytes := zeroCells s.mem.bytes a n
      poison := s.mem.poison.filter fun g => !covers a n g.1 } } (touches a n)

/-- Write zeros to a range of tile memory. -/
def State.zeroTile (s : State) (a n : Nat) : State := { s with mem := { s.mem with tile := zeroCells s.mem.tile a n } }

/-! ### Admission (R286, R287) -/

/-- RUN while an instance exists, else READY (Table 17.1, R38). -/
def State.settleRun (s : State) : State :=
  let any : Bool := s.hrd.ctxs.any fun p => p.2.st != .free
  match s.sup.mstate with
  | .ready => if any then s.toState .run else s
  | .run => if any then s else s.toState .ready
  | _ => s

/-- What an admission asks for: the image, the template and its record. -/
def State.askedFor (s : State) (c : Nat) : Option (Loaded × TmplRec) :=
  let x := s.ctx c
  let l := s.slot x.slot.toNat
  if l.state ≠ .loaded then none
  else l.current.bind fun i => (i.image.tmpls[x.template.toNat]?).map fun t => (i, t)

/-- A Pack-bound template may be admitted on this context (R534). -/
def State.packAdmits (s : State) (c : Nat) : Bool :=
  let x := s.ctx c
  s.pck.state == .formed && s.pck.slot == x.slot && s.pck.jobs.any fun p => p.2.valid && p.2.ctx.toNat == c && p.2.template == x.template

/-- The first weight region that fails its recheck at instance start (R115, R722): every region of the image whose record has
FLAGS bit 0. -/
def State.recheckFail (s : State) (ue : UeList) (i : Image) : Option SvyFail :=
  firstFail (wrefFail s ue 5) ((withIndex i.wrefs).filter fun x => x.2.recheck)

/-- The refusal of an admission, none where the context is admitted (R287, Table 8.3, R534, R115). -/
def State.admitRefusal (s : State) (ue : UeList) (fn c : Nat) : Option Err :=
  let x := s.ctx c
  if s.overload then some ⟨.hrd, 1⟩
  else if x.st ≠ .free ∨ !s.dispatching ∨ (s.slot x.slot.toNat).owner.toNat ≠ fn ∨ x.source = 3 then some ⟨.hrd, 2⟩
  else
    match s.askedFor c with
    | none => some ⟨.hrd, 2⟩
    | some (l, t) =>
      let same := (s.hrd.ctxs.filter fun p => p.2.st != .free && p.2.slot == x.slot && p.2.gen == l.gen && p.2.tmpl == x.template.toNat).length
      if t.packBound ∧ !s.packAdmits c then some ⟨.pck, 9⟩
      else if t.maxInst ≤ same ∨ 4096 ≤ (s.hrd.ctxs.filter fun p => p.2.st != .free).length ∨ (s.heapAlloc (heapBytes t.instKib)).isNone ∨
          s.poolCount < t.span then some ⟨.hrd, 2⟩
      else if s.admitLimit < s.declaredLoad + loadOf t.cost (25 * s.profileCeiling) x.periodUs.toNat then some ⟨.hrd, 1⟩
      else if (s.recheckFail ue l.image).isSome then some ⟨.svy, 11⟩
      else none

/-- The output rings a context is bound to at its admission (R492). -/
def State.ringsOf (s : State) (fn c : Nat) : List (Option Nat) :=
  (List.range 8).map fun r => match Tab.find? (s.fn fn).hst.bindings (c * 8 + r) with
    | some (ring, true) => some ring.toNat
    | _ => none

/-- A function's copy of the configuration registers of a context. -/
def State.ctxRegs (s : State) (fn c : Nat) : CtxRegs := Tab.getD (s.fn fn).hrd.ctxRegs c {}
def State.setCtxRegs (s : State) (fn c : Nat) (x : CtxRegs) : State :=
  s.modFn fn fun g => { g with hrd := { g.hrd with ctxRegs := Tab.put g.hrd.ctxRegs c x } }

/-- A context as it starts: its settings stay, everything of an earlier instance goes. -/
def Ctx.cleared (x : Ctx) : Ctx :=
  { st := .free, func := x.func, slot := x.slot, template := x.template, source := x.source, feed := x.feed
    spanPin := x.pendSpan.getD x.spanPin, placePin := x.pendPlace.getD x.placePin, periodUs := x.periodUs
    deadlineUs := x.pendDeadline.getD x.deadlineUs, seed := x.seed }

/-- HRD_CTX_CFG [31:0] as a function's copy holds it (Table 8.6). -/
def CtxRegs.word (r : CtxRegs) : Nat :=
  r.slot.toNat + r.template.toNat * 2 ^ 4 + r.source.toNat * 2 ^ 12 + r.feed.toNat * 2 ^ 14 + r.spanPin.toNat * 2 ^ 26 +
    bitAt 29 r.placePin

/-- E-HRD-08: a locked write or a refused span pin, with the BAR0 offset and the value (R303, R324). -/
def State.hrdLocked (s : State) (fn : Nat) (c : Option Nat) (off value : Nat) : State :=
  let s := { s with hrd := { s.hrd with fieldLocked := true } }
  let s := match c with | some c => s.modStat fn c fun x => { x with code := 8 } | none => s
  s.report { blk := .hrd, nn := 8, func := some fn, ctx := c, detail := [off, value % 2 ^ 32] }

/-- Admit a context (R287, R288, R340): its memory is zero, its key is derived from its seed, its rings are taken. -/
def State.takeContext (s : State) (fn c : Nat) (l : Loaded) (t : TmplRec) (base : Nat) : State :=
  let pinBad : Bool := !s.pinValid t (s.ctx c).spanPin.toNat
  let rings := s.ringsOf fn c
  let s := s.modCtx c fun x => { x.cleared with
    st := .admitted, func := fn, base := base, len := t.instKib * 1024, gen := l.gen, tmpl := x.template.toNat
    key := deriveKey x.seed, rings := rings, spanPin := if pinBad then 0 else x.spanPin }
  let s := s.modStat fn c fun _ => {}
  let s := s.zeroDev base (heapBytes t.instKib)
  let s := if pinBad then
      State.hrdLocked (s.setCtxRegs fn c { s.ctxRegs fn c with spanPin := 0 }) fn (some c) 0x400030 (s.ctxRegs fn c).word
    else s
  s.settleRun

/-- Report a refused admission; HRD_CTX_STATUS.CODE of the asking function takes the code's number. -/
def State.admitRefused (s : State) (fn c : Nat) (e : Err) : State :=
  let s := s.modStat fn c fun x => { x with code := BitVec.ofNat 8 e.nn }
  if e.blk = Block.pck then State.report { s with pck := { s.pck with code := BitVec.ofNat 8 e.nn } } { blk := .pck, nn := e.nn, func := some fn, ctx := some c }
  else s.report { blk := e.blk, nn := e.nn, func := some fn, ctx := some c }

/-- A context configured as registers say. -/
def Ctx.configured (x : Ctx) (r : CtxRegs) : Ctx :=
  { x with
    slot := r.slot, template := r.template, source := r.source, feed := r.feed, spanPin := r.spanPin, placePin := r.placePin
    periodUs := r.periodUs, deadlineUs := r.deadlineUs, seed := r.seed
    pendSpan := none, pendPlace := none, pendDeadline := none }

/-- A FREE context takes the settings that the asking function has written for it (R286). -/
def State.takeRegs (s : State) (fn c : Nat) : State :=
  if (s.ctx c).st = .free then s.modCtx c fun x => x.configured (s.ctxRegs fn c) else s

/-- The verdict on an admission request, its settings in the context. -/
def State.judgeAsk (s : State) (ue : UeList) (fn c : Nat) : State :=
  match s.admitRefusal ue fn c, s.askedFor c with
  | some e, a =>
    let s := match a with
      | some (l, _) => if e.blk = Block.svy then (match s.recheckFail ue l.image with
          | some f => s.loaderGranule fn f | none => s) else s
      | none => s
    s.admitRefused fn c e
  | none, some (l, t) =>
    match s.heapAlloc (heapBytes t.instKib) with
    | some base => s.takeContext fn c l t base
    | none => s
  | none, none => s

/-- The verdict on an admission request; BUSY falls. -/
def State.verdict (s : State) (ue : UeList) (fn c : Nat) : State :=
  ((s.takeRegs fn c).judgeAsk ue fn c).modStat fn c fun x => { x with busy := false }

/-- A function's GO still reads 1: its request waits for the end of SHUTDOWN-A (Table 17.6). -/
def State.goBusy (s : State) (fn : Nat) : Bool := s.hrd.asks.any fun a => a.1 == fn

/-- CONTEXT_ADMIT (R286, R287, Table 17.6). -/
def execContextAdmit (ask : AdmitArgs) (s : State) : Host.Outcome State Fault Refusal :=
  let fn := ask.fn
  let c := (s.fn fn).hrd.ctxSel.toNat
  if !s.hostReach fn || s.goBusy fn then .next s
  else
    let s := s.modFn fn fun g => { g with hrd := { g.hrd with op := 1 } }
    if s.sup.mstate = .shutdownA then
      .next (State.modStat { s with hrd := { s.hrd with asks := s.hrd.asks ++ [(fn, c)] } } fn c fun x => { x with busy := true })
    else .next (s.verdict ask.ue fn c)

/-! ### The end of a context (R292) -/

/-- A function addresses only the contexts it admitted (R286). -/
def State.ownsCtx (s : State) (fn c : Nat) : Bool := (s.ctx c).st != .free && (s.ctx c).func == fn

/-- A context without a current frame ends by OP 2. -/
def State.endCleanly (s : State) (c : Nat) : State := (s.putEnd c).endSilently c

/-- CONTEXT_END_AFTER_FRAME (R292). -/
def execContextEndAfterFrame (fn : Nat) (s : State) : Host.Outcome State Fault Refusal :=
  let c := (s.fn fn).hrd.ctxSel.toNat
  if !s.hostReach fn || s.goBusy fn then .next s
  else
    let s := s.modFn fn fun g => { g with hrd := { g.hrd with op := 2 } }
    if !s.ownsCtx fn c || (s.ctx c).st == .ending then .next s
    else if ((s.ctx c).current?).isSome then .next (s.modCtx c fun x => { x with st := .ending, endAfter := true })
    else .next (s.endCleanly c)

/-- CONTEXT_END_NOW (R292). -/
def execContextEndNow (fn : Nat) (s : State) : Host.Outcome State Fault Refusal :=
  let c := (s.fn fn).hrd.ctxSel.toNat
  if !s.hostReach fn || s.goBusy fn then .next s
  else
    let s := s.modFn fn fun g => { g with hrd := { g.hrd with op := 3 } }
    .next (if s.ownsCtx fn c then (s.endSilently c).modCtx c fun x => { x with endAfter := false } else s)

/-- Remove a context's routes; audits of them are abandoned. -/
def State.dropRoutes (s : State) (c : Nat) : State :=
  let s := s.abandonAudits fun rid => (s.route? rid).any fun r => r.ctx == c
  { s with fab := { s.fab with
      routes := s.fab.routes.filter fun p => p.2.ctx != c
      stalled := s.fab.stalled.filter fun x => x != c } }

/-- A context becomes FREE: its routes go, its memory returns to the heap, and images that nothing uses are freed. -/
def State.freeCtx (s : State) (c : Nat) : State :=
  let slot := (s.ctx c).slot.toNat
  let s := s.dropRoutes c
  let s := match s.jobOfCtx c with
    | some j => s.modJob j fun x => { x with running := false, barrier := none, failSent := none }
    | none => s
  ((s.modCtx c fun x => x.cleared).settleSlot slot).settleRun

/-- Every route of a context has its verdict at the end of the instance, and none is being reclaimed (R84). -/
def State.routesDone (s : State) (c : Nat) : Bool := s.fab.routes.all fun p => p.2.ctx != c || (p.2.endAudited && !p.2.reclaiming)

/-- CONTEXT_FREED (R84, R292): its units have left their cores, and its routes are audited and reclaimed. -/
def execContextFreed (ctx : Nat) (s : State) : Host.Outcome State Fault Refusal :=
  .next (if s.alive && (s.ctx ctx).over && s.routesDone ctx then s.freeCtx ctx else s)

/-! ### Arrival (R289, R293) -/

/-- A frame's deadline: arrival plus DEADLINE_US, or the template's DEADLINE (R289). -/
def State.deadlineFor (s : State) (c : Nat) (arrival : DWord) : DWord :=
  let us := if (s.ctx c).deadlineUs = 0 then (s.ctxTmpl c).elim 0 fun t => t.deadline else (s.ctx c).deadlineUs.toNat
  arrival + BitVec.ofNat 64 (us * 1000)

/-- A source supplies a frame: it is on its way to the Herder. -/
def State.supply (s : State) (c : Nat) (f : Frame) : State :=
  s.modCtx c fun x => { x with arriving := x.arriving ++ [{ frame := f, lost := none }] }

/-- A source tells the loss of a frame, with its code: it is lost in its turn among the frames on their way (R463). -/
def State.supplyLost (s : State) (c : Nat) (f : Frame) (code : Nat) : State :=
  if (s.ctx c).arriving.isEmpty then s.loseUnheld c f code
  else s.modCtx c fun x => { x with arriving := x.arriving ++ [{ frame := f, lost := some code }] }

/-- The lost frames at the front of what is on its way. -/
def State.passLost (s : State) (c : Nat) : State :=
  let due := (s.ctx c).arriving.takeWhile fun x => x.lost.isSome
  due.foldl (fun t x => t.loseUnheld c x.frame (x.lost.getD 0)) (s.modCtx c fun x => { x with arriving := x.arriving.drop due.length })

/-- A frame arrives: held, or lost at once where four are held (R293). -/
def State.arrive (s : State) (c : Nat) (f : Frame) : State :=
  if 4 ≤ (s.ctx c).held.length then (s.hrdReport c 5 (some f.no)).loseUnheld c f (Err.lossCode ⟨.hrd, 5⟩)
  else
    let w := if (s.ctxTmpl c).any fun t => t.packBound then some Whistle.waiting else none
    (s.modCtx c fun x => { x with held := x.held ++ [{ f with whistle := w }] }).barrierReady c

/-- FRAME_ARRIVE (R293): the oldest frame a context's source has supplied. -/
def execFrameArrive (ctx : Nat) (s : State) : Host.Outcome State Fault Refusal :=
  match (s.ctx ctx).arriving with
  | [] => .next s
  | f :: rest =>
    if !s.alive || !((s.ctx ctx).st == .admitted || (s.ctx ctx).st == .suspended) then .next s
    else .next (((s.modCtx ctx fun x => { x with arriving := rest }).arrive ctx f.frame).passLost ctx)

/-! ### Dispatch -/

/-- The first route number of a quarter, below `n`, that no route has. -/
def State.freeRoute (s : State) (q : Nat) : Nat → Option Nat
  | 0 => none
  | n + 1 =>
    match State.freeRoute s q n with
    | some r => some r
    | none => if (s.route? (q * 1024 + n)).isNone then some (q * 1024 + n) else none

/-- A route of a frame as it begins, its Kennel at a module address: Leashes and preloads of its LEASH record (R52, R97). The
preloaded messages stand in the first slots. -/
def State.newRoute (s : State) (c : Nat) (f : Frame) (w : Want) (cores : List Nat) (base index g : Nat) (r : RouteRec) : Route :=
  let l := (leashesOf w.image g).head?
  let k := kennelOf w.image.kennels r
  let core (u : Nat) : Option Nat := cores[u]?
  let pre : List (List Byte) := l.elim [] fun x => x.preload
  { ctx := c, frame := f.no, index := index, prodUnit := r.prodUnit, prodPort := r.prodPort, consUnit := r.consUnit
    consPort := r.consPort, host := hostCore w.image cores r, prodCore := core r.prodUnit, consCore := core r.consUnit
    slotSize := k.elim 64 fun x => x.slotSize, cap := k.elim 0 fun x => x.slots, base := base, leash := l.elim 0 fun x => x.init
    flight := [], occ := (withIndex pre).map fun p => { seq := p.1, len := p.2.length, landed := s.now }, back := 0, readCnt := 0
    nextSeq := pre.length, nextArrive := pre.length, crossesLink := r.link && decide (s.pck.atOffset r.peer ≠ s.pck.me)
    peer := r.peer, frozen := false, heldFrees := 0, reclaiming := false, waitSend := none, waitRead := false, waitSince := s.now
    reclaimAudit := false, endAudited := false }

/-- Where the Kennels of a frame lie: for each core unit, those of its routes after its working region. -/
def State.kennelBases (s : State) (c : Nat) (w : Want) (cores : List Nat) : List (RouteRec × Nat) :=
  let units := (w.image.unitsInOrder w.tmpl w.k).filter fun u => u.kind == 0
  units.flatMap fun u =>
    let core := cores.getD u.unit 0
    let rs := (routesOf w.image.routes w.tmpl w.k).filter fun r => w.image.hostUnit r == u.unit
    match rangeBases (s.tileUsed core c) (u.tileBytes :: rs.map w.image.kennelLen) with
    | some (_ :: bs) => List.zip rs (bs.map fun b => tileAddr core b)
    | _ => []

/-- The audit of a route that the dispatch moves to another quarter ends with its verdict: the route is quiescent, so its drain
is done (R55, R78). -/
def State.settleAudit (s : State) (rid : Nat) (x : Route) : State :=
  match (s.quarter (routeQuarter rid)).audit with
  | some a => if a.route = rid then s.compareAudit (routeQuarter rid) a x x.leash else s
  | none => s

/-- The preloads of a route stand in its Kennel. -/
def State.putPreloads (s : State) (x : Route) (l : Option LeashRec) : State :=
  (withIndex (l.elim [] fun y => y.preload)).foldl (fun t p => t.writeTile (x.slotAddr p.1) p.2) s

/-- The routes of a frame. A route of the context's last frame with the same index whose Kennel stays in its quarter keeps its
number, its freeze and its audits; the others end, and an audit that a route still owes after a fence goes over to its
successor (R78). A driver's request that waits for a route that ends answers RESULT 3. Mark of the last: DESIGN CHOICE, for
the spec gives RESULT 3 to a route that does not exist and to one abandoned by a fence, and does not name this case
(log 142). -/
def State.layRoutes (s : State) (c : Nat) (f : Frame) (w : Want) (cores : List Nat) : State × List Nat :=
  let rs := (withIndex w.image.routes).filter fun x => x.2.template == w.tmpl && x.2.variant == w.k
  let bases := s.kennelBases c w cores
  let old := s.fab.routes.filter fun p => p.2.ctx == c
  let prev (i : Nat) : Option (Nat × Route) := List.find? (fun p => p.2.index == i) old
  let news := (withIndex rs).map fun x =>
    (x.1, s.newRoute c f w cores ((bases.find? fun b => b.1 == x.2.2).elim 0 Prod.snd) x.1 x.2.1 x.2.2, (leashesOf w.image x.2.1).head?)
  let kept := news.filterMap fun x => (prev x.1).bind fun p =>
    if routeQuarter p.1 = coreQuarter x.2.1.host then some p.1 else none
  let gone := old.filter fun p => !kept.contains p.1
  let s := gone.foldl (fun t p => t.settleAudit p.1 p.2) s
  let s := { s with fab := { s.fab with routes := s.fab.routes.filter fun p => p.2.ctx != c || kept.contains p.1 } }
  let laid := news.foldl (fun acc x =>
    let p := prev x.1
    let due := p.any fun y => y.2.reclaimAudit
    let n := { x.2.1 with reclaimAudit := due }
    match p.filter (fun y => kept.contains y.1) with
    | some y => ((acc.1.setRoute y.1 { n with frozen := y.2.frozen }).putPreloads n x.2.2, acc.2 ++ [y.1])
    | none =>
      match acc.1.freeRoute (coreQuarter n.host) 1024 with
      | some rid => ((acc.1.setRoute rid n).putPreloads n x.2.2, acc.2 ++ [rid])
      | none => acc) (s, [])
  (laid.1.kickAudits, laid.2)

/-- The units of a frame as they begin (R142, R258, R360, R107). -/
def State.newUnits (s : State) (c : Nat) (w : Want) (p : Placement) : List UnitRun :=
  let cert := (w.image.certs.find? fun x => x.template == w.tmpl && x.variant == w.k).elim [] fun x => x.units
  let us := w.image.unitsInOrder w.tmpl w.k
  let moves (st : CertStep) : Bool := match st with | .send _ | .read _ => true | _ => false
  (withIndex us).map fun x =>
    let u := x.2
    let place := if u.kind = 0 then p.cores.getD u.unit 0 else p.places.getD (x.1 - p.cores.length) 0
    { unit := u.unit, kind := u.kind, place := place
      base := if u.kind = 0 then ((rangeBase (s.tileUsed place c) u.tileBytes).getD 0) else 0
      size := if u.kind = 0 then u.tileBytes else 0
      codeLen := if u.kind = 0 then u.codeLen else 0
      steps := (((cert.find? fun y => y.1 == u.unit).elim [] fun y => y.2).filter fun st => moves st.1)
      ended := false, blocked := none, passes := 0, accs := [], msg := [], data := []
      queue := if u.kind = 0 then [] else chunks64 1024 (u.code.take u.codeLen), qPasses := 0, qAge := s.rtv.nextAge }

/-- Every frame before the dispatched one is passed over once (R299). -/
def State.passOver (s : State) (ts : List Turn) : State :=
  ts.foldl (fun t x => t.modHead x.ctx fun f => { f with passes := f.passes + 1 }) s

/-- Place and start a frame (R142, R267, R299 to R307, R314). -/
def State.startFrame (s : State) (c : Nat) (f : Frame) (w : Want) (p : Placement) : State :=
  let x := s.ctx c
  let broken : Bool := match s.pinFor c w with | some (_, _, b) => b | none => false
  let s := s.passOver (s.ahead c f)
  let s := if w.moves then State.modCtx { s with svy := { s.svy with migrated := satInc s.svy.migrated } } c fun y =>
      { y with gen := w.gen, tmpl := w.tmpl } else s
  let s := if w.skips then s.skipReport x.slot.toNat c else s
  let s := if broken then State.hrdReport { s with hrd := { s.hrd with pinBroken := true } } c 7 (some f.no) else s
  let s := x.tallies.foldl (fun t y => t.setTally y.2 0) s
  let units := s.newUnits c w p
  let rt := s.nextAge.layRoutes c f w p.cores
  let s := (units.filter fun u => u.kind == 0).foldl (fun t u => t.zeroTile (u.addr 0) u.size) rt.1
  let run : FrameRun := {
    k := w.k, gen := w.gen, tier := if f.firstGen.isSome then f.firstTier else s.tier, units := units, routes := rt.2
    cancelling := false }
  let moved : Bool := match x.prevCores with
    | some l => !(l.all fun k => p.cores.contains k) || !(p.cores.all fun k => l.contains k)
    | none => false
  let s := s.modHead c fun g => { g with
    run := some run, passes := 0, moved := moved, pinBroken := g.pinBroken || broken
    firstGen := some (g.firstGen.getD w.gen)
    firstSig := if g.firstGen.isSome then g.firstSig else s.numsig
    firstTier := if g.firstGen.isSome then g.firstTier else s.tier }
  let s := s.modCtx c fun y => { y with
    cores := p.cores, lastPlaceK := w.k
    pinned := if y.placePin ∧ (y.pinned.isNone ∨ broken) then some (w.k, p.cores, p.places) else y.pinned }
  (s.scheduleAll p.cores).settleSlot x.slot.toNat

/-- A frame that reaches dispatch while variant 1 of its template exceeds the pool (R313). -/
def State.tooWide (s : State) (c : Nat) (f : Frame) : Bool :=
  (s.ctx c).st == .suspended || (s.wantFor c f).any fun w => s.poolCount < w.rec_.span

/-- The routes of a context's last frame are at rest: none is being reclaimed, and each is quiescent (R55, R77). -/
def State.routesAtRest (s : State) (c : Nat) : Bool := s.fab.routes.all fun p => p.2.ctx != c || (p.2.quiescent && !p.2.reclaiming)

/-- FRAME_DISPATCH (R299 to R307, R313, R314): a placement that is not legal changes nothing. -/
def execFrameDispatch (ctx : Nat) (placement : Placement) (s : State) : Host.Outcome State Fault Refusal :=
  match (s.ctx ctx).readyFrame with
  | none => .next s
  | some f =>
    if !s.dispatching || !s.routesAtRest ctx then .next s
    else if s.tooWide ctx f then .next ((s.hrdReport ctx 4 (some f.no)).loseFrame ctx f.no (Err.lossCode ⟨.hrd, 4⟩))
    else
      match s.wantFor ctx f with
      | none => .next s
      | some w => .next (if s.turnOf ctx f && s.placementOk ctx w placement then s.startFrame ctx f w placement else s)

/-! ### Commit (R295 to R298) -/

/-- Every unit has ended, every route is quiescent, and no command is outstanding (R295). -/
def State.frameDone (s : State) (c : Nat) (f : Frame) (r : FrameRun) : Bool :=
  !r.cancelling && (r.units.all fun u => u.ended && u.queue.isEmpty && !s.unitStarted c f.no u.unit) &&
  r.routes.all fun rid => (s.route? rid).all fun x => x.quiescent && !x.reclaiming

/-- No frame of a context commits once its restart record is written (R600). -/
def State.commitHeld (s : State) (c : Nat) : Bool :=
  s.sup.mstate == .shutdownA && s.sup.rrWritten && s.sup.rr.records.any fun r => leAt r 4 2 == c

/-- Where a context's commit granule lies: the last 64 bytes of its instance memory. -/
def Ctx.granuleAt (x : Ctx) : Nat := x.base + (max x.len 64 - 64)

/-- A frame of an upstream context supplies the next frame of every context it feeds (R289). -/
def State.feedDown (s : State) (c : Nat) (f : Frame) : State :=
  (Tab.keysWhere (fun _ d => d.source == 2 && d.feed.toNat == c && (d.st == .admitted || d.st == .suspended)) s.hrd.ctxs).foldl
    (fun t d =>
      (t.supply d (Frame.fresh (t.ctx d).nextNo f.arrival (t.deadlineFor d f.arrival) 0 0 false false)).modCtx d fun y =>
        { y with nextNo := y.nextNo + 1 }) s

/-- Class S fields take effect at a commit (R319). -/
def Ctx.takePending (x : Ctx) : Ctx :=
  let pp := x.pendPlace.getD x.placePin
  { x with
    spanPin := x.pendSpan.getD x.spanPin, placePin := pp, deadlineUs := x.pendDeadline.getD x.deadlineUs
    pendSpan := none, pendPlace := none, pendDeadline := none
    pinned := if pp = x.placePin then x.pinned else none }

/-- The commit of a frame: one fresh write of the commit granule, whose contents the spec does not give; it swaps the
state banks and advances the outputs, and the frame's unit joins its stream. -/
def State.commit (s : State) (c : Nat) (f : Frame) (r : FrameRun) (parts : StreamParts) : State :=
  let x := s.ctx c
  let late := f.deadline.toNat < s.epoch.toNat
  let a := x.granuleAt
  let d := s.fillFree 64 []
  let s := ((s.takeFree.writeDev a d).invalidate (pages a 64))
  let s := s.modCtx c fun y => { y with
    bank := !y.bank, commits := y.commits + 1, held := y.held.drop 1, prevCores := some y.cores }
  let s := (s.putFrameUnit c f parts).flushMarkers c false
  let s := if late then
      State.hrdReport { s with hrd := { s.hrd with lateCount := satInc s.hrd.lateCount, late := true } } c 3 (some f.no)
    else s
  let s := s.putRecord c f r.k (recordFlags late false (f.restarts ≠ 0) f.moved f.pinBroken) 0
  let s := (s.modCtx c fun y => y.takePending).scheduleAll r.onCores
  let s := s.feedDown c f
  let s := if x.endAfter then s.endCleanly c else s.barrierReady c
  s.settleSlot x.slot.toNat

/-- What a commit is given of its stream is as the profile asks, where the context has one (R398 to R402). -/
def State.partsFit (s : State) (c : Nat) (p : StreamParts) : Bool := s.ctxProfile c == 0 || partsOk (s.ctxProfile c) p

/-- FRAME_COMMIT (R295). -/
def execFrameCommit (args : CommitArgs) (s : State) : Host.Outcome State Fault Refusal :=
  let c := args.ctx
  match (s.ctx c).running with
  | none => .next s
  | some (f, r) =>
    .next (if s.alive && s.frameDone c f r && !s.commitHeld c && s.partsFit c args.parts then s.commit c f r args.parts else s)

end Sys2Proof.Machine
end

