-- ==== Sys2Proof/Machine/DictCodec.lean ====
section
/-!
DEFINITION. Machine/DictCodec.lean: the lossless coder of the dictionary engines: compressor, expander and context
records (R425 to R437).
-/
namespace Sys2Proof.Machine

/-- What a context record carries (Table 12.4). -/
structure DictCtx where
  /-- 1 OPEN, 2 CLOSING, 3 ENDED; an expansion is CLOSING once it has read END. -/
  st : Nat
  mode : Nat
  /-- 0 while an expansion has not read its frame header. -/
  dbits : Nat
  policy : Nat
  nf : Nat
  k : Nat
  phrase : Option Nat
  pend : Option (Nat × Nat)
  qbits : Nat
  qval : Nat
  held : List Byte
  crc : Nat
  orig : Nat
  /-- Phrases of the codes 258 on, newest first: prefix code and last byte. -/
  table : List (Nat × Nat)
deriving DecidableEq, Repr

def DictCtx.size (x : DictCtx) : Nat := 2 ^ x.dbits

/-- A command's run: the context, its output newest first, the capacity, the input consumed, and how it stopped. -/
structure DictRun where
  ctx : DictCtx
  out : List Byte
  outLen : Nat
  cap : Nat
  consumed : Nat
  full : Bool
  /-- nn of the E-DCE code of a failure. -/
  bad : Option Nat
deriving DecidableEq, Repr

/-- The least `b` from `lo` up with `v < 2 ^ b`. -/
def bitLenFrom (v : Nat) : Nat → Nat → Nat
  | 0, b => b
  | fuel + 1, b => if v < 2 ^ b then b else bitLenFrom v fuel (b + 1)
/-- width(k) (R426). -/
def codeWidth (k d : Nat) : Nat := max 9 (bitLenFrom (min (257 + k) (d - 1)) 32 0)

/-- start() (R427, R428). -/
def DictCtx.start (x : DictCtx) : DictCtx := { x with nf := 258, k := 0, phrase := none, table := [] }

/-- A fresh frame's context. -/
def DictCtx.first (mode dbits policy : Nat) : DictCtx :=
  { st := 1, mode := mode, dbits := dbits, policy := policy, nf := 258, k := 0, phrase := none, pend := none, qbits := 0
    qval := 0, held := [], crc := 0xFFFFFFFF, orig := 0, table := [] }

/-- The code of a phrase followed by a byte. -/
def lookupCode : List (Nat × Nat) → Nat → Nat → Nat → Option Nat
  | [], _, _, _ => none
  | (p, b) :: r, nf, w, c => if p = w ∧ b = c then some (nf - 1) else lookupCode r (nf - 1) w c

/-- The phrase of a code, last byte first. -/
def phraseRev (table : List (Nat × Nat)) : Nat → Nat → List Byte
  | 0, _ => []
  | fuel + 1, x =>
    if x < 256 then [BitVec.ofNat 8 x]
    else match (table.reverse)[x - 258]? with
      | some (p, b) => BitVec.ofNat 8 b :: phraseRev table fuel p
      | none => []
def DictCtx.phraseOf (x : DictCtx) (code : Nat) : List Byte := (phraseRev x.table (x.table.length + 2) code).reverse

/-- Original bytes counted and added to the running CRC. -/
def DictCtx.count (x : DictCtx) (d : List Byte) : DictCtx :=
  { x with crc := crcRefl 0x82F63B78 x.crc d, orig := (x.orig + d.length) % 2 ^ 64 }

/-! ### The compressor (R427, R434) -/

/-- Write whole bytes from the bit queue while the capacity allows. -/
def DictRun.flush : Nat → DictRun → DictRun
  | 0, r => r
  | fuel + 1, r =>
    if 8 ≤ r.ctx.qbits ∧ r.outLen < r.cap then
      DictRun.flush fuel { r with
        out := BitVec.ofNat 8 (r.ctx.qval % 256) :: r.out, outLen := r.outLen + 1
        ctx := { r.ctx with qbits := r.ctx.qbits - 8, qval := r.ctx.qval / 256 } }
    else r

/-- Append a code; none where the queue holds 8 bits or more and the output is full. -/
def DictRun.put (r : DictRun) (code : Nat) : Option DictRun :=
  let r := r.flush 4
  if 8 ≤ r.ctx.qbits then none
  else
    let w := codeWidth r.ctx.k r.ctx.size
    some (DictRun.flush 4 { r with ctx := { r.ctx with
      qval := r.ctx.qval + code * 2 ^ r.ctx.qbits, qbits := r.ctx.qbits + w, k := r.ctx.k + 1 } })

/-- Consume a byte, which becomes or extends the current phrase. -/
def DictRun.take (r : DictRun) (c : Byte) (w : Nat) : DictRun :=
  { r with consumed := r.consumed + 1, ctx := { (r.ctx.count [c]) with phrase := some w } }

/-- A full dictionary under the reset policy: RESET and a new start. -/
def DictRun.resetIfFull (r : DictRun) : DictRun :=
  if r.ctx.policy = 1 ∧ r.ctx.nf = r.ctx.size then
    match r.put 256 with
    | some r => { r with ctx := r.ctx.start }
    | none => { r with full := true, ctx := { r.ctx with phrase := none } }
  else r

/-- byte(c). -/
def DictRun.byte (r : DictRun) (c : Byte) : DictRun :=
  if r.full then r
  else
    match r.ctx.phrase with
    | none => r.take c c.toNat
    | some w =>
      match lookupCode r.ctx.table r.ctx.nf w c.toNat with
      | some x => r.take c x
      | none =>
        match r.put w with
        | none => { r with full := true }
        | some r =>
          let r := if r.ctx.nf < r.ctx.size then
              { r with ctx := { r.ctx with nf := r.ctx.nf + 1, table := (w, c.toNat) :: r.ctx.table } } else r
          let r := r.resetIfFull
          if r.full then r else r.take c c.toNat

/-- The trailer (Table 12.3). -/
def DictCtx.trailer (x : DictCtx) : List Byte := natLe 8 x.orig ++ natLe 4 (x.crc ^^^ 0xFFFFFFFF)

/-- The last bits after END go out with zero bits that pad their byte (R425); they stay in the queue until there is room. -/
def DictRun.pad (r : DictRun) : DictRun :=
  if 0 < r.ctx.qbits ∧ r.ctx.qbits < 8 ∧ r.outLen < r.cap then
    { r with out := BitVec.ofNat 8 (r.ctx.qval % 256) :: r.out, outLen := r.outLen + 1, ctx := { r.ctx with qbits := 0, qval := 0 } }
  else r

/-- Bytes after END, then the trailer, whole (R434). -/
def DictRun.close (r : DictRun) : DictRun :=
  let r := (r.flush 4).pad
  if 0 < r.ctx.qbits ∨ r.cap < r.outLen + 12 then { r with full := true }
  else { r with out := r.ctx.trailer.reverse ++ r.out, outLen := r.outLen + 12, ctx := { r.ctx with st := 3 } }

/-- FINAL: the current phrase, END, the padding and the trailer. -/
def DictRun.final (r : DictRun) : DictRun :=
  if r.full then r
  else
    let r := match r.ctx.phrase with
      | none => r
      | some w => match r.put w with
        | some r => { r with ctx := { r.ctx with phrase := none } }
        | none => { r with full := true }
    if r.full then r
    else
      match r.put 257 with
      | none => { r with full := true }
      | some r => DictRun.close { r with ctx := { r.ctx with st := 2 } }

/-- The RESET flag. -/
def DictRun.resetFlag (r : DictRun) : DictRun :=
  let r := match r.ctx.phrase with
    | some w => (r.put w).getD r
    | none => r
  match r.put 256 with
  | some r => { r with ctx := r.ctx.start }
  | none => r

/-- One compression command: from a context, with its flags, over its input. A RESET that the policy still owes, since output
was full, and one that the flag asks for before the same byte are one (R430). -/
def compressRun (x : DictCtx) (first reset final : Bool) (cap : Nat) (input : List Byte) : DictRun :=
  let r : DictRun := { ctx := x, out := [], outLen := 0, cap := cap, consumed := 0, full := false, bad := none }
  if x.st = 2 then r.close
  else
    let r := if first then { r with
        out := (natLe 4 0x54434450 ++ natLe 1 x.dbits ++ natLe 1 x.policy ++ natLe 2 0).reverse, outLen := 8 } else r
    let r := if reset then r.resetFlag else r.resetIfFull
    let r := input.foldl (fun r c => r.byte c) r
    if final ∧ r.consumed = input.length then r.final else r

/-! ### The expander (R428, R435, R436) -/

/-- Output of original bytes while the capacity allows; a phrase that does not fit stays pending. -/
def DictRun.emit (r : DictRun) (code off : Nat) : DictRun :=
  let d := (r.ctx.phraseOf code).drop off
  let n := min d.length (r.cap - r.outLen)
  let r := { r with out := (d.take n).reverse ++ r.out, outLen := r.outLen + n, ctx := r.ctx.count (d.take n) }
  if n < d.length then { r with full := true, ctx := { r.ctx with pend := some (code, off + n) } }
  else { r with ctx := { r.ctx with pend := none } }

/-- One code of the code area. -/
def DictRun.decode (r : DictRun) (x : Nat) : DictRun :=
  let r := { r with ctx := { r.ctx with k := r.ctx.k + 1 } }
  let d := r.ctx.size
  if x = 256 then { r with ctx := r.ctx.start }
  else if x = 257 then
    if r.ctx.qval = 0 then { r with ctx := { r.ctx with st := 2, qbits := 0 } } else { r with bad := some 4 }
  else
    match r.ctx.phrase with
    | none => if 255 < x then { r with bad := some 4 } else DictRun.emit { r with ctx := { r.ctx with phrase := some x } } x 0
    | some prev =>
      if r.ctx.policy = 1 ∧ r.ctx.nf + 1 = d then { r with bad := some 4 }
      else if ¬(x < r.ctx.nf ∨ (x = r.ctx.nf ∧ r.ctx.nf < d)) then { r with bad := some 4 }
      else
        let b := ((r.ctx.phraseOf (if x < r.ctx.nf then x else prev)).headD 0).toNat
        let r := if r.ctx.nf < d then
            { r with ctx := { r.ctx with nf := r.ctx.nf + 1, table := (prev, b) :: r.ctx.table } } else r
        DictRun.emit { r with ctx := { r.ctx with phrase := some x } } x 0

/-- Read the frame header from 8 held bytes. -/
def DictRun.header (r : DictRun) : DictRun :=
  let h := r.ctx.held
  if leAt h 0 4 = 0x54434450 ∧ 9 ≤ leAt h 4 1 ∧ leAt h 4 1 ≤ 16 ∧ leAt h 5 1 ≤ 1 ∧ leAt h 6 2 = 0 then
    { r with ctx := { r.ctx with dbits := leAt h 4 1, policy := leAt h 5 1, held := [] } }
  else { r with bad := some 3 }

/-- Read the trailer from 12 held bytes (R429). -/
def DictRun.readTrailer (r : DictRun) : DictRun :=
  if r.ctx.held = r.ctx.trailer then { r with ctx := { r.ctx with st := 3, held := [] } } else { r with bad := some 5 }

/-- Every whole code that the queue holds. -/
def DictRun.codes : Nat → DictRun → DictRun
  | 0, r => r
  | fuel + 1, r =>
    let w := codeWidth r.ctx.k r.ctx.size
    if r.full ∨ r.bad.isSome ∨ r.ctx.st ≠ 1 ∨ r.ctx.qbits < w then r
    else
      let x := r.ctx.qval % 2 ^ w
      DictRun.codes fuel (DictRun.decode { r with ctx := { r.ctx with qval := r.ctx.qval / 2 ^ w, qbits := r.ctx.qbits - w } } x)

/-- One input byte of an expansion. -/
def DictRun.feed (r : DictRun) (c : Byte) : DictRun :=
  if r.full ∨ r.bad.isSome ∨ r.ctx.st = 3 then r
  else
    let r := { r with consumed := r.consumed + 1 }
    if r.ctx.dbits = 0 then
      let r := { r with ctx := { r.ctx with held := r.ctx.held ++ [c] } }
      if r.ctx.held.length = 8 then r.header else r
    else if r.ctx.st = 2 then
      let r := { r with ctx := { r.ctx with held := r.ctx.held ++ [c] } }
      if r.ctx.held.length = 12 then r.readTrailer else r
    else DictRun.codes 2 { r with ctx := { r.ctx with qval := r.ctx.qval + c.toNat * 2 ^ r.ctx.qbits, qbits := r.ctx.qbits + 8 } }

/-- One expansion command. -/
def expandRun (x : DictCtx) (final : Bool) (cap : Nat) (input : List Byte) : DictRun :=
  let r : DictRun := { ctx := x, out := [], outLen := 0, cap := cap, consumed := 0, full := false, bad := none }
  let r := match x.pend with
    | some (code, off) => r.emit code off
    | none => r
  let r := if x.dbits = 0 then r else r.codes 2
  let r := input.foldl (fun r c => r.feed c) r
  if r.bad.isNone && !r.full && final && r.ctx.st != 3 then { r with bad := some 7 } else r

/-- Where a failure was found (R437): at the last byte consumed, or at the input's end where the trailer is missing. -/
def DictRun.badOffset (r : DictRun) (nn : Nat) : Nat := if nn = 7 then r.consumed else r.consumed - 1

/-! ### Context records -/

/-- LAST_STATUS of a run that did not fail. -/
def DictRun.status (r : DictRun) : Nat := if r.full then 0x80 else if r.ctx.st = 3 then 1 else 0

def optWord (o : Option Nat) : List Byte := natLe 4 (o.getD 0xFFFFFFFF)

/-- The record a command writes: the header of Table 12.4 and the phrases in use. -/
def DictRun.record (r : DictRun) : List Byte :=
  let x := r.ctx
  natLe 4 0x58434450 ++ natLe 1 x.st ++ natLe 1 x.mode ++ natLe 1 x.dbits ++ natLe 1 x.policy ++ natLe 4 x.nf ++
  natLe 4 x.k ++ optWord x.phrase ++ optWord (x.pend.map Prod.fst) ++ natLe 4 (x.pend.elim 0 Prod.snd) ++ natLe 1 x.qbits ++
  natLe 1 x.held.length ++ natLe 1 r.status ++ natLe 1 0 ++ natLe 4 x.qval ++ natLe 4 x.crc ++ natLe 8 x.orig ++
  natLe 4 r.consumed ++ natLe 4 r.outLen ++ natLe 8 0 ++ padTo 12 x.held ++ List.replicate 52 0 ++
  (x.table.reverse.flatMap fun p => natLe 2 p.1 ++ natLe 1 p.2 ++ natLe 1 0)

/-- An optional code of a record. -/
def readOptWord (v : Nat) : Option Nat := if v = 0xFFFFFFFF then none else some v

/-- Read a record; none where it is invalid for a command of the given mode (R431). -/
def readDictCtx (b : List Byte) (mode : Nat) : Option DictCtx :=
  let st := leAt b 4 1
  let dbits := leAt b 6 1
  let nf := leAt b 8 4
  if leAt b 0 4 ≠ 0x58434450 ∨ ¬(st = 1 ∨ st = 2) ∨ leAt b 5 1 ≠ mode ∨ ¬((9 ≤ dbits ∧ dbits ≤ 16) ∨ (mode = 2 ∧ dbits = 0)) ∨
      nf < 258 ∨ (dbits ≠ 0 ∧ 2 ^ dbits < nf) then none
  else some {
    st := st, mode := mode, dbits := dbits, policy := leAt b 7 1, nf := nf, k := leAt b 0xC 4
    phrase := readOptWord (leAt b 0x10 4), pend := (readOptWord (leAt b 0x14 4)).map fun c => (c, leAt b 0x18 4)
    qbits := leAt b 0x1C 1, qval := leAt b 0x20 4, held := slice b 0x40 (leAt b 0x1D 1), crc := leAt b 0x24 4
    orig := leAt b 0x28 8
    table := ((List.range (nf - 258)).map fun i => (leAt b (128 + 4 * i) 2, leAt b (130 + 4 * i) 1)).reverse }

/-- Bytes of a record's region for a dictionary size. -/
def recordBytesFor (dbits : Nat) : Nat := 128 + 4 * 2 ^ dbits

end Sys2Proof.Machine
end

