-- ==== Sys2Proof/Machine/RtvBase.lean ====
section
/-!
DEFINITION. Machine/RtvBase.lean: Retriever descriptors and their checks, address translation, and how a command ends
(R258 to R274, R281, R282, R721).
-/
namespace Sys2Proof.Machine

/-! ### Descriptors (Table 7.1) -/

def Desc.read (b : List Byte) : Desc :=
  { opcode := BitVec.ofNat 8 (leAt b 0 1), flags := BitVec.ofNat 8 (leAt b 1 1), spaces := BitVec.ofNat 8 (leAt b 2 1)
    res3 := BitVec.ofNat 8 (leAt b 3 1), tally := BitVec.ofNat 16 (leAt b 4 2), vector := BitVec.ofNat 16 (leAt b 6 2)
    src := BitVec.ofNat 64 (leAt b 8 8), dst := BitVec.ofNat 64 (leAt b 0x10 8), len := BitVec.ofNat 32 (leAt b 0x18 4)
    tagId := BitVec.ofNat 32 (leAt b 0x1C 4), arg := padTo 24 (slice b 0x20 24)
    waitTally := BitVec.ofNat 16 (leAt b 0x38 2), peer := BitVec.ofNat 16 (leAt b 0x3A 2)
    waitValue := BitVec.ofNat 32 (leAt b 0x3C 4) }

def Desc.isVolatile (d : Desc) : Bool := d.flags.getLsbD 0
def Desc.fresh (d : Desc) : Bool := d.flags.getLsbD 1
def Desc.record (d : Desc) : Bool := d.flags.getLsbD 2
def Desc.msix (d : Desc) : Bool := d.flags.getLsbD 3
def Desc.ordered (d : Desc) : Bool := d.flags.getLsbD 4
def Desc.wait (d : Desc) : Bool := d.flags.getLsbD 5
def Desc.srcSpace (d : Desc) : Nat := nfld d.spaces.toNat 0 3
def Desc.dstSpace (d : Desc) : Nat := nfld d.spaces.toNat 3 3
def Desc.op (d : Desc) : Nat := d.opcode.toNat
/-- A number in the argument area. -/
def Desc.argAt (d : Desc) (off n : Nat) : Nat := leAt d.arg off n

def Issuer.isUnit : Issuer → Bool
  | .unit _ _ _ => true
  | .driver _ => false

/-- Source and destination spaces of an opcode (Table 7.2). -/
def Desc.spacesOk (d : Desc) : Bool :=
  let s := d.srcSpace
  let t := d.dstSpace
  match d.op with
  | 1 => s ≤ 3 && (t ≤ 3 || t == 5)
  | 2 | 3 | 8 | 9 => s ≤ 3 && t ≤ 3
  | 4 => s == 0 && t ≤ 3
  | 5 => s ≤ 2 && t == 0
  | 6 => s ≤ 2 && t == 4
  | 7 => s == 4 && t ≤ 2
  | _ => false

/-- The spaces a command's source may use, and its destination (Table 7.3). -/
def Desc.allowed (d : Desc) (i : Issuer) : Bool :=
  let src (x : Nat) : Bool := match i with
    | .unit _ _ _ => true
    | .driver f => x == 0 || x == 3 || (x == 4 && f == 0)
  let dst (x : Nat) : Bool := match i with
    | .unit _ _ _ => x != 0
    | .driver f => x == 0 || x == 3 || (x == 4 && f == 0)
  (d.op == 4 || src d.srcSpace) && (d.op == 5 || dst d.dstSpace)

/-- The argument area and the length rule (Table 7.2, Tables 12.1 and 12.2). -/
def Desc.argsOk (d : Desc) : Bool :=
  let zero (off : Nat) : Bool := (d.arg.drop off).all fun b => b == 0
  let len := d.len.toNat
  match d.op with
  | 1 => zero 0 && 1 ≤ len && (d.dstSpace != 5 || d.dst.toNat < 8)
  | 2 => zero 12 && 1 ≤ len && 1 ≤ d.argAt 0 4 && d.argAt 0 4 ≤ 65536 && len ≤ d.argAt 8 4 && len * d.argAt 0 4 < 2 ^ 32
  | 3 => zero 16 && 1 ≤ d.argAt 8 4 && d.argAt 8 4 ≤ 2 ^ 20 && 1 ≤ d.argAt 12 4 && d.argAt 12 4 ≤ 65536 &&
      len == d.argAt 8 4 * d.argAt 12 4
  | 4 => zero 8 && 1 ≤ len && d.src == 0
  | 5 => zero 2 && d.argAt 0 1 ≤ 1 && d.argAt 1 1 ≤ 7 && d.dst == 0
  | 6 => zero 2 && 1 ≤ len
  | 7 => zero 0 && 1 ≤ len
  | 8 | 9 =>
    let fl := d.argAt 12 2
    let first := fl.testBit 0
    let comp := d.op == 8
    d.argAt 14 2 == 0 && 16 ≤ d.argAt 8 4 && d.argAt 0 8 % 64 == 0 && fl < 256 &&
    (if fl.testBit 3 then d.argAt 16 8 % 64 == 0 else d.argAt 16 8 == 0) &&
    (!fl.testBit 2 || (comp && !first)) && ((comp && first) || nfld fl 4 4 == 0)
  | _ => false

/-- Physical tally of a driver command's TALLY or WAIT_TALLY; the encoding of R267. -/
def driverTally (t : Nat) : Option Nat := if t < 4096 then some (tallyKey (nfld t 10 2) (t % 1024)) else none
/-- The channel that owns a driver tally, by its key. -/
def tallyOwner (k : Nat) : Option Nat := if k % 1024 < 768 then none else some (16 * (k / 1024) + (k % 1024 - 768) / 16)
/-- A driver tally belongs to a channel of a function. -/
def State.ownsTally (s : State) (f k : Nat) : Bool :=
  match tallyOwner k with
  | some ch => (s.chan ch).mode == 2 && (s.chan ch).func.toNat == f
  | none => false

/-- TALLY and WAIT_TALLY are encoded as R267 says. -/
def Desc.talliesOk (d : Desc) (i : Issuer) : Bool :=
  match i with
  | .unit _ _ _ => d.tally.toNat < 256 && (!d.wait || d.waitTally.toNat < 256)
  | .driver _ => d.tally.toNat < 4096 && (!d.wait || d.waitTally.toNat < 4096)

/-- A descriptor meets Tables 7.1 to 7.3 and R266. -/
def Desc.formOk (d : Desc) (i : Issuer) : Bool :=
  let peer : Bool := d.srcSpace == 4 || d.dstSpace == 4
  1 ≤ d.op && d.op ≤ 9 && d.flags.toNat < 64 && d.spaces.toNat < 64 && d.res3 == 0 && d.vector.toNat < 256 &&
  d.spacesOk && d.allowed i && d.argsOk && d.talliesOk i &&
  (if peer then 1 ≤ d.peer.toNat && d.peer.toNat < 2048 else d.peer == 0) && !(i.isUnit && d.record)

/-! ### Where a command's bytes lie (Table 7.3) -/

/-- A translated place. -/
inductive Place where
  | mem (addr : Nat)
  | host (fn addr : Nat)
  | peer (member job addr : Nat)
deriving DecidableEq, Repr

/-- The function a command acts for. -/
def State.actingFn (s : State) : Issuer → Nat
  | .unit c _ _ => s.ctxOwner c
  | .driver f => f
/-- The requester class of a command (Table 18.4). -/
def State.issuerClass (s : State) : Issuer → Nat
  | .unit c _ _ => 0x10 + s.ctxOwner c
  | .driver f => f

/-- A range lies in one of the image's weight regions (R264, R379). -/
def State.inWeights (s : State) (c a n : Nat) : Bool :=
  (s.ctxImage c).any fun i => i.wrefs.any fun w => w.addr ≤ a && a + n ≤ w.addr + w.length

/-- A range of module addresses a driver command may name (R277). -/
def State.driverRange (s : State) (a n : Nat) (write : Bool) : Bool :=
  inDev a n || match tileCore? a n with
    | some core => s.enabled core && !s.fenced core && !(write && s.coreBusy core)
    | none => false

/-- Translate `n` bytes of a space at start; none where the address is out of range or cannot be translated. -/
def State.locate (s : State) (i : Issuer) (peer space a n : Nat) (write : Bool) : Option Place :=
  match space, i with
  | 0, .unit c _ _ => if !write ∧ s.inWeights c a n then some (.mem a) else none
  | 0, .driver _ => if s.driverRange a n write then some (.mem a) else none
  | 1, .unit c _ _ => if a + n ≤ (s.ctx c).len then some (.mem ((s.ctx c).base + a)) else none
  | 2, .unit c _ _ =>
    match s.unitRun c (nfld a 21 16) with
    | some u => if a < 2 ^ 37 ∧ u.kind = 0 ∧ a % 2 ^ 21 + n ≤ u.size then some (.mem (u.addr (a % 2 ^ 21))) else none
    | none => none
  | 3, _ => if a + n ≤ 2 ^ 64 then some (.host (s.actingFn i) a) else none
  | 4, .unit c _ _ =>
    match s.jobOfCtx c with
    | some j => if a + n ≤ (s.ctx c).len then some (.peer (s.pck.atOffset peer) j a) else none
    | none => none
  | 4, .driver _ => if inDev a n then some (.peer (s.pck.atOffset peer) 256 a) else none
  | _, _ => none

/-- The page at which the Cadastre denies a command's range; unit tile memory, host memory and the peer's side are not
judged here (R622). -/
def State.rangeDenied (s : State) (i : Issuer) (space : Nat) (p : Place) (n : Nat) (write : Bool) : Option Nat :=
  match p with
  | .mem a => if space = 2 then none else s.cadDenied (s.issuerClass i) a n write
  | _ => none

/-! ### Reading and writing -/

/-- The bytes of a range as a command reads them: host memory answers from outside. -/
def State.fetchBytes (s : State) (q : Nat) (isVolatile : Bool) (p : Place) (n : Nat) (host : List Byte) : List Byte × State :=
  match p with
  | .mem a => s.streamRead q isVolatile a n
  | .host _ _ => (s.fillFree n host, s.takeFree)
  | .peer _ _ _ => ([], s)

/-- A byte string cut at granule boundaries. -/
def splitGranules : Nat → Nat → List Byte → List (Nat × List Byte)
  | 0, _, _ => []
  | fuel + 1, a, d =>
    if d.isEmpty then []
    else
      let n := 64 - a % 64
      (a, d.take n) :: splitGranules fuel (a + n) (d.drop n)

/-- The writes of a byte string at a place, granule by granule. -/
def Place.writes (p : Place) (d : List Byte) : List (Dest × List Byte) :=
  match p with
  | .mem a => (splitGranules (d.length + 1) a d).map fun x => (Dest.module x.1, x.2)
  | .host f a => (splitGranules (d.length + 1) a d).map fun x => (Dest.host f x.1, x.2)
  | .peer _ _ _ => []

/-- An Ethernet frame padded to 60 bytes (R472). -/
def d60 (d : List Byte) : List Byte := if d.length < 60 then padTo 60 d else d

/-- The granule a write lies in: the host function of a host granule, and its address. -/
def Dest.granule? : Dest → Option (Option Nat × Nat)
  | .module a => some (none, granule a)
  | .host f a => some (some f, granule a)
  | .hostMask f g _ => some (some f, g)
  | .gate _ => none

/-- What a list of writes puts into a granule, byte by byte. -/
def overlay (ws : List (Dest × List Byte)) (key : Option Nat × Nat) : List (Option Byte) :=
  (List.range 64).map fun i => ws.foldl (fun b w =>
    match w.1 with
    | .module a => if key = (none, granule a) ∧ a ≤ key.2 + i then (w.2[key.2 + i - a]?).orElse fun _ => b else b
    | .host f a => if key = (some f, granule a) ∧ a ≤ key.2 + i then (w.2[key.2 + i - a]?).orElse fun _ => b else b
    | _ => b) none

/-- The runs of bytes of a granule, with where each begins. -/
def byteRuns : Nat → List (Option Byte) → List (Nat × List Byte)
  | _, [] => []
  | i, none :: r => byteRuns (i + 1) r
  | i, some b :: r =>
    match byteRuns (i + 1) r with
    | (j, bs) :: t => if j = i + 1 then (i, b :: bs) :: t else (i, [b]) :: (j, bs) :: t
    | [] => [(i, [b])]

/-- The writes that put given bytes into a granule: one request for a granule of host memory (R227). -/
def granuleWrites (key : Option Nat × Nat) (bytes : List (Option Byte)) : List (Dest × List Byte) :=
  match key.1, byteRuns 0 bytes with
  | none, rs => rs.map fun r => (.module (key.2 + r.1), r.2)
  | some f, [r] => [(.host f (key.2 + r.1), r.2)]
  | some f, _ => [(.hostMask f key.2 bytes, bytes.filterMap id)]

/-- A key kept at its first place in a list. -/
def firstOf {α : Type} [BEq α] (l : List α) : List α := (l.foldl (fun m x => if m.contains x then m else x :: m) []).reverse

/-- The writes of a command's pieces, gathered granule by granule, since every granule is written whole (R225, R227, R276). -/
def gatherWrites (ws : List (Dest × List Byte)) : List (Dest × List Byte) :=
  (firstOf (ws.filterMap fun w => w.1.granule?)).flatMap fun key => granuleWrites key (overlay ws key)

/-- Make one write of a command. -/
def State.putDest (s : State) (w : Dest × List Byte) : State :=
  match w.1 with
  | .module a => s.write a w.2
  | .host f a => s.hostWrite f a w.2
  | .hostMask f g bytes => s.emitIf s.hst.linkUp (.hostMasked f g bytes)
  | .gate port => s.emit (.gateFrame port (d60 w.2))

/-- The device-memory pages of a list of writes. -/
def writtenPages (ws : List (Dest × List Byte)) : List Nat :=
  ws.foldl (fun l w => match w.1 with
    | .module a => if a < tileBase then (pages a w.2.length).foldl (fun m p => insertNat p m) l else l
    | _ => l) []

/-- The first device-memory granule that a list of writes covers only in part and that is bad (R254). -/
def State.badMerge (s : State) (ue : UeList) (ws : List (Dest × List Byte)) : Option (Nat × Bool × Nat) :=
  ws.findSome? fun w => match w.1 with
    | .module a => if a < tileBase then s.badGranule ue (partGranules a w.2.length) else none
    | _ => none

/-! ### How a command ends -/

/-- Where an event of a command happened. -/
def State.cmdEv (s : State) (ch : Nat) (i : Issuer) (blk : Block) (nn : Nat) (cls : ErrClass) (detail : List Nat) : Ev :=
  match i with
  | .unit c f _ => { blk := blk, nn := nn, cls := some cls, func := some (s.ctx c).func, quarter := some (chanQuarter ch)
                     unit := chanUnit ch, ctx := some c, frame := some f, detail := detail }
  | .driver f => { blk := blk, nn := nn, cls := some cls, func := some f, quarter := some (chanQuarter ch)
                   unit := chanUnit ch, detail := detail }

/-- The class of a command's failure (R721). -/
def failClass (i : Issuer) : ErrClass := if i.isUnit then .frameContained else .reportOnly

/-- A completion record (Table 7.5). -/
def recordOf (k : Cmd) (ch tallyValue epoch : Nat) (phase : Bool) : List Byte :=
  natLe 4 k.desc.tagId.toNat ++ natLe 1 k.desc.op ++ natLe 1 k.status.toNat ++ natLe 1 ch ++ natLe 1 (bitAt 0 phase) ++
  natLe 4 tallyValue ++ natLe 4 k.resultLen ++ natLe 8 epoch ++ natLe 4 k.info ++ natLe 4 0

def Chan.recordSize (x : Chan) : Nat := 2 ^ x.crecLog2.toNat
/-- The record ring is full (R273). -/
def Chan.recordFull (x : Chan) : Bool := (x.head.toNat + 1) % x.recordSize == x.tail.toNat

/-- A channel halts where a record cannot be written. -/
def Chan.halt (x : Chan) : Chan := { x with halted := true }

/-- Write a command's completion record. A ring in device memory that the Cadastre denies halts the channel (R623); so does
a record that would go to part of a poisoned granule, which is not applied: E-MEM-03 (R254). -/
def State.putCompletion (s : State) (ch fn : Nat) (k : Cmd) (tallyValue : Nat) : State :=
  let x := s.chan ch
  let a := x.crecAddr.toNat * 64 + 32 * x.head.toNat
  let d := recordOf k ch tallyValue s.epoch.toNat x.phase
  let head := (x.head.toNat + 1) % x.recordSize
  let y := { x with head := BitVec.ofNat 16 head, phase := if head = 0 then !x.phase else x.phase }
  if x.crecHost then (s.setChan ch y).hostWrite fn a d
  else
    match s.cadDenied fn a 32 true with
    | some page =>
      ((s.setChan ch x.halt).deny fn page true .reportOnly (some fn) none none).report
        { blk := .hst, nn := 3, func := some fn, quarter := some (chanQuarter ch), unit := .channel ch }
    | none =>
      match s.badGranule [] (partGranules a 32) with
      | some b => (s.setChan ch { x.halt with lastErr := 5 }).memError 3 b.1 b.2.2 b.2.1
          (s.cmdEv ch k.issuer .mem 3 .reportOnly [])
      | none => (s.setChan ch y).writeDev a d

/-- A command leaves its tag. -/
def State.freeTag (s : State) (ch tag : Nat) : State :=
  s.modChan ch fun x => { x with started := x.started.filter fun k => k.tag != tag }

/-- The MSI-X message of a command's descriptor. -/
def State.cmdMsix (s : State) (k : Cmd) : State :=
  if k.desc.msix then s.msix (s.actingFn k.issuer) k.desc.vector.toNat else s

/-- A command's success or success with full output. -/
def Cmd.succeeded (k : Cmd) : Bool := k.status == 0 || k.status == 0x80

/-- A record can be written to a channel's ring: its granule is not poisoned (R254). -/
def State.recordFits (s : State) (ch : Nat) : Bool :=
  let x := s.chan ch
  x.crecHost || (s.badGranule [] (partGranules (x.crecAddr.toNat * 64 + 32 * x.head.toNat) 32)).isNone

/-- The end of a driver-mode command: its record, then its tally where it succeeded, then its message (R272, R274). One
whose record meets a poisoned granule fails, without a tally increment (R254). -/
def State.endDriver (s : State) (ch fn : Nat) (k : Cmd) : State :=
  let fits := !k.desc.record || s.recordFits ch
  let s := if k.desc.record then s.putCompletion ch fn k (if k.succeeded then (s.tally k.tally + 1).toNat else 0) else s
  let s := if !fits then s.modChan ch fun x => { x with failed := satInc x.failed } else s
  let s := if k.succeeded && fits then
      (s.incTally k.tally).modChan ch fun x => { x with done := x.done + 1 }
    else s
  (s.cmdMsix k).freeTag ch k.tag

/-- The end of a unit-issued command that succeeded. -/
def State.endUnitCmd (s : State) (ch c : Nat) (k : Cmd) : State :=
  let s := ((s.incTally k.tally).modChan ch fun x => { x with done := x.done + 1 }).moved c
  (s.cmdMsix k).freeTag ch k.tag

/-- A command put into the started list in place of the one with its tag. -/
def holdIn (k : Cmd) : List Cmd → List Cmd
  | [] => [k]
  | y :: r => if y.tag = k.tag then k :: r else y :: holdIn k r

/-- A driver-mode command's end, held while the record ring is full (R273). -/
def State.finishDriver (s : State) (ch fn : Nat) (k : Cmd) : State :=
  if k.desc.record && (s.chan ch).recordFull then
    s.modChan ch fun x => { x with started := holdIn { k with heldRecord := true } x.started }
  else s.endDriver ch fn k

/-- A command completes: its remaining writes land, the pages of a fresh one, as of a put, are dropped from every cache, the
tally that a put names is counted, and its end follows (R244, R271). -/
def State.completeCmd (s : State) (ch : Nat) (k : Cmd) : State :=
  let s := k.todo.foldl (fun t w => t.putDest w) s
  let s := if k.issuer.isUnit || k.desc.fresh || k.desc.op == 6 then s.invalidate k.pages else s
  let s := match k.peerTally with | some n => s.incTally n | none => s
  let k := { k with todo := [], landed := k.resultLen }
  match k.issuer with
  | .unit c _ _ => s.endUnitCmd ch c k
  | .driver f => s.finishDriver ch f k

/-- A command that ended without success: RESULT_LEN gives the bytes written to the destination (Table 7.5); how many a put
whose peer sent no success wrote there is not known here (R282), a free value. -/
def Cmd.endedBad (k : Cmd) (free : Nat) (status : BitVec 8) (info : Nat) : Cmd :=
  { k with
    status := status, info := info, todo := []
    resultLen := if k.waitPeer ∧ k.desc.op = 6 then Config.freeNat free % (k.desc.len.toNat + 1) else k.landed }

/-- A command fails: its record in the log, and the loss of its frame, or the halt of its channel (R281, R274). -/
def State.failCmd (s : State) (ch : Nat) (k : Cmd) (nn : Nat) (root : Err) (info : Nat) : State :=
  let s := s.modChan ch fun x => { x with lastErr := BitVec.ofNat 8 nn, failed := satInc x.failed }
  let s := s.report (s.cmdEv ch k.issuer .rtv nn (failClass k.issuer) [k.desc.tagId.toNat, info, k.desc.op])
  match k.issuer with
  | .unit c f _ => (s.freeTag ch k.tag).loseFrame c f root.lossCode
  | .driver f =>
    (s.takeFree.modChan ch Chan.halt).finishDriver ch f (k.endedBad s.freeCount (BitVec.ofNat 8 nn) info)

/-- A queued or started driver-mode command is cancelled (R274, R283, R284). -/
def State.cancelDriver (s : State) (ch fn : Nat) (k : Cmd) : State :=
  let s := (s.tellPeer k).modChan ch fun x => { x with lastErr := 12 }
  let s := s.report (s.cmdEv ch k.issuer .rtv 12 .reportOnly [k.desc.tagId.toNat, 0xFFFFFFFF, k.desc.op])
  s.takeFree.finishDriver ch fn (k.endedBad s.freeCount 12 0xFFFFFFFF)

end Sys2Proof.Machine
end

