-- ==== Sys2Proof/Machine/RtvStart.lean ====
section
/-!
DEFINITION. Machine/RtvStart.lean: which Retriever and dictionary commands may start, the checks at the start, and what
a command reads and is to write (R260 to R264, R267, R276, R281, R423 to R437, R440, R472, R492 to R494).
-/
namespace Sys2Proof.Machine

/-! ### The command that starts -/

/-- A unit queue with a command at its head. -/
structure UnitHead where
  ctx : Nat
  frame : Nat
  unit : UnitRun

/-- The unit queues of a channel, or of a dictionary engine's own units. -/
def State.unitHeads (s : State) (ch : Nat) : List UnitHead :=
  s.hrd.ctxs.flatMap fun p =>
    match p.2.running with
    | some (f, r) =>
      if r.cancelling then []
      else (r.units.filter fun u => u.kind == (if ch < 64 then 3 else 2) && u.chanKey == ch && !u.queue.isEmpty).map fun u =>
        { ctx := p.1, frame := f.no, unit := u }
    | none => []

/-- A command as it starts. -/
structure Starting where
  ch : Nat
  issuer : Issuer
  /-- 64 whole bytes were given. -/
  whole : Bool
  desc : Desc
  args : StartArgs
  index : List Byte

/-- A head wait that holds a command back; one whose tally cannot be read does not. -/
def State.waits (s : State) (i : Issuer) (d : Desc) : Bool :=
  d.wait && match i with
    | .unit c _ _ => decide (d.waitTally.toNat < 256) &&
        !reached (match Tab.find? (s.ctx c).tallies d.waitTally.toNat with | some k => s.tally k | none => 0) d.waitValue
    | .driver f => (driverTally d.waitTally.toNat).any fun k => s.ownsTally f k && !reached (s.tally k) d.waitValue

/-- A started command of the same queue. -/
def Chan.busyFor (x : Chan) (i : Issuer) : Bool := x.started.any fun k => k.issuer == i

/-- Tags in use (R260). -/
def Chan.tagsUsed (x : Chan) : Nat := (x.started.filter fun k => k.tag < 64).length

/-- A command may start (R261). -/
def State.mayStart (s : State) (ch : Nat) (i : Issuer) (d : Desc) : Bool :=
  let x := s.chan ch
  x.tagsUsed < 64 && !s.waits i d && !(d.ordered && x.busyFor i)

/-- The row of a command: opcodes outside Table 7.2 start, and fail, as COPY does. -/
def Desc.row (d : Desc) : Nat := if 1 ≤ d.op && d.op ≤ 9 then d.op else 1

def UnitHead.issuer (h : UnitHead) : Issuer := .unit h.ctx h.frame h.unit.unit
def UnitHead.raw (h : UnitHead) : List Byte := h.unit.queue.headD []

/-- A unit queue whose head is ready. -/
def State.headReady (s : State) (ch : Nat) (h : UnitHead) : Bool := s.mayStart ch h.issuer (Desc.read h.raw)

/-- The age order with its bypass bound allows a head (R67, R261). -/
def State.headAllowed (s : State) (ch : Nat) (h : UnitHead) (hs : List UnitHead) : Bool :=
  s.headReady ch h && hs.all fun y => !(s.headReady ch y && y.unit.qAge < h.unit.qAge && 16 ≤ y.unit.qPasses)

/-- Take a unit queue's head: older ready heads are passed over once. -/
def State.popHead (s : State) (ch : Nat) (h : UnitHead) (hs : List UnitHead) : State :=
  let s := hs.foldl (fun t y => if s.headReady ch y && y.unit.qAge < h.unit.qAge then
      t.modUnit y.ctx y.unit.unit fun u => { u with qPasses := u.qPasses + 1 } else t) s
  (s.modUnit h.ctx h.unit.unit fun u => { u with queue := u.queue.drop 1, qPasses := 0, qAge := s.rtv.nextAge }).nextAge

/-- A channel, or a dictionary engine, that starts commands. -/
def State.serves (s : State) (ch : Nat) : Bool :=
  s.alive && if ch < 64 then !(s.chan ch).disabled else ch < 72 && !(s.dceEngine (ch - 64)).disabled

/-- The command a row starts, with the state that has taken it from its queue. -/
def State.starting (s : State) (ch op : Nat) (a : StartArgs) (index : List Byte) : Option (Starting × State) :=
  if !s.serves ch then none
  else if (s.chan ch).mode == 1 then
    let hs := s.unitHeads ch
    match hs[a.queue]? with
    | none => none
    | some h =>
      let d := Desc.read h.raw
      if d.row = op ∧ s.headAllowed ch h hs then
        some ({ ch := ch, issuer := h.issuer, whole := h.raw.length == 64, desc := d, args := a, index := index }, s.popHead ch h hs)
      else none
  else if (s.chan ch).mode == 2 then
    match (s.chan ch).driverQ with
    | [] => none
    | d :: r =>
      let i : Issuer := .driver (s.chan ch).func.toNat
      if d.row = op ∧ !(s.chan ch).halted ∧ s.mayStart ch i d then
        some ({ ch := ch, issuer := i, whole := true, desc := d, args := a, index := index },
          s.modChan ch fun x => { x with driverQ := r })
      else none
  else none

/-- The lowest free tag of a channel. -/
def Chan.freeTag (x : Chan) : Nat := ((List.range 64).find? fun t => x.started.all fun k => k.tag != t).getD 64

/-- The physical tally that a command increments. -/
def State.cmdTally (s : State) (i : Issuer) (d : Desc) : Nat × State :=
  match i with
  | .unit c _ _ => s.instTally c (d.tally.toNat % 256)
  | .driver _ => ((driverTally d.tally.toNat).getD 0, s)

/-- A command that has taken a tag. -/
def Starting.cmd (x : Starting) (s : State) (tally : Nat) : Cmd :=
  { tag := (s.chan x.ch).freeTag, issuer := x.issuer, desc := x.desc, tally := tally, todo := [], pages := []
    resultLen := 0, info := 0, status := 0, unpublished := false, heldRecord := false, engine := none, ctxOut := none
    fate := none, waitPeer := false }

/-- A command fails at its start (R281): no access has been made. -/
def State.failStart (s : State) (x : Starting) (nn : Nat) : State := s.failCmd x.ch (x.cmd s 0) nn ⟨.rtv, nn⟩ 0xFFFFFFFF

/-! ### The checks at the start -/

/-- A range a command names: its space, address and length, and whether it is written. -/
structure Reach where
  space : Nat
  addr : Nat
  len : Nat
  write : Bool

/-- A part of a command's data: source address, destination address, bytes. -/
structure Piece where
  src : Nat
  dst : Nat
  len : Nat

def Desc.pieces (d : Desc) (index : List Byte) : List Piece :=
  let src := d.src.toNat
  let dst := d.dst.toNat
  match d.op with
  | 2 => (List.range (d.argAt 0 4)).map fun r => { src := src + r * d.argAt 4 4, dst := dst + r * d.argAt 8 4, len := d.len.toNat }
  | 3 => (List.range (d.argAt 8 4)).map fun i =>
      { src := src + leAt index (4 * i) 4 * d.argAt 12 4, dst := dst + i * d.argAt 12 4, len := d.argAt 12 4 }
  | _ => [{ src := src, dst := dst, len := d.len.toNat }]

def Desc.dictFlag (d : Desc) (i : Nat) : Bool := (d.argAt 12 2).testBit i

/-- The ranges of a dictionary command, its context record taken as `recLen` bytes: input, output, CTX and CTX_OUT. -/
def Desc.dictRanges (d : Desc) (recLen : Nat) : List Reach :=
  [{ space := d.srcSpace, addr := d.src.toNat, len := d.len.toNat, write := false },
   { space := d.dstSpace, addr := d.dst.toNat, len := d.argAt 8 4, write := true },
   { space := d.dstSpace, addr := d.argAt 0 8, len := recLen, write := true }] ++
  (if d.dictFlag 3 then [{ space := d.dstSpace, addr := d.argAt 16 8, len := recLen, write := true }] else [])

/-- Every range judged at the start. -/
def Desc.reaches (d : Desc) (recLen : Nat) : List Reach :=
  let out (p : Piece) : Reach := { space := d.dstSpace, addr := p.dst, len := p.len, write := true }
  let inp (p : Piece) : Reach := { space := d.srcSpace, addr := p.src, len := p.len, write := false }
  match d.op with
  | 1 => (d.pieces []).map inp ++ (if d.dstSpace = 5 then [] else (d.pieces []).map out)
  | 2 | 6 | 7 => (d.pieces []).map inp ++ (d.pieces []).map out
  | 3 => [{ space := d.srcSpace, addr := d.argAt 0 8, len := 4 * d.argAt 8 4, write := false },
          { space := d.dstSpace, addr := d.dst.toNat, len := d.len.toNat, write := true }]
  | 4 => (d.pieces []).map out
  | 5 => (d.pieces []).map inp
  | _ =>
    let record (addr : Nat) (write : Bool) : Reach := { space := d.dstSpace, addr := addr, len := recLen, write := write }
    (d.dictRanges recLen).take 2 ++ (if d.dictFlag 0 then [] else [record (d.argAt 0 8) false]) ++
      [record (if d.dictFlag 3 then d.argAt 16 8 else d.argAt 0 8) true]

/-- Two ranges of one space share a byte. -/
def Reach.meets (a b : Reach) : Bool := 0 < a.len && 0 < b.len && a.space == b.space && a.addr < b.addr + b.len && b.addr < a.addr + a.len

def anyMeets : List Reach → Bool
  | [] => false
  | x :: r => r.any (fun y => x.meets y) || anyMeets r

/-- Where a command's source and destination lie. -/
def State.place (s : State) (x : Starting) (r : Reach) : Option Place :=
  s.locate x.issuer x.desc.peer.toNat r.space r.addr r.len r.write

/-- What the host answers a command's record read with: after its input where that comes from the host too. -/
def Starting.recordHost (x : Starting) : List Byte := x.args.host.drop (if x.desc.srcSpace = 3 then x.desc.len.toNat else 0)

/-- `n` bytes that a command reads at a place, before it is known whether it may start; none where the place cannot be
translated. -/
def State.glance (s : State) (x : Starting) (r : Reach) (host : List Byte) : List Byte :=
  match s.place x r with
  | some p => (s.fetchBytes (chanQuarter x.ch) x.desc.isVolatile p r.len host).1
  | none => []

/-- The first `n` input bytes of a command. -/
def State.glanceInput (s : State) (x : Starting) (n : Nat) : List Byte :=
  s.glance x { space := x.desc.srcSpace, addr := x.desc.src.toNat, len := min n x.desc.len.toNat, write := false } x.args.host

/-- DBITS that a frame header gives, where its 8 bytes are there and valid (Table 12.3). -/
def headerBits (h : List Byte) : Option Nat :=
  if h.length < 8 then none else if 9 ≤ leAt h 4 1 ∧ leAt h 4 1 ≤ 16 then some (leAt h 4 1) else none

/-- The bytes that a command's context record takes: its header, and its table where DBITS is known, from the command, the
record or the frame header (R431). -/
def State.recordLen (s : State) (x : Starting) : Nat :=
  let d := x.desc
  let of_ : Option Nat → Nat | some b => recordBytesFor b | none => 128
  if d.dictFlag 0 then of_ (if d.op = 8 then some (9 + nfld (d.argAt 12 2) 4 3) else headerBits (s.glanceInput x 8))
  else
    let r := s.glance x { space := d.dstSpace, addr := d.argAt 0 8, len := 128, write := false } x.recordHost
    if leAt r 0 4 ≠ 0x58434450 then 128
    else if leAt r 6 1 = 0 ∧ d.op = 9 then of_ (headerBits ((slice r 0x40 (min 7 (leAt r 0x1D 1)) ++ s.glanceInput x 8).take 8))
    else of_ (if 9 ≤ leAt r 6 1 ∧ leAt r 6 1 ≤ 16 then some (leAt r 6 1) else none)

/-- The TALLY of a driver-mode command, and the WAIT_TALLY of its head wait, belong to its function (R267). -/
def State.talliesOwned (s : State) (i : Issuer) (d : Desc) : Bool :=
  match i with
  | .unit _ _ _ => true
  | .driver f =>
    ((driverTally d.tally.toNat).any fun k => s.ownsTally f k) &&
    (!d.wait || (driverTally d.waitTally.toNat).any fun k => s.ownsTally f k)

/-- The output ring a COPY names: function and ring (R492, R493). -/
def State.copyRing (s : State) (x : Starting) : Option (Nat × Nat) :=
  match x.issuer with
  | .unit c _ _ =>
    match (s.ctx c).rings.getD x.desc.dst.toNat none with
    | some r => if 2 * entryBlocks x.desc.len.toNat ≤ (s.oq (s.ctx c).func r).size then some ((s.ctx c).func, r) else none
    | none => none
  | .driver _ => none

/-- The failure of a command at its start: a code, or a denial at a page (R281, R472). -/
inductive StartFault where
  | code (nn : Nat)
  | denied (page : Nat) (write : Bool)
deriving DecidableEq, Repr

def State.startFault (s : State) (x : Starting) : Option StartFault :=
  let d := x.desc
  let recLen := if 8 ≤ d.op then s.recordLen x else 0
  if !x.whole || !d.formOk x.issuer || (64 ≤ x.ch && d.op < 8) then some (.code 1)
  else if 8 ≤ d.op && anyMeets (d.dictRanges recLen) then some (.code 1)
  else if !s.talliesOwned x.issuer d then some (.code 11)
  else
    let rs := d.reaches recLen
    if rs.any (fun r => (s.place x r).isNone) || (d.op == 1 && d.dstSpace == 5 && (s.copyRing x).isNone) then some (.code 2)
    else
      let deniedOf (r : Reach) : Option StartFault := (s.place x r).bind fun p =>
        (s.rangeDenied x.issuer r.space p r.len r.write).map fun page => .denied page r.write
      match rs.findSome? deniedOf with
      | some f => some f
      | none =>
        if d.op = 5 ∧ (d.len.toNat < 14 ∨ 9212 < d.len.toNat ∨ !(s.port (d.argAt 0 1)).link) then some (.code 8) else none

/-! ### Reading the source -/

/-- What a command has read: the data of each piece with its destination address, and how reading ended. -/
structure Got where
  st : State
  data : List (Nat × List Byte)
  host : List Byte
  off : Nat
  fate : Option (Nat × Err × Nat)

/-- The requester's view of a denied access of a started command. -/
def State.denyCmd (s : State) (x : Starting) (page : Nat) (write : Bool) : State :=
  match x.issuer with
  | .unit c f _ => s.deny (s.issuerClass x.issuer) page write .frameContained (some (s.ctx c).func) (some c) (some f)
  | .driver f => s.deny (s.issuerClass x.issuer) page write .reportOnly (some f) none none

/-- The event of a bad granule that a command met. -/
def State.badEv (s : State) (x : Starting) : Ev := s.cmdEv x.ch x.issuer .mem 2 .frameContained []

/-- The first bad granule that a quarter's read of a source range in device memory meets. -/
def State.badSource (s : State) (q : Nat) (isVolatile : Bool) (ue : UeList) (p : Place) (n : Nat) : Option (Nat × Bool × Nat) :=
  match p with
  | .mem a => s.badGranule ue (s.streamMisses q isVolatile a n)
  | _ => none

/-- Bytes of a place before a granule. -/
def Place.before (p : Place) (g : Nat) : Nat :=
  match p with
  | .mem a => g - a
  | _ => 0

def Place.isHost : Place → Bool
  | .host _ _ => true
  | _ => false

/-- Read one range of a command's source. -/
def Got.read (g : Got) (x : Starting) (r : Reach) (dst : Nat) : Got :=
  if g.fate.isSome then g
  else
    let s := g.st
    match s.place x r with
    | none => { g with fate := some (2, ⟨.rtv, 2⟩, g.off) }
    | some p =>
      match s.rangeDenied x.issuer r.space p r.len false with
      | some page => { g with st := s.denyCmd x page false, fate := some (3, ⟨.rtv, 3⟩, g.off) }
      | none =>
        if p.isHost && (x.args.hostFail || !s.hst.linkUp) then { g with fate := some (4, ⟨.rtv, 4⟩, g.off) }
        else
          match s.badSource (chanQuarter x.ch) x.desc.isVolatile x.args.ue p r.len with
          | some b => { g with st := s.memError 2 b.1 b.2.2 b.2.1 (s.badEv x), fate := some (5, ⟨.mem, 2⟩, g.off + p.before b.1) }
          | none =>
            let y := s.fetchBytes (chanQuarter x.ch) x.desc.isVolatile p r.len g.host
            { st := y.2, data := g.data ++ [(dst, y.1)], host := if p.isHost then g.host.drop r.len else g.host
              off := g.off + r.len, fate := none }

/-- Read the pieces of a command in order. -/
def Got.readAll (g : Got) (x : Starting) (ps : List Piece) : Got :=
  ps.foldl (fun g p => g.read x { space := x.desc.srcSpace, addr := p.src, len := p.len, write := false } p.dst) g

def Starting.none (x : Starting) (s : State) : Got := { st := s, data := [], host := x.args.host, off := 0, fate := .none }

/-! ### What a command is to write -/

/-- A place holds a byte of a range. -/
def Place.within (q : Place) (i : Nat) (r : Place × Nat) : Bool :=
  match q, r.1 with
  | .mem a, .mem b => b ≤ a + i && a + i < b + r.2
  | .host f a, .host h b => f == h && b ≤ a + i && a + i < b + r.2
  | _, _ => false

/-- Bytes for a destination that also belong to the source are unspecified (R276). -/
def State.blur (s : State) (srcs : List (Place × Nat)) (p : Place) (d : List Byte) : List Byte :=
  if (List.range d.length).any fun i => srcs.any fun r => p.within i r then
    (withIndex d).map fun x => if srcs.any fun r => p.within x.1 r then Config.freeByte s.freeCount x.1 else x.2
  else d

/-- The granule writes of the data a command has read; those of several pieces are gathered. -/
def State.writesOf (s : State) (x : Starting) (srcs : List (Place × Nat)) (data : List (Nat × List Byte)) :
    List (Dest × List Byte) :=
  let ws := data.flatMap fun p =>
    match s.place x { space := x.desc.dstSpace, addr := p.1, len := p.2.length, write := true } with
    | some q => q.writes (s.blur srcs q p.2)
    | none => []
  if data.length ≤ 1 then ws else gatherWrites ws

/-- The source ranges of a command whose source and destination may overlap. -/
def State.sources (s : State) (x : Starting) (ps : List Piece) : List (Place × Nat) :=
  ps.filterMap fun p =>
    (s.place x { space := x.desc.srcSpace, addr := p.src, len := p.len, write := false }).map fun q => (q, p.len)

/-- A write touches a granule of device memory. -/
def touchesGranule (g : Nat) (w : Dest × List Byte) : Bool :=
  match w.1 with
  | .module a => granule a == g
  | _ => false

/-- The bytes of a list of writes. -/
def bytesOf (ws : List (Dest × List Byte)) : Nat := ws.foldl (fun n w => n + w.2.length) 0

/-- The number of the granule of a write among those of a list, which decides whether the whole granule has landed (R225). -/
def granuleIndex (ws : List (Dest × List Byte)) (w : Dest × List Byte) : Nat :=
  ws.findIdx fun v => v.1.granule? == w.1.granule?

/-- A command begins to write: any subset of its granules may have landed before it completes (R224, R282); `late` ones
land at its completion only. One whose merge meets a bad granule is to fail (R254). -/
def State.beginWrites (s : State) (ch : Nat) (ue : UeList) (k : Cmd) (ws late : List (Dest × List Byte)) : State × Cmd :=
  let bad := if k.fate.isSome then none else s.badMerge ue (ws ++ late)
  let r : State × Cmd × List (Dest × List Byte) := match bad with
    | none => (s, k, ws)
    | some b =>
      let done := ws.takeWhile fun w => !touchesGranule b.1 w
      (s.memError 3 b.1 b.2.2 b.2.1 (s.cmdEv ch k.issuer .mem 2 .frameContained []),
        { k with fate := some (5, ⟨.mem, 3⟩, bytesOf done) }, done)
  let free := r.1.freeCount
  let now := r.2.2.filter fun w => Config.landed free (granuleIndex r.2.2 w)
  let later := r.2.2.filter fun w => !Config.landed free (granuleIndex r.2.2 w)
  let late := if r.2.1.fate.isSome then [] else late
  ((now.foldl (fun t w => t.putDest w) r.1).takeFree,
    { r.2.1 with todo := later ++ late, pages := writtenPages (r.2.2 ++ late), landed := bytesOf now })

/-- A command takes its tag and begins to write. -/
def State.launch (s : State) (x : Starting) (k : Cmd) (ws late : List (Dest × List Byte)) : State :=
  let y := s.beginWrites x.ch x.args.ue k ws late
  y.1.modChan x.ch fun c => { c with started := c.started ++ [y.2] }

/-! ### COPY, COPY2D, GATHER, FILL -/

/-- The moving commands: their pieces are read and written. -/
def State.runMove (s : State) (x : Starting) (tally : Nat) (ps : List Piece) (g : Got) : State :=
  let ws := g.st.writesOf x (s.sources x ps) g.data
  g.st.takeFree.launch x { x.cmd s tally with resultLen := bytesOf ws, fate := g.fate } ws []

/-- COPY to an output ring: the entry goes to the ring at once, and the command waits for its publication (R494, R495). -/
def State.runRingCopy (s : State) (x : Starting) (tally : Nat) (g : Got) : State :=
  match x.issuer, s.copyRing x with
  | .unit c f _, some (fn, r) =>
    let k := x.cmd s tally
    if g.fate.isSome then g.st.launch x { k with fate := g.fate } [] []
    else
      let d := (g.data.map fun p => p.2).flatten
      (g.st.launch x { k with unpublished := true, resultLen := d.length } [] []).oqPush fn r (s.ctxLossy c)
        { ctx := c, ring := x.desc.dst.toNat, kind := 0, frame := f, payload := d, copy := some (x.ch, k.tag) }
  | _, _ => s

def State.runCopy (s : State) (x : Starting) (tally : Nat) : State :=
  let ps := x.desc.pieces []
  let g := (x.none s).readAll x ps
  if x.desc.dstSpace = 5 then s.runRingCopy x tally g else s.runMove x tally ps g

/-- GATHER reads its index array first. -/
def State.runGather (s : State) (x : Starting) (tally : Nat) : State :=
  let d := x.desc
  let y : Starting := { x with args := { x.args with host := x.index } }
  let g := (y.none s).read y { space := d.srcSpace, addr := d.argAt 0 8, len := 4 * d.argAt 8 4, write := false } 0
  if g.fate.isSome then g.st.launch x { x.cmd s tally with fate := g.fate.map fun f => (f.1, f.2.1, 0) } [] []
  else
    let ps := d.pieces ((g.data.map fun p => p.2).flatten)
    g.st.runMove x tally ps ((x.none g.st).readAll x ps)

/-- FILL: destination byte j receives byte (DST + j) mod 8 of PATTERN. -/
def State.runFill (s : State) (x : Starting) (tally : Nat) : State :=
  let d := x.desc
  let bytes := (List.range d.len.toNat).map fun j => d.arg.getD ((d.dst.toNat + j) % 8) 0
  let ws := s.writesOf x [] [(d.dst.toNat, bytes)]
  s.launch x { x.cmd s tally with resultLen := bytesOf ws } ws []

/-! ### GATE_SEND -/

def State.runGate (s : State) (x : Starting) (tally : Nat) : State :=
  let g := (x.none s).readAll x (x.desc.pieces [])
  let d := (g.data.map fun p => p.2).flatten
  let late := if g.fate.isSome then [] else [(Dest.gate (x.desc.argAt 0 1), d)]
  g.st.launch x { x.cmd s tally with fate := g.fate, resultLen := if g.fate.isSome then 0 else d.length } [] late

/-! ### PEER_PUT and PEER_GET -/

/-- The requester class of a peer request: the slot of the policy that names the Pack (Table 18.4). -/
def State.packClass (s : State) : Nat :=
  match (withIndex (s.cad.packIds.take 3)).find? fun p => p.2 == s.pck.packId with
  | some p => 0x30 + p.1
  | none => 0x3F

/-- The range of a peer request on this module: instance memory of a job's context, or module addresses. -/
def State.peerRange (s : State) (job addr n : Nat) : Option Nat :=
  if job < 256 then
    let j := s.job job
    let x := s.ctx j.ctx.toNat
    if j.valid && x.st != .free && addr + n ≤ x.len then some (x.base + addr) else none
  else if inDev addr n then some addr else none

/-- The tally that a peer put names. -/
def State.peerTally (s : State) (job tally : Nat) : Option (Option Nat × State) :=
  if tally = 0xFFFF then some (none, s)
  else if job < 256 then
    if tally < 256 then some ((some (s.instTally (s.job job).ctx.toNat tally).1), (s.instTally (s.job job).ctx.toNat tally).2)
    else none
  else (driverTally tally).map fun k => (some k, s)

/-- A peer put is judged on the receiving module (R244, R254, R622): where its bytes go and the tally it names, or none. -/
def State.peerAdmit (s : State) (job addr tally n : Nat) (ue : UeList) : Option (Nat × Option Nat) × State :=
  match s.peerRange job addr n, s.peerTally job tally with
  | some a, some (k, s') =>
    match s.cadDenied s.packClass a n true with
    | some page => (none, s.deny s.packClass page true .reportOnly none none none)
    | none =>
      match s.badGranule ue (partGranules a n) with
      | some b => (none, s.memError 3 b.1 b.2.2 b.2.1 { blk := .mem, nn := 3, cls := some .frameContained })
      | none => (some (a, k), s')
  | _, _ => (none, s)

/-- A peer put on the receiving module: checked, written, invalidated and counted, or refused. It lands whole in one step,
although R224 lets any subset of its granules be seen before (DESIGN CHOICE, log 136). -/
def State.peerStore (s : State) (job addr tally : Nat) (data : List Byte) (ue : UeList) : Bool × State :=
  match s.peerAdmit job addr tally data.length ue with
  | (some (a, k), s) =>
    let s := (s.writeDev a data).invalidate (pages a data.length)
    (true, match k with | some k => s.incTally k | none => s)
  | (none, s) => (false, s)

/-- A peer get on the holding module (R244, R254): the bytes up to the first bad granule, or a refusal. -/
def State.peerLoad (s : State) (job addr n : Nat) (ue : UeList) : Option (List Byte) × State :=
  match s.peerRange job addr n with
  | none => (none, s)
  | some a =>
    match s.cadDenied s.packClass a n false with
    | some page => (none, s.deny s.packClass page false .reportOnly none none none)
    | none =>
      match s.badGranule ue (granules a n) with
      | some b =>
        let t := if b.2.1 then s.countUe (homeQuarter b.1) else s
        (some (s.peek a (b.1 - a)), { t with mem := { t.mem with
          poison := if b.2.1 then Tab.put t.mem.poison b.1 b.2.2 else t.mem.poison } })
      | none => (some (s.peek a n), s)

/-- The Pack is formed and the member can be reached. -/
def State.peerReachable (s : State) (member : Nat) : Bool :=
  s.pck.state == .formed && (member == s.pck.me || (s.pck.portTowards member).any fun p => (s.link p).link)

/-- PEER_PUT: its data leaves for the peer. To this module itself it is judged at once and written as a local command, whose
completion counts the tally it names. -/
def State.runPut (s : State) (x : Starting) (tally : Nat) : State :=
  let d := x.desc
  let g := (x.none s).readAll x (d.pieces [])
  let data := (g.data.map fun p => p.2).flatten
  let k := x.cmd s tally
  match g.fate, s.place x { space := 4, addr := d.dst.toNat, len := d.len.toNat, write := true } with
  | none, some (.peer m job a) =>
    if !s.peerReachable m then g.st.launch x { k with fate := some (6, ⟨.rtv, 6⟩, 0) } [] []
    else if m = s.pck.me then
      match g.st.peerAdmit job a (d.argAt 0 2) data.length x.args.ue with
      | (some (at_, n), t) =>
        let p : Place := .mem at_
        t.takeFree.launch x { k with resultLen := data.length, peerTally := n }
          (p.writes (t.blur (s.sources x (d.pieces [])) p data)) []
      | (none, t) => t.launch x { k with fate := some (6, ⟨.rtv, 6⟩, 0) } [] []
    else
      (g.st.launch x { k with resultLen := data.length, waitPeer := true, peerAt := some (m, job, a) } [] []).sendMember m
        false (.peerPut m job a (d.argAt 0 2) data)
  | f, _ => g.st.launch x { k with fate := f } [] []

/-- The local writes of a PEER_GET, once its data is here; short data ends at a poisoned granule of the peer (R254). Where
the source lies on this module too, the bytes of an overlap are unspecified (R276). -/
def State.getWrites (s : State) (i : Issuer) (d : Desc) (srcs : List (Place × Nat)) (data : List Byte) :
    List (Dest × List Byte) :=
  match s.locate i d.peer.toNat d.dstSpace d.dst.toNat d.len.toNat true with
  | some p => p.writes (s.blur srcs p data)
  | none => []

/-- The failure of a PEER_GET whose data ends early: E-MEM-02 at the issuing module. -/
def State.getPoison (s : State) (ch : Nat) (k : Cmd) (got : Nat) : State × (Nat × Err × Nat) :=
  (s.memError 2 (granule (k.desc.src.toNat + got)) 2 false (s.cmdEv ch k.issuer .mem 2 .frameContained []),
    (5, ⟨.mem, 2⟩, got))

/-- PEER_GET: the request leaves for the peer; from this module itself it is served at once. -/
def State.runGet (s : State) (x : Starting) (tally : Nat) : State :=
  let d := x.desc
  let k := x.cmd s tally
  match s.place x { space := 4, addr := d.src.toNat, len := d.len.toNat, write := false } with
  | some (.peer m job a) =>
    if !s.peerReachable m then s.launch x { k with fate := some (6, ⟨.rtv, 6⟩, 0) } [] []
    else if m = s.pck.me then
      match s.peerLoad job a d.len.toNat x.args.ue with
      | (none, s) => s.launch x { k with fate := some (6, ⟨.rtv, 6⟩, 0) } [] []
      | (some data, s) =>
        let srcs := (s.peerRange job a d.len.toNat).toList.map fun b => (Place.mem b, d.len.toNat)
        let ws := s.getWrites x.issuer d srcs data
        if data.length < d.len.toNat then
          let y := s.getPoison x.ch k data.length
          y.1.takeFree.launch x { k with fate := some y.2 } ws []
        else s.takeFree.launch x { k with resultLen := data.length } ws []
    else (s.launch x { k with waitPeer := true } [] []).sendMember m false (.peerGet m job a d.len.toNat)
  | _ => s

/-! ### DICT_COMPRESS and DICT_EXPAND -/

/-- Dictionary commands in flight on an engine. -/
def State.engineLoad (s : State) (e : Nat) : Nat :=
  (s.rtv.chans.map fun p => (p.2.started.filter fun k => k.engine == some e).length).foldl (· + ·) 0

/-- The engine that serves a command: the unit's own, or one of the channel's quarter (R422). -/
def State.pickEngine (s : State) (ch : Nat) : Option Nat :=
  if 64 ≤ ch then (if s.engineLoad (ch - 64) < 4 then some (ch - 64) else none)
  else [2 * (ch / 16), 2 * (ch / 16) + 1].find? fun e =>
    !(s.dceEngine e).disabled && !(s.dceEngine e).offline && s.engineLoad e < 4

/-- The place of a context record as a destination. -/
def Place.dest : Place → Dest
  | .mem a => .module a
  | .host f a => .host f a
  | .peer _ _ a => .module a

/-- Another started command writes a record that this one names (R440). -/
def State.recordBusy (s : State) (x : Starting) : Bool :=
  let d := x.desc
  let at_ (a : Nat) : Option Dest := (s.place x { space := d.dstSpace, addr := a, len := 128, write := true }).map Place.dest
  let mine := [at_ (d.argAt 0 8)] ++ (if d.dictFlag 3 then [at_ (d.argAt 16 8)] else [])
  s.rtv.chans.any fun p => p.2.started.any fun k => k.ctxOut.isSome && mine.contains k.ctxOut

/-- The context a dictionary command starts from: none where the record is invalid. -/
def startCtx (d : Desc) (record : List Byte) : Option DictCtx :=
  let mode := if d.op = 8 then 1 else 2
  if d.dictFlag 0 then
    some (if mode = 1 then DictCtx.first 1 (9 + nfld (d.argAt 12 2) 4 3) (bitAt 0 (d.dictFlag 7)) else DictCtx.first 2 0 0)
  else readDictCtx record mode

def runDict (d : Desc) (c : DictCtx) (input : List Byte) : DictRun :=
  if d.op = 8 then compressRun c (d.dictFlag 0) (d.dictFlag 2) (d.dictFlag 1) (d.argAt 8 4) input
  else expandRun c (d.dictFlag 1) (d.argAt 8 4) input

/-- A dictionary command: input and record are read, the output is written, the record at completion only (R432). -/
def State.runCodec (s : State) (x : Starting) (tally engine : Nat) : State :=
  let d := x.desc
  let k := { x.cmd s tally with engine := some engine }
  let bytes := s.recordLen x
  let g := if d.dictFlag 0 then x.none s
    else { x.none s with host := x.recordHost }.read x { space := d.dstSpace, addr := d.argAt 0 8, len := bytes, write := false } 0
  let record := (g.data.map fun p => p.2).flatten
  let g := { g with data := [], host := x.args.host, off := 0 }.readAll x (if d.len = 0 then [] else d.pieces [])
  let input := (g.data.map fun p => p.2).flatten
  if g.fate.isSome then g.st.launch x { k with fate := g.fate } [] []
  else
    match startCtx d record with
    | none => g.st.launch x { k with fate := some (7, ⟨.dce, 6⟩, 0) } [] []
    | some c =>
      let r := runDict d c input
      let outAt := s.place x { space := d.dstSpace, addr := d.dst.toNat, len := d.argAt 8 4, write := true }
      let recAt := s.place x
        { space := d.dstSpace, addr := if d.dictFlag 3 then d.argAt 16 8 else d.argAt 0 8, len := bytes, write := true }
      let ws := outAt.elim [] fun p => p.writes r.out.reverse
      let late := recAt.elim [] fun p => p.writes r.record
      let k := { k with
        resultLen := r.outLen, info := r.consumed, status := if r.full then 0x80 else 0, ctxOut := recAt.map Place.dest
        fate := r.bad.map fun nn => (7, ⟨.dce, nn⟩, r.badOffset nn) }
      g.st.launch x k ws late

/-! ### The start of a command -/

/-- A started command's effect. -/
def State.runStart (s : State) (x : Starting) (engine : Nat) : State :=
  let t := s.cmdTally x.issuer x.desc
  match x.desc.op with
  | 1 | 2 => t.2.runCopy x t.1
  | 3 => t.2.runGather x t.1
  | 4 => t.2.runFill x t.1
  | 5 => t.2.runGate x t.1
  | 6 => t.2.runPut x t.1
  | 7 => t.2.runGet x t.1
  | _ => t.2.runCodec x t.1 engine

/-- A row's command starts on a channel: it fails at its start, or takes a tag and runs (R260, R261, R281). A dictionary
command whose record a started one is to write waits, before anything of the record is judged (R440). -/
def State.startRow (s : State) (ch op : Nat) (a : StartArgs) (index : List Byte) : State :=
  match s.starting ch op a index with
  | none => s
  | some (x, s') =>
    if 8 ≤ op && x.desc.formOk x.issuer && s.recordBusy x then s
    else
      match s'.startFault x with
      | some (.code nn) => s'.failStart x nn
      | some (.denied page write) => (s'.denyCmd x page write).failStart x 3
      | none =>
        if op < 8 then s'.runStart x 0
        else
          match s.pickEngine ch with
          | some e => s'.runStart x e
          | none => s

/-- COPY (R263, R492 to R495); a descriptor of a reserved opcode fails here with E-RTV-01. -/
def execCopy (chan : Nat) (start : StartArgs) (s : State) : Host.Outcome State Fault Refusal := .next (s.startRow chan 1 start [])
/-- COPY2D (R263). -/
def execCopy2d (chan : Nat) (start : StartArgs) (s : State) : Host.Outcome State Fault Refusal := .next (s.startRow chan 2 start [])
/-- GATHER (R263, R281). -/
def execGather (chan : Nat) (start : StartArgs) (index : List Byte) (s : State) : Host.Outcome State Fault Refusal :=
  .next (s.startRow chan 3 start index)
/-- FILL (R263). -/
def execFill (chan : Nat) (start : StartArgs) (s : State) : Host.Outcome State Fault Refusal := .next (s.startRow chan 4 start [])
/-- GATE_SEND (R472). -/
def execGateSend (chan : Nat) (start : StartArgs) (s : State) : Host.Outcome State Fault Refusal := .next (s.startRow chan 5 start [])
/-- PEER_PUT (R244). -/
def execPeerPut (chan : Nat) (start : StartArgs) (s : State) : Host.Outcome State Fault Refusal := .next (s.startRow chan 6 start [])
/-- PEER_GET (R244). -/
def execPeerGet (chan : Nat) (start : StartArgs) (s : State) : Host.Outcome State Fault Refusal := .next (s.startRow chan 7 start [])
/-- DICT_COMPRESS (R427, R434). -/
def execDictCompress (chan : Nat) (start : StartArgs) (s : State) : Host.Outcome State Fault Refusal :=
  .next (s.startRow chan 8 start [])
/-- DICT_EXPAND (R428, R435, R436). -/
def execDictExpand (chan : Nat) (start : StartArgs) (s : State) : Host.Outcome State Fault Refusal :=
  .next (s.startRow chan 9 start [])

end Sys2Proof.Machine
end

