-- ==== Sys2Proof/Machine/RtvEnd.lean ====
section
/-!
DEFINITION. Machine/RtvEnd.lean: completion, failure and cancellation of Retriever and dictionary commands, channel and
tally registers, peer traffic, and the fatal errors of channels and dictionary engines (R244, R270 to R274, R281 to
R284, R443, R496).
-/
namespace Sys2Proof.Machine

def State.cmd? (s : State) (ch tag : Nat) : Option Cmd := (s.chan ch).started.find? fun k => k.tag == tag

/-- The counters of the engine that a completed dictionary command ran on (R446). -/
def State.countDict (s : State) (k : Cmd) : State :=
  match k.engine with
  | some e =>
    let x := s.dceEngine e
    s.setDceEngine e { x with
      bytesIn := x.bytesIn + BitVec.ofNat 64 k.info, bytesOut := x.bytesOut + BitVec.ofNat 64 k.resultLen }
  | none => s

/-- A command may complete: it has neither failed nor is it waiting for a peer, its ring or its record. -/
def Cmd.ready (k : Cmd) : Bool := k.fate.isNone && !k.unpublished && !k.waitPeer && !k.heldRecord

/-- RTV_COMMAND_COMPLETE (R271, R272, R273, R437). -/
def execRtvCommandComplete (chan tag : Nat) (s : State) : Host.Outcome State Fault Refusal :=
  match s.cmd? chan tag with
  | none => .next s
  | some k => .next (if s.alive && k.ready then (s.completeCmd chan k).countDict k else s)

/-- The oldest completion that a channel holds for a full record ring ends (R273). -/
def State.releaseHeld (s : State) (ch : Nat) : State :=
  match (s.chan ch).started.find? fun k => k.heldRecord with
  | some k =>
    match k.issuer with
    | .driver f => if (s.chan ch).recordFull then s else s.endDriver ch f { k with heldRecord := false }
    | .unit _ _ _ => s
  | none => s

/-- RECORD_RING_RELEASE (R273). -/
def execRecordRingRelease (chan : Nat) (s : State) : Host.Outcome State Fault Refusal :=
  .next (if s.alive then s.releaseHeld chan else s)

/-- A dictionary check failure (Table 12.7). -/
def State.dictFailure (s : State) (ch : Nat) (k : Cmd) (nn : Nat) : State :=
  State.report { s with dce := { s.dce with checkFail := true, checkFails := satInc s.dce.checkFails } }
    { s.cmdEv ch k.issuer .dce nn .frameContained [] with
      unit := match k.engine with | some e => .dict e | none => .none }

/-- The failure an event of a transfer stands for: the command's own, or that of a host read or a Gate port (Table 7.7). -/
def Cmd.failure (k : Cmd) (code : Nat) : Option (Nat × Err × Nat) :=
  match k.fate with
  | some f => if f.1 = code then some f else none
  | none =>
    if !k.ready then none
    else if code = 4 ∧ k.desc.op ≠ 4 ∧ k.desc.srcSpace = 3 then some (4, ⟨.rtv, 4⟩, 0xFFFFFFFF)
    else if code = 8 ∧ k.desc.op = 5 then some (8, ⟨.rtv, 8⟩, 0xFFFFFFFF)
    else none

/-- RTV_COMMAND_FAIL (R281, R282, R443): granules not yet written never are. -/
def execRtvCommandFail (chan tag code : Nat) (s : State) : Host.Outcome State Fault Refusal :=
  match s.cmd? chan tag with
  | none => .next s
  | some k =>
    match k.failure code with
    | none => .next s
    | some f =>
      if !s.alive then .next s
      else
        let s := if f.2.1.blk = .dce then s.dictFailure chan k f.2.1.nn else s
        .next (s.failCmd chan k f.1 f.2.1 f.2.2)

/-! ### Channel registers -/

/-- A function that controls a driver-mode channel: its owner (R285). -/
def State.ownsChan (s : State) (fn ch : Nat) : Bool := ch < 64 && (s.chan ch).mode == 2 && (s.chan ch).func.toNat == fn

/-- CHANNEL_RESUME (R283): a halted channel goes on at the command after the failed one. -/
def execChannelResume (fn chan : Nat) (s : State) : Host.Outcome State Fault Refusal :=
  .next (if s.hostReach fn && s.ownsChan fn chan then s.modChan chan fun x => { x with halted := false } else s)

/-- A number for a command that ends with no tag and whose record waits for a full ring. -/
def Chan.cancelTag (x : Chan) : Nat := x.started.foldl (fun n k => max n (k.tag + 1)) 64

/-- End the queued driver-mode commands of a channel with E-RTV-12 (R283, R284). -/
def State.dropQueued (s : State) (ch fn : Nat) : State :=
  let q := (s.chan ch).driverQ
  let s := s.modChan ch fun x => { x with driverQ := [] }
  q.foldl (fun t d => t.cancelDriver ch fn {
    tag := (t.chan ch).cancelTag, issuer := .driver fn, desc := d, tally := 0, todo := [], pages := [], resultLen := 0
    info := 0, status := 12, unpublished := false, heldRecord := false, engine := none, ctxOut := none, fate := none
    waitPeer := false }) s

/-- CHANNEL_DROP (R283): the queued commands end with E-RTV-12, then the channel resumes. -/
def execChannelDrop (fn chan : Nat) (s : State) : Host.Outcome State Fault Refusal :=
  .next (if s.hostReach fn && s.ownsChan fn chan then
      (s.dropQueued chan fn).modChan chan fun x => { x with halted := false }
    else s)

/-- A started or queued driver-mode command names a tally (R270). -/
def Chan.names (x : Chan) (k : Nat) : Bool :=
  let by_ (d : Desc) : Bool := driverTally d.tally.toNat == some k || (d.wait && driverTally d.waitTally.toNat == some k)
  x.driverQ.any by_ || x.started.any fun c => !c.issuer.isUnit && by_ c.desc

/-- TALLY_VALUE_WRITE (R270): RTV_TALLY_VAL sets an owned driver tally. -/
def execTallyValueWrite (fn : Nat) (value : Word) (s : State) : Host.Outcome State Fault Refusal :=
  if !s.hostReach fn then .next s
  else
    let sel := (s.fn fn).tallySel.toNat
    let k := tallyKey (sel / 1024) (sel % 1024)
    if !s.ownsTally fn k then .next (s.report { blk := .rtv, nn := 11, func := some fn, quarter := some (sel / 1024) })
    else if s.rtv.chans.any fun p => p.2.names k then
      .next ((s.modChan ((tallyOwner k).getD 0) fun x => { x with fieldLocked := true, lastErr := 10 }).lockedRecord
        .rtv 10 fn 0x81000C value.toNat)
    else .next (s.setTally k value)

/-- A consumer index write moves forward and not past the producer, for a ring of `n` entries (R496). -/
def consumerOk (n old new producer : Nat) : Bool := new < n && (new + n - old) % n ≤ (producer + n - old) % n
/-- A producer index write moves forward and leaves one entry free (R496). -/
def producerOk (n old new head : Nat) : Bool := new < n && (new + n - old) % n ≤ (head + 2 * n - 1 - old) % n

/-- CREC_TAIL_WRITE (R273, R496). -/
def execCrecTailWrite (fn chan : Nat) (value : Word) (s : State) : Host.Outcome State Fault Refusal :=
  if !s.hostReach fn || !s.ownsChan fn chan then .next s
  else
    let x := s.chan chan
    let v := value.toNat % 65536
    if consumerOk x.recordSize x.tail.toNat v x.head.toNat then .next (s.setChan chan { x with tail := BitVec.ofNat 16 v })
    else .next (s.accessError fn)

/-! ### Fatal errors -/

/-- The contexts whose running frame has a unit bound to a channel or engine key of a kind. -/
def State.boundTo (s : State) (kind place : Nat) : List Nat :=
  Tab.keysWhere (fun _ x => match x.running with
    | some (_, r) => !r.cancelling && r.units.any fun u => u.kind == kind && u.place == place
    | none => false) s.hrd.ctxs

/-- End a driver-mode command with a status that the event itself reports (R281). -/
def State.endWith (s : State) (ch : Nat) (status : Nat) (k : Cmd) : State :=
  match k.issuer with
  | .unit _ _ _ => s
  | .driver f =>
    ((s.tellPeer k).takeFree.modChan ch fun x => { x with failed := satInc x.failed }).finishDriver ch f
      (k.endedBad s.freeCount (BitVec.ofNat 8 status) 0xFFFFFFFF)

/-- CHANNEL_FATAL_ERROR (R281): E-RTV-13; its frames restart elsewhere and its started driver commands fail. -/
def execChannelFatalError (chan : Nat) (s : State) : Host.Outcome State Fault Refusal :=
  if !s.alive || 64 ≤ chan || (s.chan chan).disabled then .next s
  else
    let ks := (s.chan chan).started
    let s := (s.modChan chan fun x => { x with disabled := true, lastErr := 13 }).report
      { blk := .rtv, nn := 13, quarter := some (chanQuarter chan), unit := .channel chan
        func := if (s.chan chan).mode = 2 then some (s.chan chan).func.toNat else none }
    let s := (s.boundTo 3 chan).foldl (fun t c => t.restartFrame c) s
    .next (ks.foldl (fun t k => t.endWith chan 13 k) s)

/-- The driver-mode commands started on a dictionary engine, by channel. -/
def State.engineCmds (s : State) (e : Nat) : List (Nat × Cmd) :=
  s.rtv.chans.flatMap fun p => (p.2.started.filter fun k => k.engine == some e).map fun k => (p.1, k)

/-- The contexts of the unit-issued commands of a list. -/
def issuingCtxs (ks : List (Nat × Cmd)) : List Nat :=
  ks.foldl (fun l p => match p.2.issuer with
    | .unit c _ _ => insertNat c l
    | .driver _ => l) []

/-- DCE_ENGINE_FATAL (R443): E-DCE-02; the engine is disabled, its frames restart, and its driver commands fail. -/
def execDceEngineFatal (engine : Nat) (s : State) : Host.Outcome State Fault Refusal :=
  if !s.alive || 8 ≤ engine || (s.dceEngine engine).disabled then .next s
  else
    let ks := s.engineCmds engine
    let s := s.setDceEngine engine { s.dceEngine engine with disabled := true }
    let s := State.report { s with dce := { s.dce with engineFatal := satInc s.dce.engineFatal } }
      { blk := .dce, nn := 2, quarter := some (engine / 2), unit := .dict engine }
    let frames := ((s.boundTo 2 engine) ++ issuingCtxs ks).foldl (fun l c => insertNat c l) []
    let s := frames.foldl (fun t c => t.restartFrame c) s
    .next (ks.foldl (fun t p => if p.2.issuer.isUnit then t
      else (t.modChan p.1 fun x => { x.halt with lastErr := 13 }).endWith p.1 13 p.2) s)

/-! ### Peer traffic (R244) -/

/-- PEER_PUT_ARRIVE (R244, R622). What arrives of a put that its module has cancelled is written, counts no tally and is
answered with no report (R279, R282). -/
def execPeerPutArrive (member job addr tally : Nat) (put : PutArrival) (s : State) :
    Host.Outcome State Fault Refusal :=
  if !s.alive || s.pck.state ≠ .formed then .next s
  else
    let y := s.peerStore job addr (if put.cancelled then 0xFFFF else tally) put.bytes put.ue
    .next (if put.cancelled then y.2 else y.2.sendMember member true (.peerReport member y.1))

/-- PEER_GET_ARRIVE (R244, R254): served from the point of coherence; short data ends at a poisoned granule. -/
def execPeerGetArrive (member job addr len : Nat) (ue : UeList) (s : State) : Host.Outcome State Fault Refusal :=
  if !s.alive || s.pck.state ≠ .formed then .next s
  else
    match s.peerLoad job addr len ue with
    | (some d, s) => .next (s.sendMember member true (.peerData member d true))
    | (none, s) => .next (s.sendMember member true (.peerData member [] false))

/-- PEER_REPORT_RECEIVE (R244): a put completes; a get's data is written, any subset of it at once, and one cut short by a
poisoned granule of the peer is to fail (R254, R282); a refusal fails the command with E-RTV-06. -/
def execPeerReportReceive (chan tag : Nat) (ok : Bool) (data : PeerReport) (s : State) :
    Host.Outcome State Fault Refusal :=
  match s.cmd? chan tag with
  | none => .next s
  | some k =>
    if !s.alive || !k.waitPeer then .next s
    else if !ok then .next (s.failCmd chan k 6 ⟨.rtv, 6⟩ 0)
    else if k.desc.op = 6 then .next (s.completeCmd chan { k with waitPeer := false })
    else
      let ws := s.getWrites k.issuer k.desc [] (data.bytes.take k.desc.len.toNat)
      let p := if data.bytes.length < k.desc.len.toNat then
          let y := s.getPoison chan k data.bytes.length
          (y.1, some y.2)
        else (s, none)
      let y := p.1.beginWrites chan data.ue { k with waitPeer := false, fate := p.2, resultLen := k.desc.len.toNat } ws []
      .next (y.1.modChan chan fun x => { x with started := holdIn y.2 x.started })

/-- PEER_REPORT_TIMEOUT (R281): no report within the Whistle timeout. -/
def execPeerReportTimeout (chan tag : Nat) (s : State) : Host.Outcome State Fault Refusal :=
  match s.cmd? chan tag with
  | none => .next s
  | some k => .next (if s.alive && k.waitPeer then s.failCmd chan k 6 ⟨.rtv, 6⟩ 0xFFFFFFFF else s)

end Sys2Proof.Machine
end

