-- ==== Sys2Proof/Machine/IngestNet.lean ====
section
/-!
DEFINITION. Machine/IngestNet.lean: Ethernet, IP, UDP and RTP as the Gate ports read them, and the payload formats
(R447 to R453, Table 13.1). Network fields are big-endian.
-/
namespace Sys2Proof.Machine

/-- The number in `n` bytes from an offset, most significant byte first. -/
def beAt (b : List Byte) (off n : Nat) : Nat := (slice b off n).foldl (fun a x => 256 * a + x.toNat) 0
/-- The frame check sequence over a frame, least significant byte first on the wire. -/
def ethFcs (b : List Byte) : List Byte := natLe 4 (crcRefl 0xEDB88320 0xFFFFFFFF b ^^^ 0xFFFFFFFF)

/-- The Internet checksum's one's complement sum is all ones over bytes that hold their own checksum. -/
def inetSum (b : List Byte) : Nat :=
  let total := (List.range ((b.length + 1) / 2)).foldl (fun a i => a + beAt (b ++ [0]) (2 * i) 2) 0
  let fold (x : Nat) : Nat := x % 65536 + x / 65536
  fold (fold (fold total))
def inetOk (b : List Byte) : Bool := inetSum b == 65535

/-- What becomes of an accepted frame (R449). -/
inductive Offer where
  /-- A failed checksum: dropped and counted. -/
  | dropped
  /-- For the exception ring, with its reason. -/
  | exception (reason : Nat)
  /-- A UDP datagram: IPv6, destination address, destination port, payload. -/
  | udp (v6 : Bool) (dst : Nat) (port : Nat) (payload : List Byte)
deriving DecidableEq, Repr

/-- A UDP datagram, with the pseudo-header's bytes. -/
def offerUdp (v6 : Bool) (dst : Nat) (pseudo : List Byte) (b : List Byte) : Offer :=
  let len := beAt b 4 2
  if b.length < 8 ∨ len < 8 ∨ b.length < len then .exception 2
  else
    let d := b.take len
    let check := beAt b 6 2
    if (check = 0 ∧ v6) ∨ (check ≠ 0 ∧ !inetOk (pseudo ++ natBe (if v6 then 4 else 2) len ++ (if v6 then [0, 0, 0, 17] else []) ++ d)) then
      .dropped
    else .udp v6 dst (beAt b 2 2) (d.drop 8)

def offerV4 (b : List Byte) : Offer :=
  let ihl := 4 * nfld (beAt b 0 1) 0 4
  let total := beAt b 2 2
  if b.length < 20 ∨ nfld (beAt b 0 1) 4 4 ≠ 4 ∨ ihl < 20 ∨ total < ihl ∨ b.length < total then .exception 2
  else if !inetOk (b.take ihl) then .dropped
  else if nfld (beAt b 6 2) 0 14 ≠ 0 then .exception 3
  else if beAt b 9 1 ≠ 17 then .exception 2
  else offerUdp false (beAt b 16 4) (slice b 12 8 ++ [0, 17]) ((b.take total).drop ihl)

/-- IPv6 Next Header values of extension headers. -/
def extHeader (n : Nat) : Bool := [0, 43, 44, 50, 51, 60, 135, 139, 140].contains n

def offerV6 (b : List Byte) : Offer :=
  let len := beAt b 4 2
  if b.length < 40 + len ∨ b.length < 40 ∨ nfld (beAt b 0 1) 4 4 ≠ 6 then .exception 2
  else if extHeader (beAt b 6 1) then .exception 3
  else if beAt b 6 1 ≠ 17 then .exception 2
  else offerUdp true (beAt b 24 16) (slice b 8 32) (slice b 40 len)

/-- An Ethernet payload by its type. -/
def offer (etherType : Nat) (b : List Byte) : Offer :=
  if etherType = 0x0800 then offerV4 b else if etherType = 0x86DD then offerV6 b else .exception 2

/-- A MAC control frame, as received PAUSE and PFC frames are (Table 13.1). -/
def macControl (f : List Byte) : Bool := beAt f 12 2 == 0x8808

/-- The frame's MAC filter and VLAN rule (R448): EtherType and payload of a frame without its FCS. -/
def acceptFrame (mac : Nat) (vlan : Bool) (vid : Nat) (f : List Byte) : Option (Nat × List Byte) :=
  let d := beAt f 0 6
  let tagged := beAt f 12 2 == 0x8100
  if !(d == mac || d == 0xFFFFFFFFFFFF || (d / 2 ^ 24 == 0x01005E && d / 2 ^ 23 % 2 == 0) || d / 2 ^ 32 == 0x3333) then none
  else if vlan then
    if tagged && nfld (beAt f 14 2) 0 12 == vid && beAt f 16 2 != 0x8100 then some (beAt f 16 2, f.drop 18) else none
  else if tagged then none else some (beAt f 12 2, f.drop 14)

/-! ### RTP (RFC 3550) -/

structure Rtp where
  marker : Bool
  seq : Nat
  ts : Nat
  ssrc : Nat
  payload : List Byte
deriving DecidableEq, Repr

/-- Payload type of a datagram, where its byte is there; and its SSRC. -/
def rtpPt (b : List Byte) : Option Nat := if 2 ≤ b.length then some (nfld (beAt b 1 1) 0 7) else none
def rtpSsrc (b : List Byte) : Option Nat := if 12 ≤ b.length then some (beAt b 8 4) else none

/-- An RTP packet; none where its version is not 2 or its lengths overrun the datagram. -/
def readRtp (b : List Byte) : Option Rtp :=
  let b0 := beAt b 0 1
  if b.length < 12 ∨ nfld b0 6 2 ≠ 2 then none
  else
    let csrc := 12 + 4 * nfld b0 0 4
    let hdr := if b0.testBit 4 then csrc + 4 + 4 * beAt b (csrc + 2) 2 else csrc
    let need := if b0.testBit 4 then max hdr (csrc + 4) else hdr
    let pad := if b0.testBit 5 then (b.getLastD 0).toNat else 0
    if b.length < need ∨ (b0.testBit 5 ∧ (pad = 0 ∨ b.length < need + pad)) then none
    else some {
      marker := (beAt b 1 1).testBit 7, seq := beAt b 2 2, ts := beAt b 4 4, ssrc := beAt b 8 4
      payload := (b.take (b.length - pad)).drop hdr }

/-! ### Depacketising (R453) -/

/-- NAL units found, whether any was lost, how many were of an excluded type, and the fragments of an open NAL unit with
the sequence number that must follow. -/
structure Depack where
  nals : List (List Byte)
  loss : Bool
  malformed : Nat
  frag : Option (Nat × List Byte)
deriving DecidableEq, Repr

/-- The open fragmented NAL unit is dropped whole. -/
def Depack.dropFrag (d : Depack) : Depack := if d.frag.isSome then { d with frag := none, loss := true } else d
def Depack.bad (d : Depack) : Depack := { d with loss := true }
def Depack.excluded (d : Depack) : Depack := { d with loss := true, malformed := d.malformed + 1 }

/-- The NAL units of an aggregation packet; a size that overruns it drops the rest. -/
def Depack.aggregate : Nat → List Byte → Depack → Depack
  | 0, _, d => d
  | fuel + 1, b, d =>
    if b.isEmpty then d
    else
      let n := beAt b 0 2
      if b.length < 2 ∨ n = 0 ∨ b.length < 2 + n then d.bad
      else Depack.aggregate fuel (b.drop (2 + n)) { d with nals := d.nals ++ [slice b 2 n] }

/-- One fragment: start and end bits, the NAL header it rebuilds, and its bytes. -/
def Depack.fragment (d : Depack) (seq : Nat) (start stop : Bool) (hdr body : List Byte) : Depack :=
  if start ∧ stop then d.dropFrag.bad
  else if start then { d.dropFrag with frag := some ((seq + 1) % 65536, hdr ++ body) }
  else
    match d.frag with
    | some (next, acc) =>
      if next ≠ seq then d.dropFrag.bad
      else if stop then { d with frag := none, nals := d.nals ++ [acc ++ body] }
      else { d with frag := some ((seq + 1) % 65536, acc ++ body) }
    | none => d.bad

/-- One H.264 payload (RFC 6184, packetization-mode 0 and 1). -/
def Depack.h264 (d : Depack) (seq : Nat) (b : List Byte) : Depack :=
  let h := beAt b 0 1
  let t := nfld h 0 5
  if b.isEmpty then d.dropFrag.excluded
  else if 1 ≤ t ∧ t ≤ 23 then { d.dropFrag with nals := d.dropFrag.nals ++ [b] }
  else if t = 24 then Depack.aggregate b.length (b.drop 1) d.dropFrag
  else if t = 28 then
    let f := beAt b 1 1
    if b.length < 2 then d.dropFrag.bad
    else d.fragment seq (f.testBit 7) (f.testBit 6) [BitVec.ofNat 8 (h / 32 * 32 + nfld f 0 5)] (b.drop 2)
  else d.dropFrag.excluded

/-- One H.265 payload (RFC 7798, no DONL). -/
def Depack.h265 (d : Depack) (seq : Nat) (b : List Byte) : Depack :=
  let h := beAt b 0 2
  let t := nfld h 9 6
  if b.length < 2 then d.dropFrag.excluded
  else if t ≤ 47 then { d.dropFrag with nals := d.dropFrag.nals ++ [b] }
  else if t = 48 then Depack.aggregate b.length (b.drop 2) d.dropFrag
  else if t = 49 then
    let f := beAt b 2 1
    if b.length < 3 then d.dropFrag.bad
    else
      let hdr := h - nfld h 9 6 * 512 + nfld f 0 6 * 512
      d.fragment seq (f.testBit 7) (f.testBit 6) (natBe 2 hdr) (b.drop 3)
  else d.dropFrag.excluded

/-- All packets of an access unit, in sequence order, of codec 0 H.264 or 1 H.265. -/
def depacketise (codec : Nat) (ps : List (Nat × List Byte)) : Depack :=
  let start : Depack := { nals := [], loss := false, malformed := 0, frag := none }
  (ps.foldl (fun (d : Depack) p => if codec = 0 then d.h264 p.1 p.2 else d.h265 p.1 p.2) start).dropFrag

/-- The NAL units of an Annex B byte stream: `cur` is the unit being read, reversed, `zeros` the zeros just seen. -/
def annexB : List Byte → Option (List Byte) → Nat → List (List Byte)
  | [], cur, _ => match cur with | some c => [c.reverse] | none => []
  | b :: r, cur, z =>
    if b = 0 then annexB r cur (z + 1)
    else if b = 1 ∧ 2 ≤ z then
      (match cur with | some c => [c.reverse] | none => []) ++ annexB r (some []) 0
    else annexB r (cur.map fun c => b :: (List.replicate z (0 : Byte) ++ c)) 0

end Sys2Proof.Machine
end

