-- ==== Sys2Proof/Machine/VideoSyntax.lean ====
section
/-!
DEFINITION. Machine/VideoSyntax.lean: what the parameter sets of an H.264 or H.265 bitstream declare, against Table 13.2
(R458 to R460). The spec names the standards and does not repeat their syntax: it is taken from them (PRESUMED, log 138).
-/
namespace Sys2Proof.Machine

/-- A reader of syntax elements: none where the bits run out. -/
abbrev BitReader := StateT (List Bool) Option

/-- u(n): `n` bits, the most significant first. -/
def readU (n : Nat) : BitReader Nat := fun bs =>
  if bs.length < n then none else some ((bs.take n).foldl (fun a b => 2 * a + b.toNat) 0, bs.drop n)

/-- ue(v): an Exp-Golomb code. -/
def readUe : BitReader Nat := fun bs =>
  let z := (bs.takeWhile fun b => !b).length
  if bs.length < 2 * z + 1 then none else some (((bs.drop z).take (z + 1)).foldl (fun a b => 2 * a + b.toNat) 0 - 1, bs.drop (2 * z + 1))

/-- se(v). -/
def readSe : BitReader Int := do
  let k ← readUe
  pure (if k % 2 = 1 then ((k + 1) / 2 : Nat) else -((k / 2 : Nat) : Int))

/-- `n` elements read and passed over. -/
def skipOver {α : Type} (p : BitReader α) : Nat → BitReader Unit
  | 0 => pure ()
  | n + 1 => do
    let _ ← p
    skipOver p n

/-- A reader used only where a condition holds. -/
def readIf {α : Type} (c : Bool) (none_ : α) (p : BitReader α) : BitReader α := if c then p else pure none_

/-- A NAL unit's payload with its emulation prevention bytes taken out. -/
def unescape : List Byte → List Byte
  | 0 :: 0 :: 3 :: r => 0 :: 0 :: unescape r
  | b :: r => b :: unescape r
  | [] => []

/-- The bits of a NAL unit behind a header of `n` bytes. -/
def nalBits (n : Nat) (nal : List Byte) : List Bool :=
  (unescape (nal.drop n)).flatMap fun b => (List.range 8).map fun i => b.getLsbD (7 - i)

/-- What a sequence parameter set declares. -/
structure SeqParams where
  id : Nat
  /-- Profile, level, tier, chroma format and frame coding lie within Table 13.2. -/
  admitted : Bool
  width : Nat
  height : Nat
  depth : Nat
  /-- Reference pictures that the bitstream may need. -/
  refs : Nat
deriving DecidableEq, Repr

/-! ### H.264 -/

/-- One scaling list of `n` entries, passed over. -/
def skipScaling : Nat → Int → Int → BitReader Unit
  | 0, _, _ => pure ()
  | n + 1, last, next => do
    let d ← readIf (next != 0) 0 readSe
    let next := if next = 0 then 0 else (last + d + 256) % 256
    skipScaling n (if next = 0 then last else next) next

/-- The scaling lists from the i-th on, passed over. -/
def skipScalings : Nat → Nat → BitReader Unit
  | 0, _ => pure ()
  | n + 1, i => do
    let p ← readU 1
    readIf (p == 1) () (skipScaling (if i < 6 then 16 else 64) 8 8)
    skipScalings n (i + 1)

/-- Chroma format and bit depth of the profiles that carry them: 4:2:0 and 8 bits of the others. -/
def readHighFields : BitReader (Nat × Nat × Nat) := do
  let chroma ← readUe
  let _ ← readIf (chroma == 3) 0 (readU 1)
  let luma ← readUe
  let chromaDepth ← readUe
  let _ ← readU 1
  let scaling ← readU 1
  readIf (scaling == 1) () (skipScalings (if chroma = 3 then 12 else 8) 0)
  pure (chroma, luma + 8, chromaDepth + 8)

/-- The order-count fields, passed over. -/
def skipOrder : BitReader Unit := do
  let t ← readUe
  if t = 0 then
    let _ ← readUe
    pure ()
  else if t = 1 then
    let _ ← readU 1
    skipOver readSe 2
    let n ← readUe
    skipOver readSe (min n 255)
  else pure ()

/-- The four offsets of a cropping or conformance window. -/
def readWindow : BitReader (Nat × Nat) := do
  let p ← readU 1
  if p = 1 then
    let l ← readUe
    let r ← readUe
    let t ← readUe
    let b ← readUe
    pure (l + r, t + b)
  else pure (0, 0)

def readSps264 : BitReader SeqParams := do
  let profile ← readU 8
  let flags ← readU 8
  let level ← readU 8
  let id ← readUe
  let high := [100, 110, 122, 244, 44, 83, 86, 118, 128, 138, 139, 134, 135].contains profile
  let (chroma, luma, chromaDepth) ← readIf high (1, 8, 8) readHighFields
  let _ ← readUe
  skipOrder
  let refs ← readUe
  let _ ← readU 1
  let w ← readUe
  let h ← readUe
  let frames ← readU 1
  let _ ← readIf (frames == 0) 0 (readU 1)
  let _ ← readU 1
  let (cx, cy) ← readWindow
  pure {
    id := id, refs := refs, depth := max luma chromaDepth
    admitted := ((profile == 66 && flags.testBit 6) || profile == 77 || profile == 100) && decide (level ≤ 51) && chroma == 1 &&
      luma == 8 && chromaDepth == 8 && frames == 1
    width := 16 * (w + 1) - 2 * cx, height := 16 * (h + 1) - 2 * cy }

/-! ### H.265 -/

/-- The sub-layers' profile and level fields, passed over. -/
def skipSubLayers (n : Nat) : BitReader Unit := do
  let flags ← (List.range n).mapM fun _ => readU 2
  skipOver (readU 2) (if n = 0 then 0 else 8 - n)
  skipOver (readU 1) ((flags.map fun f => (if f.testBit 1 then 88 else 0) + (if f.testBit 0 then 8 else 0)).foldl (· + ·) 0)

def readSps265 : BitReader SeqParams := do
  let _ ← readU 4
  let subs ← readU 3
  let _ ← readU 1
  let _ ← readU 2
  let tier ← readU 1
  let profile ← readU 5
  let compat ← readU 32
  skipOver (readU 1) 48
  let level ← readU 8
  skipSubLayers subs
  let id ← readUe
  let chroma ← readUe
  let _ ← readIf (chroma == 3) 0 (readU 1)
  let w ← readUe
  let h ← readUe
  let (cx, cy) ← readWindow
  let luma ← readUe
  let chromaDepth ← readUe
  let _ ← readUe
  let all ← readU 1
  skipOver readUe (if all = 1 then 3 * subs else 0)
  let refs ← readUe
  let main := profile == 1 || profile == 2 || compat.testBit 30 || compat.testBit 29
  pure {
    id := id, refs := refs, depth := max luma chromaDepth + 8
    admitted := main && tier == 0 && decide (level ≤ 153) && chroma == 1 && (luma == 0 || luma == 2) && luma == chromaDepth
    width := w - 2 * cx, height := h - 2 * cy }

/-! ### The sets in force -/

/-- Codec 0 is H.264, 1 H.265; the type of a NAL unit, and the bytes of its header. -/
def nalType (codec : Nat) (nal : List Byte) : Nat := if codec = 0 then nfld (beAt nal 0 1) 0 5 else nfld (beAt nal 0 2) 9 6
def nalHead (codec : Nat) : Nat := if codec = 0 then 1 else 2
def isSps (codec : Nat) (nal : List Byte) : Bool := nalType codec nal == (if codec = 0 then 7 else 33)
def isPps (codec : Nat) (nal : List Byte) : Bool := nalType codec nal == (if codec = 0 then 8 else 34)
def isSlice (codec : Nat) (nal : List Byte) : Bool :=
  if codec = 0 then nalType 0 nal == 1 || nalType 0 nal == 5 else nalType codec nal ≤ 9 || (16 ≤ nalType codec nal && nalType codec nal ≤ 21)
/-- A slice of an IDR picture (H.264) or an IRAP picture (H.265). -/
def isRandomAccess (codec : Nat) (nal : List Byte) : Bool :=
  if codec = 0 then nalType 0 nal == 5 else 16 ≤ nalType codec nal && nalType codec nal ≤ 23

/-- The picture parameter set that a slice names. -/
def slicePps (codec : Nat) (nal : List Byte) : Option Nat :=
  let p : BitReader Nat := if codec = 0 then do
      skipOver readUe 2
      readUe
    else do
      let _ ← readU 1
      let _ ← readIf (16 ≤ nalType codec nal && nalType codec nal ≤ 23) 0 (readU 1)
      readUe
  (p (nalBits (nalHead codec) nal)).map Prod.fst

/-- The numbers of a picture parameter set and of the sequence parameter set it names. -/
def readPps (codec : Nat) (nal : List Byte) : Option (Nat × Nat) :=
  let p : BitReader (Nat × Nat) := do
    let a ← readUe
    let b ← readUe
    pure (a, b)
  (p (nalBits (nalHead codec) nal)).map Prod.fst

def readSps (codec : Nat) (nal : List Byte) : Option SeqParams :=
  ((if codec = 0 then readSps264 else readSps265) (nalBits (nalHead codec) nal)).map Prod.fst

/-- The sequence parameters in force for an access unit after the NAL units of those before it, newest last; none where its
slices name no set that has come. -/
def activeParams (codec : Nat) (history : List (List (List Byte))) (nals : List (List Byte)) : Option SeqParams := do
  let all := (history.flatten ++ nals).reverse
  let slice ← nals.find? (isSlice codec)
  let pps ← slicePps codec slice
  let sps ← (all.filter (isPps codec)).findSome? fun n => (readPps codec n).bind fun p => if p.1 = pps then some p.2 else none
  (all.filter (isSps codec)).findSome? fun n => (readSps codec n).filter fun p => p.id == sps

end Sys2Proof.Machine
end

