-- ==== Sys2Proof/Machine/Ingest.lean ====
section
/-!
DEFINITION. Machine/Ingest.lean: the Gate ports' receive side, ingest streams, jitter buffer, decoders and host feeds
(R448 to R478).
-/
namespace Sys2Proof.Machine

/-! ### Geometry of a stream (Tables 13.3, 13.9, R456, R466) -/

def Stream.isAudio (x : Stream) : Bool := x.codec == 2
def Stream.sampleBytes (x : Stream) : Nat := if x.depth10 then 2 else 1
def Stream.lumaPitch (x : Stream) : Nat := (x.maxW.toNat * x.sampleBytes + 63) / 64 * 64
def Stream.chromaPitch (x : Stream) : Nat := (x.maxW.toNat * x.sampleBytes + 127) / 128 * 64
/-- *S*, the slot size. -/
def Stream.slotSize (x : Stream) : Nat :=
  if x.isAudio then 4096 else alignUp 4096 (x.lumaPitch * x.maxH.toNat + x.chromaPitch * x.maxH.toNat)
/-- Timestamp ticks of a frame. -/
def Stream.step (x : Stream) : Nat := if x.isAudio then 960 else (900000 + x.rateX10.toNat / 2) / x.rateX10.toNat
/-- Declared demand, in pixels per second. -/
def Stream.demand (x : Stream) : Nat := if x.isAudio then 0 else (x.maxW.toNat * x.maxH.toNat * x.rateX10.toNat + 9) / 10

/-- The declared demand of a decoder. -/
def State.decDemand (s : State) (d : Nat) : Nat :=
  (s.ing.streams.map fun p => if p.2.enable && p.2.decUsed.toNat == d then p.2.demand else 0).foldl (· + ·) 0
def decoderBudget : Nat := 1750000000

/-! ### Reports -/

/-- Report an E-ING code of a stream; its STATUS.CODE takes the number. -/
def State.ingReport (s : State) (n nn : Nat) (frame : Option Nat) : State :=
  let c := (s.stream n).ctx.toNat
  (s.modStream n fun x => { x with code := BitVec.ofNat 8 nn }).report
    { blk := .ing, nn := nn, func := some (s.ctx c).func, unit := .stream n, ctx := some c, frame := frame }

/-- The context that a stream feeds takes its frames (R476). -/
def State.feeds (s : State) (n : Nat) : Bool :=
  let x := s.ctx (s.stream n).ctx.toNat
  (x.st == .admitted || x.st == .suspended) && x.source == 1 && x.feed.toNat == n

/-- A lost event (R463): the Herder marks the frame lost with the given root code. -/
def State.lostEvent (s : State) (n no nn : Nat) (closedAt : DWord) (root : Err) : State :=
  let c := (s.stream n).ctx.toNat
  let s := s.ingReport n nn (some no)
  let s := if nn = 4 then s.modStream n fun x => { x with lostFrames := satInc x.lostFrames } else s
  s.supplyLost c (Frame.fresh no closedAt (s.deadlineFor c closedAt) 0 0 true false) root.lossCode

/-- The frames inferred lost before an access unit (R456, R463). -/
def State.gapEvents (s : State) (n : Nat) (u : AccessUnit) : State :=
  (List.range u.lostBefore).foldl (fun t i => t.lostEvent n (u.no - u.lostBefore + i) 4 u.closedAt ⟨.ing, 4⟩) s

/-- An access unit is lost: its gap, then its own event. -/
def State.loseAu (s : State) (n : Nat) (u : AccessUnit) (nn : Nat) (root : Err) : State :=
  if s.feeds n then (s.gapEvents n u).lostEvent n u.no nn u.closedAt root
  else s.modStream n fun x => { x with dropped := x.dropped + 1 }

/-! ### Access units (R452 to R456) -/

/-- A signed difference of 32-bit timestamps is positive. -/
def laterTs (a b : Nat) : Bool := let d := (a + 2 ^ 32 - b) % 2 ^ 32; 0 < d && d < 2 ^ 31

/-- What tells the unreleased access units of a stream apart. -/
def AccessUnit.key (u : AccessUnit) : Nat × Nat := (u.era, u.ts)

/-- Timestamp order, over discontinuities. -/
def AccessUnit.isLater (u v : AccessUnit) : Bool := v.era < u.era || (v.era == u.era && laterTs u.ts v.ts)

/-- A timestamp is later than that of the last released access unit, so that its packets still count (R455). -/
def Stream.isNew (x : Stream) (ts : Nat) : Bool :=
  match x.released with | none => true | some r => r.1 != x.era || laterTs ts r.2

/-- A new access unit of the present run. -/
def Stream.form (x : Stream) (ts : Nat) : AccessUnit :=
  { era := x.era, ts := ts, packets := [], loss := false, discont := false, no := 0, lostBefore := 0, closedAt := 0, nals := []
    unreadable := false }

/-- The frame number of an access unit as it is released, and the frames inferred lost before it (R456): those before it in
timestamp order have theirs. -/
def Stream.number (x : Stream) (u : AccessUnit) : AccessUnit × Stream :=
  let jump := match x.released with | none => u.era != 0 | some r => r.1 != u.era
  let g := match x.released with
    | none => 0
    | some r => if jump then 0 else (2 * ((u.ts + 2 ^ 32 - r.2) % 2 ^ 32) + x.step) / (2 * x.step) - 1
  let wide : Bool := x.gapMax.toNat < g
  let g := if wide then 0 else g
  ({ u with no := x.nextNo + g, lostBefore := g, discont := jump || wide },
   { x with released := some u.key, nextNo := x.nextNo + g + 1 })

/-- Insert in timestamp order. -/
def insertAu (u : AccessUnit) : List AccessUnit → List AccessUnit
  | [] => [u]
  | y :: r => if y.isLater u then u :: y :: r else y :: insertAu u r

/-- Close an open access unit at an epoch time. -/
def Stream.close (x : Stream) (at_ : DWord) (key : Nat × Nat) : Stream :=
  match x.opens.find? fun u => u.key == key with
  | none => x
  | some u =>
    { x with opens := x.opens.filter fun y => y.key != key, closed := insertAu { u with closedAt := at_ } x.closed }
def Stream.closeAll (x : Stream) (at_ : DWord) : Stream := (x.opens.map fun u => u.key).foldl (fun y k => y.close at_ k) x

/-- Change the unreleased access unit of a timestamp. -/
def Stream.modAu (x : Stream) (ts : Nat) (f : AccessUnit → AccessUnit) : Stream :=
  let g (u : AccessUnit) : AccessUnit := if u.key = (x.era, ts) then f u else u
  { x with opens := x.opens.map g, closed := x.closed.map g }
def Stream.hasAu (x : Stream) (ts : Nat) : Bool := (x.opens ++ x.closed).any fun u => u.key == (x.era, ts)

/-- Insert a packet in sequence order. -/
def insertPacket (p : Packet) : List Packet → List Packet
  | [] => [p]
  | q :: r => if (p.seq + 65536 - q.seq) % 65536 < 32768 then q :: insertPacket p r else p :: q :: r

def AccessUnit.add (u : AccessUnit) (p : Packet) : AccessUnit := { u with packets := insertPacket p u.packets }

/-- Bytes held in the jitter area. -/
def Stream.heldBytes (x : Stream) : Nat :=
  ((x.opens ++ x.closed).flatMap fun u => u.packets.map fun p => p.payload.length).foldl (· + ·) 0

/-- What a packet does to its access unit: it joins it, or is lost to it where the full jitter area dropped it (R475); where
its place in the jitter area could not be written, the access unit cannot be read (R623). -/
structure Put where
  packet : Option Packet
  denied : Bool
deriving DecidableEq, Repr

/-- A packet placed in its access unit, in timestamp order; it closes the open ones where it is later (R454, R475). An
access unit that forms between others has a later packet before it, so it closes as it forms (DEDUCED, log 86). -/
def Stream.placeVideo (x : Stream) (at_ : DWord) (ts : Nat) (marker : Bool) (p : Put) : Stream :=
  let put (u : AccessUnit) : AccessUnit :=
    let u := match p.packet with | some q => u.add q | none => { u with loss := true }
    { u with unreadable := u.unreadable || p.denied }
  let closeIf (y : Stream) : Stream := if marker then y.close at_ (y.era, ts) else y
  if x.hasAu ts then closeIf (x.modAu ts put)
  else if x.isNew ts then
    let u := put (x.form ts)
    if (x.opens ++ x.closed).any fun y => y.isLater u then { x with closed := insertAu { u with closedAt := at_ } x.closed }
    else
      let y := x.closeAll at_
      closeIf { y with opens := y.opens ++ [u] }
  else { x with latePkt := satInc x.latePkt }

/-- Bytes of an L16 frame's samples, per sample of all channels. -/
def Stream.frameUnit (x : Stream) : Nat := 2 * max 1 x.maxW.toNat

/-- Samples of an audio frame that packets have supplied. -/
def AccessUnit.hasSample (u : AccessUnit) (unit i : Nat) : Bool :=
  u.packets.any fun p => p.seq ≤ i && i < p.seq + p.payload.length / unit
def AccessUnit.complete (u : AccessUnit) (unit : Nat) : Bool := (List.range 960).all fun i => u.hasSample unit i

/-- One piece of a packet's samples for the audio frame that begins at a timestamp (R468). -/
def Stream.placeAudio (at_ : DWord) (x : Stream) (ts : Nat) (p : Put) : Stream :=
  let put (u : AccessUnit) : AccessUnit :=
    let u := match p.packet with | some q => { u with packets := u.packets ++ [q] } | none => { u with loss := true }
    { u with unreadable := u.unreadable || p.denied }
  let closeFull (y : Stream) : Stream :=
    if y.opens.any fun u => u.key == (y.era, ts) && u.complete y.frameUnit then y.close at_ (y.era, ts) else y
  if x.hasAu ts then closeFull (x.modAu ts put)
  else if x.isNew ts then closeFull { x with opens := insertAu (put (x.form ts)) x.opens }
  else { x with latePkt := satInc x.latePkt }

/-- The pieces of a packet's samples by audio frame: first timestamp of the frame, place in it and bytes. -/
def audioPieces (start unit : Nat) : Nat → Nat → List Byte → List (Nat × Packet)
  | 0, _, _ => []
  | fuel + 1, pos, d =>
    if d.isEmpty then []
    else
      let room := 960 - pos % 960
      ((start + pos / 960 * 960) % 2 ^ 32, { seq := pos % 960, payload := d.take (room * unit) }) ::
        audioPieces start unit fuel (pos + room) (d.drop (room * unit))

/-- Samples placed in their audio frames. -/
def Stream.placeSamples (x : Stream) (at_ : DWord) (ts : Nat) (d : List Byte) (kept denied : Bool) : Stream :=
  let x := if x.audioStart.isNone then { x with audioStart := some ts } else x
  let start := x.audioStart.getD ts
  let pos := (ts + 2 ^ 32 - start) % 2 ^ 32
  if 2 ^ 31 ≤ pos then { x with latePkt := satInc x.latePkt }
  else (audioPieces start x.frameUnit (d.length + 1) pos d).foldl
    (fun y p => Stream.placeAudio at_ y p.1 { packet := if kept then some p.2 else none, denied := denied }) x

/-- What a packet's sequence number says (R452). -/
inductive SeqVerdict where
  | place | late | dup
deriving DecidableEq, Repr

def Stream.judge (x : Stream) (seq : Nat) : SeqVerdict × Stream :=
  match x.highest with
  | none => (.place, { x with highest := some seq, seen := [seq] })
  | some h =>
    let d := (seq + 65536 - h) % 65536
    if d = 0 then (.dup, x)
    else if d < 32768 then
      (.place, { x with highest := some seq, seen := seq :: x.seen.filter fun y => (seq + 65536 - y) % 65536 ≤ 64 })
    else if 64 < 65536 - d then (.late, x)
    else if x.seen.contains seq then (.dup, x)
    else (.place, { x with seen := seq :: x.seen })

/-- A new source or a jump of the sequence number: the next access unit carries DISCONT (R456). -/
def Stream.restart (x : Stream) (at_ : DWord) : Stream :=
  { (x.closeAll at_) with highest := none, seen := [], audioStart := none, era := x.era + 1 }

/-- A stream's jitter area: address and bytes (Table 13.9). -/
def Stream.jitterArea (x : Stream) : Nat × Nat := (x.bufBase.toNat * 4096, x.jitMib.toNat * 2 ^ 20)

/-- The page at which the Cadastre denies the write of a packet to the jitter area (Table 18.4). Where in the area a packet
goes is not stated: where some page of it is denied, whether a packet met it is free. -/
def State.jitterDenied (s : State) (x : Stream) : Option Nat :=
  (s.cadDenied 0x20 x.jitterArea.1 x.jitterArea.2 true).filter fun _ => Config.landed s.freeCount 0

/-- A denied access of the ingest path for a stream's context (R623). -/
def State.ingDeny (s : State) (n page : Nat) (write : Bool) (frame : Option Nat) : State :=
  let c := (s.stream n).ctx.toNat
  s.deny 0x20 page write .frameContained (some (s.ctx c).func) (some c) frame

/-- A matched packet (R452 to R456, R468, R475). -/
def State.packetIn (s : State) (n : Nat) (r : Rtp) : State :=
  let at_ := s.epoch
  let x := s.stream n
  let changed := (!x.ssrcEn && x.lastSsrc.isSome && x.lastSsrc != some r.ssrc) ||
    x.highest.any fun h => (r.seq + 65536 - h) % 65536 == 32768
  let x := { (if changed then x.restart at_ else x) with lastSsrc := some r.ssrc }
  let bad := x.isAudio && r.payload.length % x.frameUnit != 0
  if bad then s.setStream n { x with malformed := satInc x.malformed }
  else
    match x.judge r.seq with
    | (.dup, x) => s.setStream n { x with dup := satInc x.dup }
    | (.late, x) => s.setStream n { x with latePkt := satInc x.latePkt }
    | (.place, x) =>
      let full := x.jitMib.toNat * 2 ^ 20 < x.heldBytes + r.payload.length
      let page := if full then none else s.jitterDenied x
      let y := if x.isAudio then x.placeSamples at_ r.ts r.payload (!full) page.isSome
        else x.placeVideo at_ r.ts r.marker
          { packet := if full then none else some { seq := r.seq, payload := r.payload }, denied := page.isSome }
      let s := s.takeFree.setStream n y
      let s := match page with | some p => s.ingDeny n p true none | none => s
      if full then s.ingReport n 10 none else s

/-! ### GATE_FRAME_RECEIVE -/

/-- The exception ring's entries. -/
def State.excSize (s : State) : Nat := 2 ^ s.ing.excLog2.toNat

/-- A frame for the exception ring (R451), written to host memory; one that finds it full is dropped with E-ING-08. -/
def State.toException (s : State) (port reason : Nat) (f : List Byte) : State :=
  let i := s.ing
  if (i.excHead.toNat + 1) % s.excSize = i.excTail.toNat then
    (s.setPort port { s.port port with excDrops := (s.port port).excDrops + 1 }).report
      { blk := .ing, nn := 8, quarter := some (1 + port), unit := .gate port }
  else
    let pad := (List.range 4).map fun k => Config.freeByte s.freeCount k
    let d := natLe 2 f.length ++ natLe 1 port ++ natLe 1 reason ++ pad ++ natLe 8 s.epoch.toNat ++ f.take 2032
    let s := s.takeFree.hostWrite 0 (i.excAddr.toNat * 64 + 2048 * i.excHead.toNat) d
    { s with ing := { s.ing with excHead := BitVec.ofNat 16 ((i.excHead.toNat + 1) % s.excSize) } }

/-- The destination address of a stream's match key. -/
def Stream.address (x : Stream) : Nat :=
  if x.ipv6 then x.daddrHi.toNat * 2 ^ 64 + x.daddrLo.toNat else x.daddrLo.toNat % 2 ^ 32

/-- A datagram matches a stream (R450). -/
def Stream.accepts (x : Stream) (port : Nat) (v6 : Bool) (dst udp : Nat) (b : List Byte) : Bool :=
  x.enable && (x.port.toNat == port || x.port == 2) && x.ipv6 == v6 && x.address == dst && x.udpPort.toNat == udp &&
  rtpPt b == some x.pt.toNat && (!x.ssrcEn || rtpSsrc b == some x.ssrc.toNat)

/-- A frame dropped by the port's filter or a failed checksum, and counted. -/
def State.filtered (s : State) (port : Nat) : State :=
  s.setPort port { s.port port with filtered := (s.port port).filtered + 1 }

/-- GATE_FRAME_RECEIVE (R448 to R456): `bytes` are the frame with its FCS. A MAC control frame is discarded, and counted
nowhere (Table 13.1; DESIGN CHOICE, log 139). -/
def execGateFrameReceive (port : Nat) (bytes : List Byte) (s : State) : Host.Outcome State Fault Refusal :=
  let p := s.port port
  if !s.alive || 2 ≤ port || !p.en || !p.link then .next s
  else
    let f := bytes.take (bytes.length - 4)
    if bytes.length < 64 ∨ 9216 < bytes.length ∨ bytes.drop (bytes.length - 4) ≠ ethFcs f then .next (s.filtered port)
    else if macControl f then .next s
    else
      match acceptFrame p.mac.toNat p.vlanEn p.vid.toNat f with
      | none => .next (s.filtered port)
      | some (ty, b) =>
        match offer ty b with
        | .dropped => .next (s.filtered port)
        | .exception reason => .next (s.toException port reason f)
        | .udp v6 dst udp d =>
          match Tab.keysWhere (fun _ x => x.accepts port v6 dst udp d) s.ing.streams with
          | [] => .next (s.toException port 1 f)
          | n :: _ =>
            match readRtp d with
            | none => .next (s.modStream n fun x => { x with malformed := satInc x.malformed })
            | some r => .next (s.packetIn n r)

/-- AU_CLOSE_TIMEOUT (R454, R468): the oldest open access unit or audio frame closes. -/
def execAuCloseTimeout (stream : Nat) (s : State) : Host.Outcome State Fault Refusal :=
  match (s.stream stream).opens with
  | [] => .next s
  | u :: _ => .next (if s.alive then s.modStream stream fun x => x.close s.epoch u.key else s)

/-! ### Writing a frame to its input slot (R461 to R465) -/

/-- The picture record (Table 13.4). -/
def pictureRecord (u : AccessUnit) (w h depth flags : Nat) : List Byte :=
  natLe 8 u.no ++ natLe 8 u.closedAt.toNat ++ natLe 4 u.ts ++ natLe 2 w ++ natLe 2 h ++ natLe 1 depth ++ natLe 1 flags ++
    natLe 2 (min u.lostBefore 65535) ++ List.replicate 36 0

/-- A frame of the context still holds an input slot (R465). -/
def Ctx.slotHeld (x : Ctx) (no : Nat) : Bool :=
  (x.held ++ (x.arriving.filter fun a => a.lost.isNone).map Arriving.frame).any fun f => f.no % 8 == no % 8

/-- Write a frame's bytes and record and hand it to the Herder; its gap's lost events come first. The picture lands whole in
one step, although R224 lets any subset of its granules be seen before (DESIGN CHOICE, log 136). -/
def State.deliver (s : State) (n : Nat) (u : AccessUnit) (rows : List (Nat × List Byte)) (record : List Byte) (flags : Nat) : State :=
  let x := s.stream n
  let c := x.ctx.toNat
  if !s.feeds n then s.modStream n fun x => { x with dropped := x.dropped + 1 }
  else if (s.ctx c).slotHeld u.no then s.loseAu n u 9 ⟨.ing, 9⟩
  else
    let off := x.inputOff.toNat * 4096
    let base := (s.ctx c).base + off
    let slot := u.no % 8
    let ws := (rows.map fun r => (base + slot * x.slotSize + r.1, r.2)) ++ [(base + 8 * x.slotSize + 64 * slot, record)]
    match ws.findSome? fun w => s.cadDenied 0x20 w.1 w.2.length true with
    | some page => (s.ingDeny n page true (some u.no)).loseAu n u 5 ⟨.ing, 5⟩
    | none =>
      if ws.any fun w => !inDev w.1 w.2.length then s.loseAu n u 5 ⟨.ing, 5⟩
      else
        match ws.findSome? fun w => s.badGranule [] (partGranules w.1 w.2.length) with
        | some b =>
          (s.memError 3 b.1 b.2.2 b.2.1
            { blk := .mem, nn := 3, func := some (s.ctx c).func, unit := .stream n, ctx := some c, frame := some u.no }).loseAu
              n u 5 ⟨.mem, 3⟩
        | none =>
          let s := ws.foldl (fun t w => t.writeDev w.1 w.2) s
          let s := s.invalidate ((ws.flatMap fun w => pages w.1 w.2.length).foldl (fun l p => insertNat p l) [])
          let s := s.gapEvents n u
          s.supply c (Frame.fresh u.no u.closedAt (s.deadlineFor c u.closedAt) (off + slot * x.slotSize) x.slotSize
            (flags % 8 != 0) (flags.testBit 1))

/-- FLAGS of a picture record. -/
def pictureFlags (loss concealed damaged discont irap : Bool) : Nat :=
  bitAt 0 loss + bitAt 1 concealed + bitAt 2 damaged + bitAt 3 discont + bitAt 4 irap

/-- An audio frame's samples as they are stored: missing ones are 0 (R468). -/
def AccessUnit.samples (u : AccessUnit) (unit : Nat) : List Byte :=
  (List.range 960).flatMap fun i =>
    match u.packets.find? fun p => p.seq ≤ i && i < p.seq + p.payload.length / unit with
    | some p =>
      let d := slice p.payload ((i - p.seq) * unit) unit
      (List.range (unit / 2)).flatMap fun k => (slice d (2 * k) 2).reverse
    | none => List.replicate unit 0

/-- An audio frame is released: it needs no decoder. -/
def State.deliverAudio (s : State) (n : Nat) (u : AccessUnit) : State :=
  let x := s.stream n
  let loss := u.loss || !u.complete x.frameUnit
  let flags := pictureFlags loss false false u.discont false
  if u.unreadable then s.loseAu n u 5 ⟨.ing, 5⟩
  else s.deliver n u [(0, u.samples x.frameUnit)] (pictureRecord u x.maxW.toNat 0 16 flags) flags

/-- A sequence number is missing between the first and last packets. -/
def gapIn : List Packet → Bool
  | p :: q :: r => (p.seq + 1) % 65536 != q.seq || gapIn (q :: r)
  | _ => false

/-- AU_RELEASE (R453, R455, R456): the oldest closed access unit leaves the jitter buffer, numbered, whole NAL units in hand. -/
def execAuRelease (stream : Nat) (s : State) : Host.Outcome State Fault Refusal :=
  let x := s.stream stream
  match x.closed with
  | [] => .next s
  | u :: rest =>
    let v := x.number u
    let u := v.1
    let x := v.2
    if !s.alive || x.opens.any (fun y => u.isLater y) then .next s
    else if x.isAudio then .next ((s.setStream stream { x with closed := rest }).deliverAudio stream u)
    else
      let d := depacketise x.codec.toNat (u.packets.map fun p => (p.seq, p.payload))
      let u := if u.nals.isEmpty then { u with nals := d.nals, loss := u.loss || d.loss || gapIn u.packets } else u
      let s := s.setStream stream { x with
        closed := rest, ready := x.ready ++ [u], malformed := satAdd x.malformed d.malformed }
      let k := x.decUsed.toNat
      .next (s.setDecoder k { s.decoder k with queue := (s.decoder k).queue ++ [stream] })

/-! ### Decoders (R458 to R460, R467) -/

/-- The reference slots of a stream's buffer: address and bytes (Table 13.9). -/
def Stream.refArea (x : Stream) : Nat × Nat := (x.jitterArea.1 + x.jitterArea.2, x.refSlots.toNat * x.slotSize)

/-- The granules that a decode was told of as uncorrectable or poisoned and that lie in the stream's reference slots: its
reads of reference pictures met them (R253). -/
def State.badReference (s : State) (x : Stream) (ue : UeList) : Option (Nat × Bool × Nat) :=
  let a := x.refArea
  let hit := ue.filter fun g => a.1 ≤ g.1 && g.1 < a.1 + a.2
  s.badGranule hit (hit.map fun g => granule g.1)

/-- PICTURE_DECODE_START (R460, R467): the next released access unit of the decoder's streams. One whose reads of reference
pictures meet a bad granule is lost (R253). -/
def execPictureDecodeStart (start : DecodeStart) (s : State) : Host.Outcome State Fault Refusal :=
  let decoder := start.decoder
  let d := s.decoder decoder
  match d.queue with
  | [] => .next s
  | n :: rest =>
    if !s.alive || d.disabled || d.busy.isSome then .next s
    else
      match (s.stream n).ready with
      | [] => .next (s.setDecoder decoder { d with queue := rest })
      | u :: more =>
        let t := s.modStream n fun x => { x with ready := more }
        match s.badReference (s.stream n) start.ue with
        | none => .next (t.setDecoder decoder { d with queue := rest, busy := some (n, u) })
        | some b =>
          let c := (s.stream n).ctx.toNat
          .next (((t.setDecoder decoder { d with queue := rest }).memError 2 b.1 b.2.2 b.2.1
            { blk := .mem, nn := 2, func := some (s.ctx c).func, unit := .decoder decoder, ctx := some c, frame := some u.no }).loseAu
              n u 5 ⟨.mem, 2⟩)

/-- Samples with the concealed ones filled: co-located in the last picture, else mid-grey (R459). -/
def conceal (depth w : Nat) (last : Option (Nat × List Nat)) (xs : List (Option Nat)) : List Nat :=
  (List.range xs.length).map fun i =>
    match xs.getD i none with
    | some v => v
    | none => match last with
      | some (lw, ys) => if i % w < lw then ys.getD (i / w * lw + i % w) (2 ^ (depth - 1)) else 2 ^ (depth - 1)
      | none => 2 ^ (depth - 1)

/-- A picture with every sample set. -/
def pictureOf (q : SeqParams) (irap : Bool) (d : Config.Decoded) (last : Option Picture) : Picture :=
  { width := q.width, height := q.height, depth := q.depth, irap := irap
    y := conceal q.depth q.width (last.map fun p => (p.width, p.y)) d.y
    cb := conceal q.depth (q.width / 2) (last.map fun p => (p.width / 2, p.cb)) d.cb
    cr := conceal q.depth (q.width / 2) (last.map fun p => (p.width / 2, p.cr)) d.cr }

/-- The rows of a plane: offset of each row in the slot, and its bytes. -/
def planeRows (off pitch w bytes : Nat) (xs : List Nat) : List (Nat × List Byte) :=
  (List.range ((xs.length + (w - 1)) / w)).map fun r => (off + r * pitch, (slice xs (r * w) w).flatMap fun v => natLe bytes v)
where
  slice (xs : List Nat) (a n : Nat) : List Nat := (xs.drop a).take n

/-- The rows of a picture in its slot (Table 13.3). -/
def Stream.rowsOf (x : Stream) (p : Picture) : List (Nat × List Byte) :=
  let b := x.sampleBytes
  let cbAt := x.lumaPitch * x.maxH.toNat
  let crAt := cbAt + x.chromaPitch * x.maxH.toNat / 2
  planeRows 0 x.lumaPitch p.width b p.y ++ planeRows cbAt x.chromaPitch (p.width / 2) b p.cb ++
    planeRows crAt x.chromaPitch (p.width / 2) b p.cr

/-- The parameter sets of a picture lie within a stream's declared geometry and Table 13.2. -/
def Stream.fits (x : Stream) (q : SeqParams) : Bool :=
  q.admitted && 0 < q.width && q.width ≤ 4096 && q.height ≤ 2304 && q.width ≤ x.maxW.toNat && q.height ≤ x.maxH.toNat &&
    (q.depth == 8 || (q.depth == 10 && x.depth10))

/-- A picture kept for reference is written to one of the stream's reference slots (R460): which one is free; its layout is
taken to be that of an input slot, whose size it has (DEDUCED, log 85). A denial gives its page (Table 18.4). -/
def State.keepReference (s : State) (n : Nat) (p : Picture) : Option Nat × State :=
  let x := s.stream n
  let at_ := x.refArea.1 + Config.freeNat s.freeCount % max 1 x.refSlots.toNat * x.slotSize
  let ws := (x.rowsOf p).map fun r => (at_ + r.1, r.2)
  match ws.findSome? fun w => s.cadDenied 0x20 w.1 w.2.length true with
  | some page => (some page, s)
  | none =>
    let s := ws.foldl (fun t w => t.writeDev w.1 w.2) s.takeFree
    (none, s.invalidate ((ws.flatMap fun w => pages w.1 w.2.length).foldl (fun l p => insertNat p l) []))

/-- A decoded access unit's outcome (R459, R460, R463, R465). Without the parameter sets its slices name, none decodes. -/
def State.decodeAu (s : State) (n : Nat) (u : AccessUnit) : State :=
  let x := s.stream n
  let codec := x.codec.toNat
  if u.unreadable then s.loseAu n u 5 ⟨.ing, 5⟩
  else
    let t := s.setStream n { x with history := x.history ++ [u.nals] }
    let irap := u.nals.any (isRandomAccess codec)
    match activeParams codec x.history u.nals with
    | none => t.loseAu n u 5 ⟨.ing, 5⟩
    | some q =>
      if !x.fits q then t.loseAu n u 6 ⟨.ing, 6⟩
      else if x.refSlots.toNat < q.refs then
        (t.modStream n fun y => { y with waitIrap := some ⟨.ing, 6⟩ }).loseAu n u 6 ⟨.ing, 6⟩
      else
        match (if irap then none else x.waitIrap), Config.decodeVideo codec x.history u.nals with
        | some e, _ => t.loseAu n u e.nn e
        | none, none => t.loseAu n u 5 ⟨.ing, 5⟩
        | none, some d =>
          let p := pictureOf q irap d x.lastPic
          let concealed := (d.y ++ d.cb ++ d.cr).any fun v => v.isNone
          let damaged := x.damaged && !(irap && !concealed)
          let flags := pictureFlags u.loss concealed damaged u.discont irap
          let t := t.modStream n fun y => { y with
            lastPic := some p, damaged := concealed || damaged, waitIrap := none }
          match if d.kept then t.keepReference n p else (none, t) with
          | (some page, t) => (t.ingDeny n page true (some u.no)).loseAu n u 5 ⟨.ing, 5⟩
          | (none, t) => t.deliver n u (x.rowsOf p) (pictureRecord u q.width q.height q.depth flags) flags

/-- PICTURE_WRITTEN (R459 to R465): the frame-ready event, or a lost event. -/
def execPictureWritten (decoder : Nat) (s : State) : Host.Outcome State Fault Refusal :=
  match (s.decoder decoder).busy with
  | none => .next s
  | some (n, u) =>
    if !s.alive then .next s
    else .next ((s.setDecoder decoder { s.decoder decoder with busy := none }).decodeAu n u)

/-! ### Enabling and disabling streams (R450, R466, R476, R479) -/

/-- Two streams' match keys could accept one datagram. -/
def Stream.clashes (x y : Stream) : Bool :=
  x.port != 3 && y.port != 3 && (x.port == y.port || x.port == 2 || y.port == 2) && x.ipv6 == y.ipv6 &&
  x.address == y.address && x.udpPort == y.udpPort && x.pt == y.pt && !(x.ssrcEn && y.ssrcEn && x.ssrc != y.ssrc)

/-- The fields of a stream hold values of Table 13.9. -/
def Stream.fieldsOk (x : Stream) : Bool :=
  x.codec != 3 && x.jitMib != 0 && 10 ≤ x.rateX10.toNat && x.rateX10.toNat ≤ 600 && 1 ≤ x.refSlots.toNat &&
  x.refSlots.toNat ≤ 16 &&
  (if x.isAudio then x.maxW == 1 || x.maxW == 2 else 1 ≤ x.maxW.toNat && x.maxW.toNat ≤ 4096 && 1 ≤ x.maxH.toNat && x.maxH.toNat ≤ 2304)

/-- The stream buffer lies in device memory, outside slot storage. -/
def Stream.bufferOk (x : Stream) : Bool :=
  inDev (x.bufBase.toNat * 4096) (x.jitMib.toNat * 2 ^ 20 + x.refSlots.toNat * x.slotSize)

/-- The decoder with the lowest declared demand, the lowest quarter first; disabled ones are left out. -/
def State.autoDecoder (s : State) : Option Nat :=
  let ds := [0, 1, 2, 3].filter fun d => !(s.decoder d).disabled
  ds.find? fun d => ds.all fun e => s.decDemand d ≤ s.decDemand e

/-- The decoder a stream is assigned to: none where its budget is exceeded (R466). -/
def State.assignDecoder (s : State) (x : Stream) : Option Nat :=
  let d := if x.dec.toNat ≤ 3 then (if (s.decoder x.dec.toNat).disabled then none else some x.dec.toNat) else s.autoDecoder
  d.filter fun k => s.decDemand k + x.demand ≤ decoderBudget

/-- A stream as it starts: its counters and everything it held are gone. -/
def Stream.fresh (x : Stream) (fn d : Nat) : Stream :=
  { x with
    enable := true, decUsed := BitVec.ofNat 2 d, func := fn, latePkt := 0, lostFrames := 0, malformed := 0, dup := 0, dropped := 0
    highest := none, seen := [], lastSsrc := none, opens := [], closed := [], ready := [], era := 0, released := none, nextNo := 0
    audioStart := none, history := [], lastPic := none, damaged := false, waitIrap := none }

/-- Discard what a stream holds. -/
def State.stopStream (s : State) (n : Nat) : State :=
  let s := s.modStream n fun x => { x with enable := false, opens := [], closed := [], ready := [] }
  { s with ing := { s.ing with decoders := Tab.mapVal (fun _ d =>
      { d with queue := d.queue.filter fun k => k != n, busy := d.busy.filter fun b => b.1 != n }) s.ing.decoders } }

/-- The fields of ING_STRM_CTRL besides ENABLE, as a write stores them. -/
def Stream.withCtrl (x : Stream) (v : Nat) : Stream :=
  { x with
    dec := BitVec.ofNat 3 (if nfld v 1 3 ≤ 3 then nfld v 1 3 else 7), ctx := BitVec.ofNat 12 (nfld v 4 12)
    jitMib := BitVec.ofNat 8 (nfld v 16 8) }

/-- A locked write to a stream's class L field (R128). -/
def State.streamLocked (s : State) (fn n off value : Nat) : State :=
  (s.modStream n fun x => { x with fieldLocked := true }).lockedRecord .ing 3 fn off value

/-- BAR0 offset of ING_STRM_CTRL. -/
def strmCtrlOff : Nat := 0x1000144

/-- The function may write a stream's ING_STRM_CTRL: it admitted the context the write names, and the stream is not
another's (R479). -/
def State.mayControl (s : State) (fn n value : Nat) : Bool :=
  let x := s.stream n
  let owns (c : Nat) : Bool := (s.ctx c).st != .free && (s.ctx c).func == fn
  s.hostReach fn && (owns (nfld value 4 12) || owns x.ctx.toNat) && (!x.enable || x.func == fn)

/-- The refusal of an enable: the number of the E-ING code. -/
def State.enableRefusal (s : State) (fn n : Nat) (x : Stream) : Option Nat :=
  let c := s.ctx x.ctx.toNat
  let others := s.ing.streams.any fun p => p.1 != n && p.2.enable && p.2.clashes x
  if others || !x.fieldsOk || !(c.st == .admitted || c.st == .suspended) || c.func != fn || c.source != 1 || c.feed.toNat != n ||
      !x.bufferOk then some 2
  else if (s.assignDecoder x).isNone then some 1
  else none

/-- STREAM_ENABLE (R450, R466): a write of ING_STRM_CTRL with ENABLE 1. -/
def execStreamEnable (fn : Nat) (value : Word) (s : State) : Host.Outcome State Fault Refusal :=
  let n := (s.fn fn).strmSel.toNat
  let x := s.stream n
  let y := x.withCtrl value.toNat
  if !s.mayControl fn n value.toNat then .next s
  else if x.enable then .next (s.streamLocked fn n strmCtrlOff value.toNat)
  else
    match s.enableRefusal fn n y with
    | some nn => .next ((s.setStream n y).ingReport n nn none)
    | none => .next (s.setStream n (y.fresh fn ((s.assignDecoder y).getD 0)))

/-- STREAM_DISABLE (R476): a write of ING_STRM_CTRL with ENABLE 0; held access units are discarded. -/
def execStreamDisable (fn : Nat) (value : Word) (s : State) : Host.Outcome State Fault Refusal :=
  let n := (s.fn fn).strmSel.toNat
  let x := s.stream n
  let y := x.withCtrl value.toNat
  if !s.mayControl fn n value.toNat then .next s
  else if x.enable then .next ((s.streamLocked fn n strmCtrlOff value.toNat).stopStream n)
  else .next (s.setStream n y)

/-- DECODER_FATAL_ERROR (R477): E-ING-11; its streams move to other decoders or are disabled with E-ING-01. -/
def execDecoderFatalError (decoder : Nat) (s : State) : Host.Outcome State Fault Refusal :=
  let d := s.decoder decoder
  if !s.alive || 4 ≤ decoder || d.disabled then .next s
  else
    let s := (s.setDecoder decoder { disabled := true, busy := none, queue := [] }).report
      { blk := .ing, nn := 11, quarter := some decoder, unit := .decoder decoder }
    let s := match d.busy with
      | some (n, u) => s.loseAu n u 5 ⟨.ing, 5⟩
      | none => s
    let ns := Tab.keysWhere (fun _ x => x.enable && x.decUsed.toNat == decoder && !x.isAudio) s.ing.streams
    .next (ns.foldl (fun t n =>
      let u := t.setStream n { t.stream n with enable := false, waitIrap := some ⟨.ing, 5⟩ }
      match u.assignDecoder (t.stream n) with
      | some k =>
        let u := u.setDecoder k { u.decoder k with queue := (u.decoder k).queue ++ d.queue.filter fun m => m == n }
        u.modStream n fun x => { x with enable := true, decUsed := BitVec.ofNat 2 k }
      | none => (u.stopStream n).ingReport n 1 none) s)

/-! ### Ports -/

/-- The fields of ING_PORT_CTRL besides EN. -/
def Port.withCtrl (p : Port) (v : Nat) : Port := { p with vlanEn := v.testBit 1, vid := BitVec.ofNat 12 (nfld v 2 12) }

/-- A locked write to a port's class L field. -/
def State.portLocked (s : State) (fn port off value : Nat) : State :=
  (s.setPort port { s.port port with fieldLocked := true }).lockedRecord .ing 3 fn off value

/-- PORT_ENABLE (R478, Table 13.8): a write of ING_PORT_CTRL with EN 1 by the physical function. -/
def execPortEnable (fn port : Nat) (value : Word) (s : State) : Host.Outcome State Fault Refusal :=
  let p := s.port port
  let q := p.withCtrl value.toNat
  if !s.hostReach fn || fn != 0 || 2 ≤ port then .next s
  else if p.en then .next (s.portLocked fn port (0x1000000 + 0x40 * port) value.toNat)
  else .next (s.setPort port { q with en := true })

/-- GATE_LINK_UP (R447). -/
def execGateLinkUp (port : Nat) (s : State) : Host.Outcome State Fault Refusal :=
  .next (if s.alive && port < 2 && (s.port port).en then s.setPort port { s.port port with link := true } else s)

/-- GATE_LINK_DOWN (R476, R477): E-ING-07. -/
def execGateLinkDown (port : Nat) (s : State) : Host.Outcome State Fault Refusal :=
  .next (if s.alive && port < 2 && (s.port port).link then
      (s.setPort port { s.port port with link := false }).report
        { blk := .ing, nn := 7, quarter := some (1 + port), unit := .gate port }
    else s)

/-- EXC_TAIL_WRITE (R496): by the physical function, which owns the ring. -/
def execExcTailWrite (fn : Nat) (value : Word) (s : State) : Host.Outcome State Fault Refusal :=
  if !s.hostReach fn || fn != 0 then .next s
  else
    let v := value.toNat % 65536
    if consumerOk s.excSize s.ing.excTail.toNat v s.ing.excHead.toNat then
      .next { s with ing := { s.ing with excTail := BitVec.ofNat 16 v } }
    else .next (s.accessError fn)

/-! ### Host feed (R469, R470) -/

def HostFeed.size (h : HostFeed) : Nat := 2 ^ h.log2.toNat

/-- The ring indices from one up to another. -/
def ringRange (size : Nat) : Nat → Nat → Nat → List Nat
  | 0, _, _ => []
  | fuel + 1, a, b => if a = b then [] else a :: ringRange size fuel ((a + 1) % size) b

/-- HOST_FEED_DOORBELL (R469, R496): a write of ING_HF_TAIL submits descriptors, which close at this instant. -/
def execHostFeedDoorbell (fn : Nat) (value : Word) (s : State) : Host.Outcome State Fault Refusal :=
  if !s.hostReach fn then .next s
  else
    let h := (s.fn fn).feed
    let v := value.toNat % 65536
    if producerOk h.size h.tail.toNat v h.head.toNat then
      .next (s.modFn fn fun g => { g with feed := { h with
        tail := BitVec.ofNat 16 v
        bells := h.bells ++ (ringRange h.size h.size h.tail.toNat v).map fun i => (i, s.epoch) } })
    else .next (s.accessError fn)

/-- A host-feed descriptor passes its checks (R470). -/
def State.feedOk (s : State) (fn : Nat) (d : List Byte) : Bool :=
  let n := leAt d 0 2
  let x := s.stream n
  let len := leAt d 4 4
  let c := s.ctx x.ctx.toNat
  n < 4096 && x.enable && x.port == 3 && c.st != .free && c.func == fn && 1 ≤ len && len ≤ 2 ^ 24 &&
  (!x.isAudio || len % x.frameUnit == 0) && leAt d 2 1 < 8 && leAt d 3 1 == 0 && (d.drop 0x14).all (fun b => b == 0) &&
  ((leAt d 2 1).testBit 0 || inDev (leAt d 8 8) len)

/-- The bytes of a descriptor, volatile: none where they cannot be read. -/
def State.feedBytes (s : State) (fn : Nat) (d payload : List Byte) (payloadOk : Bool) : Option (List Byte) × State :=
  let a := leAt d 8 8
  let len := leAt d 4 4
  if (leAt d 2 1).testBit 0 then
    if payloadOk && s.hst.linkUp then (some (s.fillFree len payload), s.takeFree) else (none, s)
  else
    match s.cadDenied 0x20 a len false with
    | some page => (none, s.deny 0x20 page false .frameContained (some fn) none none)
    | none =>
      match s.badGranule [] (granules a len) with
      | some b => (none, s.memError 2 b.1 b.2.2 b.2.1 { blk := .mem, nn := 2, func := some fn, unit := .stream (leAt d 0 2) })
      | none => (some (s.peek a len), s)

/-- A descriptor's access unit forms and closes at its doorbell; samples go to their audio frames. -/
def Stream.feedIn (x : Stream) (at_ : DWord) (ts : Nat) (loss : Bool) (data : Option (List Byte)) (len : Nat) : Stream :=
  if x.isAudio then
    let y := x.placeSamples at_ ts (data.getD (List.replicate len 0)) true data.isNone
    let mark (u : AccessUnit) : AccessUnit := { u with loss := u.loss || loss }
    let old (u : AccessUnit) : Bool := x.closed.any fun v => v.key == u.key
    let z : Stream := { y with opens := y.opens.map mark, closed := y.closed.map fun u => if old u then u else mark u }
    z.closeAll at_
  else if !x.isNew ts || x.hasAu ts then { x with latePkt := satInc x.latePkt }
  else { x with closed := insertAu { x.form ts with
      loss := loss, closedAt := at_, unreadable := data.isNone
      nals := (annexB (data.getD []) none 0).filter fun d => !d.isEmpty } x.closed }

/-- HOST_FEED_DESCRIPTOR (R469, R470): the descriptor at HEAD is read and checked. -/
def execHostFeedDescriptor (fn : Nat) (bytes payload : List Byte) (readOk payloadOk : Bool) (s : State) :
    Host.Outcome State Fault Refusal :=
  let h := (s.fn fn).feed
  if !s.alive || !s.fnExists fn || h.disabled || h.head == h.tail then .next s
  else
    let a := h.addr.toNat * 64 + 32 * h.head.toNat
    let stopFeed (t : State) : State :=
      (t.modFn fn fun g => { g with feed := { g.feed with disabled := true } }).report { blk := .hst, nn := 3, func := some fn }
    match (if h.host then none else s.cadDenied fn a 32 false) with
    | some page => .next (stopFeed (s.deny fn page false .reportOnly (some fn) none none))
    | none =>
      if h.host && (!readOk || !s.hst.linkUp) then .next (stopFeed s)
      else if !h.host && (s.badGranule [] (granules a 32)).isSome then .next (stopFeed s)
      else
        let d := if h.host then s.fillFree 32 bytes else s.peek a 32
        let s := s.takeFree
        let at_ := (Tab.find? h.bells h.head.toNat).getD s.epoch
        let s := s.modFn fn fun g => { g with feed := { h with
          head := BitVec.ofNat 16 ((h.head.toNat + 1) % h.size), bells := h.bells.filter fun b => b.1 != h.head.toNat } }
        let n := leAt d 0 2
        if !s.feedOk fn d then
          .next (s.report { blk := .ing, nn := 12, func := some fn, unit := .stream n, ownOnly := true })
        else
          let r := s.feedBytes fn d payload payloadOk
          .next (r.2.modStream n fun x => x.feedIn at_ (leAt d 0x10 4) ((leAt d 2 1).testBit 2) r.1 (leAt d 4 4))

end Sys2Proof.Machine
end

