-- ==== Sys2Proof/Machine/HostIf.lean ====
section
/-!
DEFINITION. Machine/HostIf.lean: the PCIe endpoint: BAR2, submission and output rings, function-level reset, virtual
functions and the link (R480 to R507).
-/
namespace Sys2Proof.Machine

/-! ### BAR2 (R484, R485) -/

/-- The bytes of a function's BAR2 (R484). -/
def State.bar2Size (s : State) (fn : Nat) : Nat := 2 ^ (30 + (if fn = 0 then s.hst.pfBar2 else s.hst.vfBar2).toNat)
/-- The module address of a BAR2 offset. -/
def State.bar2Addr (s : State) (fn off : Nat) : Nat := (s.fn fn).hst.bar2Base.toNat * 2 ^ 30 + off
/-- A BAR2 request of a function reaches the module. -/
def State.bar2Reach (s : State) (fn off len : Nat) : Bool := s.hostReach fn && decide (off + len ≤ s.bar2Size fn)

/-- A tile window that BAR2 reads: of an enabled core that is not fenced (Table 14.2). -/
def State.bar2Tile (s : State) (a n : Nat) : Bool :=
  match tileCore? a n with
  | some core => s.enabled core && !s.fenced core
  | none => false

/-- BAR2_READ (R484, Table 14.2): volatile; a poisoned granule gives poisoned data with E-MEM-04. -/
def execBar2Read (fn off len : Nat) (ue : UeList) (s : State) : Host.Outcome State Fault Refusal :=
  let a := s.bar2Addr fn off
  if !s.bar2Reach fn off len then .next s
  else if !inDev a len && !s.bar2Tile a len then .next ((s.accessError fn).emit (.readOnes fn))
  else
    match s.cadDenied fn a len false with
    | some page => .next ((s.deny fn page false .reportOnly (some fn) none none).emit (.readAbort fn))
    | none =>
      match if inDev a len then s.badGranule ue (granules a len) else none with
      | some b => .next ((s.memError 4 b.1 b.2.2 b.2.1 { blk := .mem, nn := 4, func := some fn }).emit
          (.readData fn (s.peek a len) true))
      | none => .next (s.emit (.readData fn (s.peek a len) false))

/-- BAR2_WRITE (R484, Table 14.2): a fresh write of device memory; a partial write of a bad granule fails with E-MEM-03
(R254). The write lands whole in this step (DESIGN CHOICE, log 136: R224 leaves open which granules show before it ends). -/
def execBar2Write (fn off : Nat) (data : List Byte) (ue : UeList) (s : State) : Host.Outcome State Fault Refusal :=
  let a := s.bar2Addr fn off
  if !s.bar2Reach fn off data.length then .next s
  else if !inDev a data.length then .next (s.accessError fn)
  else
    match s.cadDenied fn a data.length true with
    | some page => .next (s.deny fn page true .reportOnly (some fn) none none)
    | none =>
      match s.badGranule ue (partGranules a data.length) with
      | some b => .next (s.memError 3 b.1 b.2.2 b.2.1 { blk := .mem, nn := 3, func := some fn })
      | none => .next ((s.writeDev a data).invalidate (pages a data.length))

/-- BAR2_BASE_WRITE (R485). -/
def execBar2BaseWrite (fn : Nat) (value : DWord) (s : State) : Host.Outcome State Fault Refusal :=
  .next (if s.hostReach fn then s.modFn fn fun g => { g with hst := { g.hst with bar2Base := fld value 30 34 } } else s)

/-! ### Submission rings (R487 to R491) -/

def Sq.size (q : Sq) : Nat := 2 ^ q.log2.toNat
/-- A ring runs while HEAD differs from TAIL (R507). -/
def Sq.runs (q : Sq) : Bool := q.head != q.tail

/-- A locked write to an HST_ field (E-HST-06). -/
def State.hstLocked (s : State) (fn off value : Nat) : State :=
  (s.modFn fn fun g => { g with hst := { g.hst with fieldLocked := true } }).lockedRecord .hst 6 fn off value

/-- BAR0 offset of HST_SQ_CFG. -/
def sqCfgOff (ring : Nat) : Nat := 0x100108 + 0x20 * ring

/-- Another ring is the command ring of a channel. -/
def State.channelBound (s : State) (fn ring ch : Nat) : Bool :=
  (List.range 16).any fun f => s.fnExists f && (s.fn f).hst.sqs.any fun p =>
    !(f == fn && p.1 == ring) && p.2.kind == .command && p.2.channel.toNat == ch

/-- HST_SQ_CFG as a write stores it: sizes outside 4 to 12 go to the nearer bound, KIND 3 is 0 (Table 14.9). -/
def Sq.withCfg (q : Sq) (v : Nat) : Sq :=
  { q with
    log2 := BitVec.ofNat 4 (max 4 (min 12 (nfld v 0 4)))
    kind := (match nfld v 4 2 with | 1 => .command | 2 => .frame | _ => .disabled)
    channel := BitVec.ofNat 6 (nfld v 6 6) }

/-- SQ_BIND (R487): a refused command binding leaves the ring disabled with E-HST-02. -/
def execSqBind (fn ring : Nat) (value : Word) (s : State) : Host.Outcome State Fault Refusal :=
  let q := s.sq fn ring
  let y := q.withCfg value.toNat
  let ch := y.channel.toNat
  if !s.hostReach fn || 32 ≤ ring then .next s
  else if q.runs then .next (s.hstLocked fn (sqCfgOff ring) value.toNat)
  else if y.kind == .command && (!s.ownsChan fn ch || s.channelBound fn ring ch) then
    .next ((s.setSq fn ring { y with kind := .disabled, code := 2 }).report
      { blk := .hst, nn := 2, func := some fn, unit := .ring ring })
  else .next (s.setSq fn ring y)

/-- SQ_DOORBELL (R488, R496): the arrival of the frames it submits (R490). -/
def execSqDoorbell (fn ring : Nat) (value : Word) (s : State) : Host.Outcome State Fault Refusal :=
  let q := s.sq fn ring
  let v := value.toNat % 65536
  if !s.hostReach fn || 32 ≤ ring then .next s
  else if producerOk q.size q.tail.toNat v q.head.toNat then
    .next (s.setSq fn ring { q with
      tail := BitVec.ofNat 16 v
      bells := q.bells ++ (ringRange q.size q.size q.tail.toNat v).map fun i => (i, s.epoch) })
  else .next (s.accessError fn)

/-- HEAD moves past an entry. -/
def Sq.pass (q : Sq) : Sq :=
  { q with head := BitVec.ofNat 16 ((q.head.toNat + 1) % q.size), bells := q.bells.filter fun b => b.1 != q.head.toNat }

/-- A ring halts at its entry with an E-HST code. -/
def State.sqHalt (s : State) (fn ring nn : Nat) : State :=
  (s.setSq fn ring { s.sq fn ring with halted := true, code := BitVec.ofNat 8 nn }).report
    { blk := .hst, nn := nn, func := some fn, unit := .ring ring }

/-- The entry at HEAD: none, with the ring halted, where the Cadastre denies it or it cannot be read (E-HST-03). -/
def State.sqEntry (s : State) (fn ring : Nat) (bytes : List Byte) (ok : Bool) : Option (List Byte) × State :=
  let q := s.sq fn ring
  let a := q.addr.toNat * 64 + 64 * q.head.toNat
  if q.host then
    if ok && s.hst.linkUp then (some (s.fillFree 64 bytes), s.takeFree) else (none, s.sqHalt fn ring 3)
  else
    match s.cadDenied fn a 64 false with
    | some page => (none, (s.deny fn page false .reportOnly (some fn) none none).sqHalt fn ring 3)
    | none =>
      if !inDev a 64 || (s.badGranule [] [a]).isSome then (none, s.sqHalt fn ring 3) else (some (s.peek a 64), s)

/-- A ring of a kind that reads its next entry. -/
def State.sqReads (s : State) (fn ring : Nat) (k : SqKind) : Bool :=
  let q := s.sq fn ring
  s.alive && s.fnExists fn && decide (ring < 32) && q.kind == k && q.runs && !q.halted

/-- SQ_ENTRY_FETCH (R487, R488): the next descriptor of a command ring is queued on its channel. -/
def execSqEntryFetch (fn ring : Nat) (bytes : List Byte) (ok : Bool) (s : State) : Host.Outcome State Fault Refusal :=
  if !s.sqReads fn ring .command then .next s
  else
    match s.sqEntry fn ring bytes ok with
    | (none, t) => .next t
    | (some d, t) =>
      let q := t.sq fn ring
      let ch := q.channel.toNat
      if !t.ownsChan fn ch then .next (t.sqHalt fn ring 2)
      else .next ((t.setSq fn ring q.pass).modChan ch fun x => { x with driverQ := x.driverQ ++ [Desc.read d] })

/-- A frame submission (Table 14.3). -/
structure Submission where
  ctx : Nat
  lost : Bool
  inputLoss : Bool
  gap : Nat
  input : Nat
  len : Nat

def Submission.read (d : List Byte) : Submission :=
  { ctx := leAt d 0 2, lost := (leAt d 2 1).testBit 0, inputLoss := (leAt d 2 1).testBit 1, gap := leAt d 4 4
    input := leAt d 8 8, len := leAt d 0x10 4 }

/-- A submission meets Table 14.3 for a function. -/
def State.submissionOk (s : State) (fn : Nat) (d : List Byte) : Bool :=
  let x := Submission.read d
  let c := s.ctx x.ctx
  decide (leAt d 2 1 < 4) && leAt d 3 1 == 0 && ((d.drop 0x14).all fun b => b == 0) && decide (x.gap ≤ 65535) &&
  decide (x.ctx < 4096) && (c.st == .admitted || c.st == .suspended) && c.func == fn && c.source == 0 &&
  x.input % 4096 == 0 && decide (x.input + x.len ≤ c.len) && (!x.lost || (x.input == 0 && x.len == 0))

/-- One host frame marked lost (R490): E-HST-09 for a gap, E-HST-10 for one submitted as lost. -/
def State.hostLost (s : State) (fn c no nn : Nat) (arrival : DWord) : State :=
  (s.report { blk := .hst, nn := nn, func := some fn, ctx := some c, frame := some no }).loseUnheld c
    (Frame.fresh no arrival (s.deadlineFor c arrival) 0 0 false false) (Err.lossCode ⟨.hst, nn⟩)

/-- A submission reaches the Herder (R490). -/
def State.submit (s : State) (fn : Nat) (x : Submission) (arrival : DWord) : State :=
  let first := if (s.ctx x.ctx).submitted then (s.ctx x.ctx).nextNo else 0
  let no := if (s.ctx x.ctx).submitted then first + x.gap else first
  let s := (List.range (no - first)).foldl (fun t i => t.hostLost fn x.ctx (first + i) 9 arrival) s
  let s := s.modCtx x.ctx fun y => { y with submitted := true, nextNo := no + 1 }
  if x.lost then s.hostLost fn x.ctx no 10 arrival
  else s.supply x.ctx (Frame.fresh no arrival (s.deadlineFor x.ctx arrival) x.input x.len x.inputLoss false)

/-- FRAME_SUBMISSION (R489 to R491): an invalid one halts its ring with E-HST-02. -/
def execFrameSubmission (fn ring : Nat) (bytes : List Byte) (ok : Bool) (s : State) : Host.Outcome State Fault Refusal :=
  if !s.sqReads fn ring .frame then .next s
  else
    match s.sqEntry fn ring bytes ok with
    | (none, t) => .next t
    | (some d, t) =>
      let q := t.sq fn ring
      let at_ := (Tab.find? q.bells q.head.toNat).getD t.epoch
      if !t.submissionOk fn d then .next (t.sqHalt fn ring 2)
      else .next ((t.setSq fn ring q.pass).submit fn (Submission.read d) at_)

/-- SQ_RESUME (R491): a halted ring goes on at its entry. -/
def execSqResume (fn ring : Nat) (s : State) : Host.Outcome State Fault Refusal :=
  .next (if s.hostReach fn && decide (ring < 32) && (s.sq fn ring).halted then
    s.setSq fn ring { s.sq fn ring with halted := false } else s)

/-- SQ_DROP (R491): a halted ring goes on past its entry, which consumes no frame number. -/
def execSqDrop (fn ring : Nat) (s : State) : Host.Outcome State Fault Refusal :=
  .next (if s.hostReach fn && decide (ring < 32) && (s.sq fn ring).halted then
    s.setSq fn ring { (s.sq fn ring).pass with halted := false } else s)

/-! ### Output rings (R494 to R499) -/

/-- WAITING_ENTRY_PLACED (R494): the waiting entry at the ring's head, once it fits. -/
def execWaitingEntryPlaced (fn ring : Nat) (s : State) : Host.Outcome State Fault Refusal :=
  .next (if s.alive && !(s.oq fn ring).disabled then s.oqDrain fn ring 1 else s)

/-- A late episode ends when every late block is freed. -/
def Oq.settleLate (o : Oq) : Oq :=
  match o.lateTo with
  | some p => if (p - o.cidx).toNat = 0 ∨ (p - o.cidx).msb then { o with lateTo := none } else o
  | none => o

/-- OQ_CIDX_WRITE (R495, R496): a consumer index, modulo 2^32 in blocks. -/
def execOqCidxWrite (fn ring : Nat) (value : Word) (s : State) : Host.Outcome State Fault Refusal :=
  let o := s.oq fn ring
  if !s.hostReach fn || 64 ≤ ring then .next s
  else if (value - o.cidx).toNat ≤ (o.pidx - o.cidx).toNat then
    .next (s.setOq fn ring (Oq.settleLate { o with cidx := value }))
  else .next (s.accessError fn)

/-- OQ_IRQ_COALESCE_EXPIRY (R499): publications not yet signalled are signalled. -/
def execOqIrqCoalesceExpiry (fn ring : Nat) (s : State) : Host.Outcome State Fault Refusal :=
  let o := s.oq fn ring
  .next (if s.alive && o.en && o.unsignalled != 0 then s.oqInterrupt fn ring else s)

/-- A ring is bound to a non-lossy context (R498). -/
def State.boundStrict (s : State) (fn ring : Nat) : Bool :=
  s.hrd.ctxs.any fun p => p.2.st != .free && p.2.func == fn && p.2.rings.any (fun r => r == some ring) && !s.ctxLossy p.1

/-- DRAIN_BOUND_EXPIRY (R498): DRAIN_LATE, and E-HST-04 once for each episode. -/
def execDrainBoundExpiry (fn ring : Nat) (s : State) : Host.Outcome State Fault Refusal :=
  let o := s.oq fn ring
  if !s.alive || o.pidx == o.cidx || o.lateTo.isSome || !s.boundStrict fn ring then .next s
  else
    let s := s.setOq fn ring { o with drainLate := true, lateTo := some o.pidx }
    let s := s.modFn fn fun g => { g with hst := { g.hst with drainLate := true } }
    .next (s.report { blk := .hst, nn := 4, func := some fn, unit := .ring ring })

/-! ### Function-level reset (R503, R504) -/

/-- A context ends at once and becomes FREE: its routes are reclaimed without audits (R84, R134). -/
def State.endByReset (s : State) (c : Nat) : State := (s.endSilently c).freeCtx c

/-- The contexts of a function, and the instances of slots it owns (R134, R323). -/
def State.contextsOf (s : State) (fn : Nat) : List Nat :=
  Tab.keysWhere (fun _ x => x.st != .free && (x.func == fn || (s.slot x.slot.toNat).owner.toNat == fn)) s.hrd.ctxs

/-- Cancel every driver-mode command of a function's channels (R284), and set its driver tallies to 0. A completion held for
a full record ring is cancelled as well; a record for which the ring has no room is not written (DESIGN CHOICE, log 137). -/
def State.resetChannel (s : State) (fn ch : Nat) : State :=
  let ks := (s.chan ch).started.filter fun k => !k.issuer.isUnit
  let s := ks.foldl (fun t k => t.cancelDriver ch fn k) s
  let s := s.dropQueued ch fn
  let s := s.modChan ch fun x => { x with started := x.started.filter fun k => k.issuer.isUnit }
  (List.range 16).foldl (fun t i => t.setTally (tallyKey (ch / 16) (768 + 16 * (ch % 16) + i)) 0) s

/-- Abandon a function's loads, running or queued, with E-SVY-19 (R134). -/
def State.abandonLoads (s : State) (fn : Nat) : State :=
  let mine (q : LoadReq) : Bool := q.fn == fn
  let lost := (s.svy.running.toList ++ s.svy.queue).filter mine
  let running := s.svy.running
  let s := { s with svy := { s.svy with queue := s.svy.queue.filter fun q => !mine q, running := running.filter fun q => !mine q } }
  let s := match running with
    | some q => if mine q ∧ ¬q.replace then s.setSlot q.slot { s.slot q.slot with state := .empty } else s
    | none => s
  lost.foldl (fun t q => t.report { blk := .svy, nn := 19, func := some fn, unit := .slot q.slot }) s

/-- Empty the slots a function owns (R134). -/
def State.emptySlots (s : State) (fn : Nat) : State :=
  { s with svy := { s.svy with slots := Tab.mapVal (fun _ x =>
      if x.owner.toNat = fn then { x with state := .empty, current := none, retained := none, skipReported := false } else x) s.svy.slots } }

/-- A function's state after a per-function or warm reset (R15): everything at its reset value but HST_ACC_ERR. -/
def Fn.warm (g : Fn) : Fn := { hst := { accErr := g.hst.accErr } }

/-- A function-level reset of one function (R503). Its log ring is disabled from the start (R696). -/
def State.resetFunction (s : State) (fn : Nat) : State :=
  let s := s.modFn fn fun g => { g with ring := { g.ring with en := false } }
  let ctxs := s.contextsOf fn
  let streams := Tab.keysWhere (fun _ x => x.enable && (ctxs.contains x.ctx.toNat || (x.port == 3 && x.func == fn))) s.ing.streams
  let s := ctxs.foldl (fun t c => t.endByReset c) s
  let s := { s with hrd := { s.hrd with asks := s.hrd.asks.filter fun a => a.1 != fn } }
  let s := streams.foldl (fun t n => t.stopStream n) s
  let s := ((List.range 64).filter fun ch => s.ownsChan fn ch).foldl (fun t ch => t.resetChannel fn ch) s
  let s := (s.abandonLoads fn).emptySlots fn
  s.modFn fn Fn.warm

/-- The virtual functions in being. -/
def State.vfs (s : State) : List Nat := if s.hst.vfEnable then (List.range s.hst.numVfs.toNat).map fun i => i + 1 else []

/-- Clear VF Enable, which resets every virtual function (R482). -/
def State.clearVfs (s : State) : State :=
  let vs := s.vfs
  vs.foldl (fun t f => t.resetFunction f) { s with hst := { s.hst with vfEnable := false } }

/-- Reset every function (R504, R505). -/
def State.resetFunctions (s : State) : State := (s.resetFunction 0).clearVfs

/-- FUNCTION_LEVEL_RESET (R503, R504). -/
def execFunctionLevelReset (fn : Nat) (s : State) : Host.Outcome State Fault Refusal :=
  .next (if !s.hostReach fn then s else if fn = 0 then s.resetFunctions else s.resetFunction fn)

/-- VF_ENABLE_CHANGE (R482): NumVFs changes only while VF Enable is 0. -/
def execVfEnableChange (numVfs : Nat) (enable : Bool) (s : State) : Host.Outcome State Fault Refusal :=
  if !s.hostReach 0 || 15 < numVfs then .next s
  else if s.hst.vfEnable then .next (if enable then s else s.clearVfs)
  else .next { s with hst := { s.hst with numVfs := BitVec.ofNat 4 numVfs, vfEnable := enable } }

/-! ### Reset of the endpoint and the link (R481, R505, R506) -/

/-- The link is down: HST_LINK reads 0. -/
def State.linkLost (s : State) : State :=
  { s with hst := { s.hst with linkUp := false, speed := 0, width := 0, linkDegraded := false } }

/-- The endpoint and the link reset, and every function does; NumVFs is the endpoint's and returns to 0 (R505). -/
def State.endpointReset (s : State) : State :=
  let s := s.linkLost.resetFunctions
  { s with hst := { s.hst with numVfs := 0 } }

/-- PERST_ASSERT (R505): the endpoint, the link and every function reset. -/
def execPerstAssert (s : State) : Host.Outcome State Fault Refusal :=
  let s := { s with pins := { s.pins with perstN := false } }
  .next (if s.alive then s.endpointReset else s)

/-- PERST_RELEASE (R506): the endpoint may train its link. -/
def execPerstRelease (s : State) : Host.Outcome State Fault Refusal := .next { s with pins := { s.pins with perstN := true } }

/-- PCIE_LINK_UP (R481): a link below 32 GT/s x16 is degraded, with E-HST-08. `speed` is coded as HST_LINK.SPEED. -/
def execPcieLinkUp (speed width : Nat) (s : State) : Host.Outcome State Fault Refusal :=
  if !s.alive || !s.pins.perstN || s.hst.linkUp || speed = 0 || 5 < speed || !([1, 2, 4, 8, 16].contains width) then .next s
  else
    let low : Bool := decide (speed < 5 ∨ width < 16)
    let s := { s with hst := { s.hst with
      linkUp := true, speed := BitVec.ofNat 4 speed, width := BitVec.ofNat 5 width, linkDegraded := low } }
    .next (if low then s.report { blk := .hst, nn := 8 } else s)

/-- PCIE_LINK_DOWN (R505): DL_Down resets every function as PERST_N does. -/
def execPcieLinkDown (s : State) : Host.Outcome State Fault Refusal :=
  .next (if s.alive && s.hst.linkUp then s.endpointReset else s)

/-- ENDPOINT_FATAL_ERROR (R502): E-HST-11, module-fatal. -/
def execEndpointFatalError (s : State) : Host.Outcome State Fault Refusal :=
  .next (if s.alive then s.report { blk := .hst, nn := 11 } else s)

end Sys2Proof.Machine
end

