-- ==== Sys2Proof/Machine/Pack.lean ====
section
/-!
DEFINITION. Machine/Pack.lean: Traverse links, the formation of a Pack, Baseline calibration and the sources of the epoch
clock (R508 to R533, R547 to R549).
-/
namespace Sys2Proof.Machine

/-! ### FORM and LEAVE -/

/-- The MODULE_IDs of an admission list, or none where an entry's last 8 bytes are not 0 (R530). -/
def admitList : Nat → List Byte → Option (List DWord)
  | 0, _ => some []
  | n + 1, d =>
    if (slice d 8 8).all fun b => b == 0 then (admitList n (d.drop 16)).map fun l => BitVec.ofNat 64 (leAt d 0 8) :: l
    else none

/-- The admission list in device memory, where it can be read. -/
def State.readAdmit (s : State) : Option (List Byte) :=
  let a := s.pck.admitAddr.toNat * 64
  let n := 16 * s.pck.size
  if inDev a n && (s.badGranule [] (granules a n)).isNone then some (s.peek a n) else none

/-- The checks of FORM (R529, R530): the list's MODULE_IDs and its hash where all hold. -/
def State.formCheck (s : State) : Option (List DWord × DWord) :=
  match (s.slot s.pck.slot.toNat).current, s.readAdmit with
  | some l, some d =>
    match l.image.pack, admitList s.pck.size d with
    | some p, some ids =>
      if (s.slot s.pck.slot.toNat).state == .loaded && l.image.packBound && (hashId d).toNat == p.admitHash &&
        ids[s.pck.me]? == some s.fuses.moduleId && decide ids.Nodup && s.pck.packId.toNat == p.packId &&
        s.pck.size == p.size && s.sup.profile.toNat == p.profile && s.firmware.major.toNat == p.fwMajor
      then some (ids, hashId d) else none
    | _, _ => none
  | _, _ => none

/-- The greeting of this module on a port (Table 15.5, step 3). -/
def State.greet (s : State) (port : Nat) : State :=
  s.sendControl port (.greeting s.fuses.moduleId s.pck.packId s.pck.me (s.link port).asym)

/-- A port as a formation begins. -/
def PckPort.forming (x : PckPort) (cabled : Bool) : PckPort :=
  { x with
    en := x.en || cabled, greeted := false, formRtt := none, report := none, round := none, offFault := false, rttFault := false }

/-- The Pack begins to form (Table 15.5, step 1); links that are up already greet at once. -/
def State.form (s : State) (ids : List DWord) (hash : DWord) : State :=
  let s := { s with pck := { s.pck with
    state := .forming, admitHash := hash, admitIds := ids, syntFault := false, ready := s.pck.isMaster, reported := false
    lead := 0, epoch := { s.pck.epoch with syntLock := false } } }
  let cabled := s.pck.cabledPorts
  let s := (List.range 8).foldl (fun t q => t.modLink q fun x => x.forming (cabled.contains q)) s
  (cabled.filter fun q => (s.link q).link).foldl (fun t q => t.greet q) s

/-- PACK_FORM (R529, R530): E-PCK-01 leaves the Pack IDLE. -/
def execPackForm (fn : Nat) (s : State) : Host.Outcome State Fault Refusal :=
  if !s.hostReach fn || fn != 0 || s.pck.busy then .next s
  else
    match s.formCheck with
    | some r => .next (s.form r.1 r.2)
    | none => .next (State.pckFail { s with pck := { s.pck with state := .idle } } 1 s.pck.me 0 none none)

/-- The Pack becomes FAILED with a code (Table 15.7). -/
def State.packFailed (s : State) (nn member port : Nat) : State :=
  State.pckFail { s with pck := { s.pck with state := .failed, lead := 0 } } nn member port none none

/-- A port's link is down. -/
def PckPort.down (x : PckPort) : PckPort :=
  { x with chans := [], link := false, greeted := false, round := none, retraining := false, rxSeq := 0, replayOf := 0, replayRun := 0 }

/-- A link goes down (R547): both ends of a cabled one report E-PCK-08, and every member becomes FAILED. -/
def State.linkFell (s : State) (port : Nat) : State :=
  let s := s.modLink port PckPort.down
  match s.pck.neighbour s.pck.me port with
  | none => s
  | some m =>
    let s := { s with pck := { s.pck with linkDowns := satInc s.pck.linkDowns } }
    if s.pck.busy then s.packFailed 8 m port else s.pckFail 8 m port none none

/-- The module leaves its Pack: every port is disabled, and it is IDLE (R549). -/
def State.leavePack (s : State) : State :=
  let up := s.pck.cabledPorts.filter fun q => (s.link q).link
  let s := up.foldl (fun t q => t.linkFell q) s
  let s := (List.range 8).foldl (fun t q => t.modLink q fun x => { x.down with en := false }) s
  { s with pck := { s.pck with
      state := .idle, lead := 0, ready := false, reported := false, syntFault := false
      epoch := { s.pck.epoch with syntLock := false } } }

/-- PACK_LEAVE (R549). -/
def execPackLeave (fn : Nat) (s : State) : Host.Outcome State Fault Refusal :=
  .next (if s.hostReach fn && fn == 0 then s.leavePack else s)

/-! ### Links and greetings -/

/-- TRAVERSE_LINK_UP (R510): a port without a supported optical module stays down with E-PCK-11. -/
def execTraverseLinkUp (port : Nat) (moduleOk : Bool) (s : State) : Host.Outcome State Fault Refusal :=
  if !s.alive || 8 ≤ port || !(s.link port).en || (s.link port).link then .next s
  else if !moduleOk then
    .next ((s.modLink port fun x => { x with moduleOk := false }).pckReport 11 (.traverse port) none none)
  else
    let s := s.modLink port fun x => { x.down with link := true, moduleOk := true }
    .next (if s.pck.state == .forming && s.pck.cabledPorts.contains port then s.greet port else s)

/-- What a greeting must say on a port (Table 15.5, step 3): `asym` negates this port's declaration. -/
def State.greetingOk (s : State) (port : Nat) (moduleId packId : DWord) (member : Nat) (asym : Word) (rttNs : Nat) : Bool :=
  s.pck.neighbour s.pck.me port == some member && packId == s.pck.packId && s.pck.admitIds[member]? == some moduleId &&
  asym == -(s.link port).asym && decide (rttNs ≤ 22000)

/-- LINK_GREETING_RECEIVE (R532). -/
def execLinkGreetingReceive (port : Nat) (moduleId packId : DWord) (member : Nat) (asym : Word) (rttNs : Nat) (s : State) :
    Host.Outcome State Fault Refusal :=
  if !s.alive || s.pck.state ≠ .forming || !(s.link port).link || !s.pck.cabledPorts.contains port then .next s
  else if s.greetingOk port moduleId packId member asym rttNs then .next (s.modLink port fun x => { x with greeted := true })
  else .next (s.packFailed 2 member port)

/-! ### Syntonisation (R523) -/

/-- SYNTONISATION_LOCK (R523): the clock runs at the frequency of the parent link. -/
def execSyntonisationLock (s : State) : Host.Outcome State Fault Refusal :=
  if !s.alive || !s.pck.followsParent then .next s
  else
    match s.pck.parentPort s.pck.me with
    | some q => .next (if (s.link q).greeted then
        { s with pck := { s.pck with epoch := { s.pck.epoch with syntLock := true, ratePpb := 0 } } } else s)
    | none => .next s

/-- SYNTONISATION_LOSS (R523, R528): a skew fault. -/
def execSyntonisationLoss (s : State) : Host.Outcome State Fault Refusal :=
  .next (if s.alive && s.pck.followsParent && s.pck.epoch.syntLock then
    { s with pck := { s.pck with syntFault := true, epoch := { s.pck.epoch with syntLock := false } } } else s)

/-! ### Formation reports (Table 15.5, steps 6 to 8) -/

/-- The fingerprint presented at formation: that of the slot's current image (R531). -/
def State.ownPrint (s : State) : List Byte :=
  match (s.slot s.pck.slot.toNat).current with
  | some l => s.fingerprint l
  | none => []

/-- This member computes the offsets of a link: its parent's, and off-tree ones to lower-numbered members (R525). -/
def Pck.childEnd (p : Pck) (port : Nat) : Bool :=
  match p.neighbour p.me port with
  | some n => p.parentPort p.me == some port || (!p.isChild p.me port && decide (n < p.me))
  | none => false

/-- Every formation round this member computes has been made. -/
def State.roundsMade (s : State) : Bool :=
  s.pck.cabledPorts.all fun q => !s.pck.childEnd q || (s.link q).formRtt.isSome

/-- Own fingerprint and the children's reports combined: the largest delay, and the lowest differing member. -/
def State.combineReports (s : State) : Nat × Option Nat :=
  s.pck.childPorts.foldl (fun a q => match (s.link q).report with
    | some r => (max a.1 r.delay, optMin a.2 (optMin r.differs (if r.print = s.ownPrint then none else s.pck.neighbour s.pck.me q)))
    | none => a) (0, none)

/-- The master's decision, and a member's report once its subtree has reported (Table 15.5, steps 6 and 7). -/
def State.reportStep (s : State) : State :=
  if s.pck.state ≠ .forming || s.pck.reported || !s.pck.ready || !s.roundsMade ||
      !(s.pck.childPorts.all fun q => (s.link q).report.isSome) then s
  else
    let r := s.combineReports
    let s := { s with pck := { s.pck with reported := true } }
    if s.pck.isMaster then
      match r.2 with
      | some m => (s.toChildren (.refused m)).packFailed 3 m 0
      | none =>
        let lead := (r.1 + 2 ^ 17 - 1) / 2 ^ 17 + 2000
        State.toChildren { s with pck := { s.pck with state := .formed, lead := BitVec.ofNat 24 lead, formedAt := s.epoch } }
          (.formed lead s.epoch)
    else
      let hop : Int := match s.pck.parentPort s.pck.me with
        | some q => ((s.link q).formRtt.getD 0) + 500 * 2 ^ 17
        | none => 0
      s.toParent (.fingerprint s.ownPrint (r.1 + hop.toNat) r.2)

/-- FINGERPRINT_RECEIVE (R532): a child's report; `delay` is in units of 2^−17 ns. -/
def execFingerprintReceive (port : Nat) (print : List Byte) (delay : Nat) (differs : Option Nat) (s : State) :
    Host.Outcome State Fault Refusal :=
  if !s.alive || s.pck.state ≠ .forming || !s.pck.childPorts.contains port then .next s
  else .next (s.modLink port fun x => { x with report := some { print := print, delay := delay, differs := differs } }).reportStep

/-- A message from the parent while forming. -/
def State.formingFrom (s : State) (port : Nat) : Bool :=
  s.alive && s.pck.state == .forming && s.pck.parentPort s.pck.me == some port

/-- FORMED_RECEIVE (R532): forwarded down the tree. -/
def execFormedReceive (port : Nat) (lead : Nat) (epoch : DWord) (s : State) : Host.Outcome State Fault Refusal :=
  if !s.formingFrom port then .next s
  else .next (State.toChildren
    { s with pck := { s.pck with state := .formed, lead := BitVec.ofNat 24 lead, formedAt := epoch } } (.formed lead epoch))

/-- REFUSED_RECEIVE (R532): forwarded down the tree; FAILED with E-PCK-03. -/
def execRefusedReceive (port member : Nat) (s : State) : Host.Outcome State Fault Refusal :=
  if !s.formingFrom port then .next s else .next ((s.toChildren (.refused member)).packFailed 3 member 0)

/-- FORM_TIMEOUT_EXPIRY (R532): E-PCK-04. -/
def execFormTimeoutExpiry (s : State) : Host.Outcome State Fault Refusal :=
  .next (if s.alive && s.pck.state == .forming then s.packFailed 4 s.pck.me 0 else s)

/-! ### Baseline calibration (R524 to R528) -/

def Round.start (formation : Bool) : Round :=
  { formation := formation, sent := 0, done := 0, sumOff := 0, sumRtt := 0, t1 := [], t23 := [] }

/-- The link's parent end: a child's link, or an off-tree link to a higher-numbered member (R525). -/
def State.parentEnd (s : State) (port : Nat) : Bool :=
  s.pck.cabledPorts.contains port && !s.pck.childEnd port && (s.link port).link && (s.link port).greeted

/-- CALIBRATION_ROUND_START (R525): at the parent end, once it is ready itself. -/
def execCalibrationRoundStart (port : Nat) (s : State) : Host.Outcome State Fault Refusal :=
  .next (if s.alive && s.pck.busy && s.parentEnd port && s.pck.ready && (s.link port).round.isNone then
    s.modLink port fun x => { x with round := some (Round.start (s.pck.state == .forming)) } else s)

/-- An epoch timestamp: 64 bits, in units of 2^−16 ns (R524). -/
def State.stamp (s : State) : Nat := s.epoch16 % 2 ^ 64

/-- PROBE_SEND (R524). -/
def execProbeSend (port : Nat) (s : State) : Host.Outcome State Fault Refusal :=
  match (s.link port).round with
  | none => .next s
  | some r =>
    if !s.alive || !s.parentEnd port || 64 ≤ r.sent then .next s
    else
      let s := s.modLink port fun x => { x with round := some { r with sent := r.sent + 1, t1 := Tab.put r.t1 r.sent s.stamp } }
      .next (s.sendControl port (.probe r.sent))

/-- PROBE_RECEIVE (R524): t2 now, t3 after the turnaround in units of 2^−16 ns; the first probe of a round begins it. -/
def execProbeReceive (port seq turnaround : Nat) (s : State) : Host.Outcome State Fault Refusal :=
  if !s.alive || !s.pck.busy || !s.pck.childEnd port || !(s.link port).link || 64 ≤ seq then .next s
  else
    let r := if seq = 0 then Round.start (s.pck.state == .forming) else ((s.link port).round).getD (Round.start (s.pck.state == .forming))
    let t2 := s.stamp
    let s := s.modLink port fun x => { x with
      round := some { r with t23 := Tab.put r.t23 seq (t2, (t2 + turnaround) % 2 ^ 64) } }
    .next (s.sendControl port (.probeReply seq))

/-- PROBE_REPLY_RECEIVE (R524): t4 now. -/
def execProbeReplyReceive (port seq : Nat) (s : State) : Host.Outcome State Fault Refusal :=
  match (s.link port).round with
  | none => .next s
  | some r =>
    match Tab.find? r.t1 seq with
    | none => .next s
    | some t1 =>
      if !s.alive || !s.parentEnd port then .next s
      else
        let r : Round := { r with done := r.done + 1, t1 := Tab.erase r.t1 seq }
        let s := s.modLink port fun x => { x with round := if r.done = 64 then none else some r }
        .next (s.sendControl port (.probeTimes seq t1 s.stamp))

/-- The parent end's declared asymmetry in units of 2^−16 ns, from this port's own declaration in ps (R524, R526). -/
def State.parentAsym (s : State) (port : Nat) : Int := -(s.link port).asym.toInt * 65536 / 1000

/-- One exchange: the child's offset and the round trip (R524). -/
def exchange (t1 t2 t3 t4 : Nat) (asym : Int) : Int × Int :=
  let fwd := toSigned 64 ((t2 + 2 ^ 64 - t1) % 2 ^ 64)
  let rev := toSigned 64 ((t4 + 2 ^ 64 - t3) % 2 ^ 64)
  ((fwd - rev - asym) / 2, fwd + rev)

/-- A count added to the epoch clock at once. -/
def State.stepEpoch (s : State) (d : Int) : State :=
  { s with pck := { s.pck with epoch := { s.pck.epoch with count := s.pck.epoch.count + BitVec.ofInt 80 d } } }
/-- A phase slewed in, below 1 ppm (R521). -/
def State.slewEpoch (s : State) (d : Int) : State := { s with pck := { s.pck with epoch := { s.pck.epoch with slew := d } } }

/-- PCK_PORT_OFFSET of a round's offset; one outside the field has no stated value. -/
def State.offsetField (s : State) (off : Int) : BitVec 32 :=
  if -(2 ^ 31) ≤ off ∧ off < 2 ^ 31 then BitVec.ofInt 32 off else BitVec.ofNat 32 (Config.freeNat s.freeCount)

/-- A round is done at the child end (R525, R528). -/
def State.roundDone (s : State) (port : Nat) (formation : Bool) (off rtt : Int) : State :=
  let tree : Bool := s.pck.parentPort s.pck.me == some port
  let x := s.link port
  let bad : Bool := !formation && decide ((if tree then 32768 else 98304) < off.natAbs)
  let rttBad : Bool := match x.formRtt with
    | some f => !formation && decide (131072 < (rtt - f).natAbs)
    | none => false
  let s := s.setLink port { x with
    round := none, offset := s.offsetField off, rtt := BitVec.ofInt 64 rtt
    formRtt := if formation then some rtt else x.formRtt, offFault := bad, rttFault := x.rttFault || rttBad }
  let s := s.takeFree
  if formation then
    let s := if tree then (State.toChildren { (s.stepEpoch (-off)) with
      pck := { (s.stepEpoch (-off)).pck with ready := true } } .ready) else s
    s.reportStep
  else
    let s := if !bad ∧ s.pck.epoch.syntLock then { s with pck := { s.pck with syntFault := false } } else s
    if tree ∧ !bad then s.slewEpoch (-off) else s

/-- PROBE_TIMESTAMPS_RECEIVE (R524): one exchange; after 64 the round is done. -/
def execProbeTimestampsReceive (port seq t1 t4 : Nat) (s : State) : Host.Outcome State Fault Refusal :=
  match (s.link port).round with
  | none => .next s
  | some r =>
    match Tab.find? r.t23 seq with
    | none => .next s
    | some t =>
      if !s.alive || !s.pck.busy || !s.pck.childEnd port then .next s
      else
        let e := exchange (t1 % 2 ^ 64) t.1 t.2 (t4 % 2 ^ 64) (s.parentAsym port)
        let r : Round := { r with
          done := r.done + 1, sumOff := r.sumOff + e.1, sumRtt := r.sumRtt + e.2, t23 := Tab.erase r.t23 seq }
        if r.done = 64 then .next (s.roundDone port r.formation (r.sumOff / 64) (r.sumRtt / 64))
        else .next (s.modLink port fun x => { x with round := some r })

/-! ### Rates and external sources (R520, R521) -/

/-- RATE_ANNOUNCE_RECEIVE (R521): forwarded down the tree. -/
def execRateAnnounceReceive (port : Nat) (ppb : Int) (effective : DWord) (s : State) : Host.Outcome State Fault Refusal :=
  if !s.alive || !s.pck.followsParent || s.pck.parentPort s.pck.me ≠ some port then .next s
  else .next (State.toChildren
    { s with pck := { s.pck with epoch := { s.pck.epoch with pendingRate := some (ppb, effective) } } } (.rate ppb effective))

/-- RATE_CHANGE_APPLY (R521): at the announced epoch time. -/
def execRateChangeApply (s : State) : Host.Outcome State Fault Refusal :=
  match s.pck.epoch.pendingRate with
  | none => .next s
  | some (ppb, t) => .next (if s.alive && decide (t.toNat ≤ s.epoch.toNat) then
      { s with pck := { s.pck with epoch := { s.pck.epoch with ratePpb := ppb, pendingRate := none } } } else s)

/-- BAR0 offset of PCK_EPOCH_CFG. -/
def epochCfgOff : Nat := 0x1400040

/-- A locked write to a PCK_ field (E-PCK-15). -/
def State.pckLocked (s : State) (fn off value : Nat) : State :=
  State.lockedRecord { s with pck := { s.pck with fieldLocked := true, code := 15 } } .pck 15 fn off value

/-- The epoch clock is loaded (R521). -/
def State.loadEpoch (s : State) : State :=
  { s with pck := { s.pck with epoch := { s.pck.epoch with
      count := BitVec.ofNat 80 (s.pck.epochSet.toNat * 65536), loadPending := false, slew := 0 } } }

/-- The external source disciplines the clock. -/
def Pck.external (p : Pck) : Bool := p.srcExternal && !p.followsParent

/-- EPOCH_LOAD_REQUEST (R521, Table 15.9): ignored with E-PCK-15 while FORMING or FORMED. -/
def execEpochLoadRequest (fn : Nat) (s : State) : Host.Outcome State Fault Refusal :=
  if !s.hostReach fn || fn != 0 then .next s
  else if s.pck.busy then .next (s.pckLocked fn epochCfgOff (2 + bitAt 0 s.pck.srcExternal))
  else if s.pck.srcExternal && s.pck.epoch.ext == .locked then
    .next { s with pck := { s.pck with epoch := { s.pck.epoch with loadPending := true } } }
  else .next s.loadEpoch

/-- The epoch's distance from the nearest whole second, in counts of 2^−16 ns, positive after it. -/
def State.secondOffset (s : State) : Int :=
  let sec := 1000000000 * 65536
  let r := s.epoch16 % sec
  if 2 * r ≤ sec then (r : Int) else (r : Int) - (sec : Int)

/-- EXT_OFFSET of a distance: whole nanoseconds, i16, saturating. -/
def extOffsetOf (d : Int) : BitVec 16 := BitVec.ofInt 16 (max (-32768) (min 32767 (d / 65536)))

/-- What an edge of an external source does to a clock that it disciplines: it steps at the first lock, except in the
master of a Pack, and slews otherwise; the master announces a rate change instead. -/
def State.discipline (s : State) (d : Int) : State :=
  let e := s.pck.epoch
  let near : Bool := decide (d.natAbs ≤ 655360) && s.pins.epoch10m
  let run := if near then e.ppsRun + 1 else 0
  let locks : Bool := decide (10 ≤ run)
  let ext : ExtState := if locks then .locked else if e.ext = .locked then .locked else .locking
  let first := locks && !e.everLocked
  let s := { s with pck := { s.pck with epoch := { e with ppsRun := run, ext := ext, everLocked := e.everLocked || locks } } }
  if s.pck.busy then
    if d = 0 then s
    else
      let ppb : Int := (Config.freeNat s.freeCount % 2001 : Nat) - 1000
      let t := s.epoch + 1000000
      State.toChildren { s.takeFree with pck := { s.pck with epoch := { s.pck.epoch with pendingRate := some (ppb, t) } } } (.rate ppb t)
  else if first then s.stepEpoch (-d)
  else s.slewEpoch (-d)

/-- EPOCH_PPS_EDGE (R520): a pending load takes effect; a clock that the source disciplines follows it; EXT_OFFSET is
reported in every case. -/
def execEpochPpsEdge (s : State) : Host.Outcome State Fault Refusal :=
  let s := { s with pins := { s.pins with lastPps := some s.now } }
  if !s.alive then .next s
  else
    let d := s.secondOffset
    let s := { s with pck := { s.pck with epoch := { s.pck.epoch with extOffset := extOffsetOf d } } }
    if !s.pck.external then .next s
    else if s.pck.epoch.loadPending && s.pck.epoch.ext == .locked && !s.pck.busy then .next s.loadEpoch
    else .next (s.discipline d)

/-- EXTERNAL_SOURCE_TIMEOUT (R520): HOLDOVER with E-PCK-12. -/
def execExternalSourceTimeout (s : State) : Host.Outcome State Fault Refusal :=
  if !s.alive || !s.pck.external || s.pck.epoch.ext == .holdover then .next s
  else .next (State.pckReport { s with pck := { s.pck with epoch := { s.pck.epoch with ext := .holdover, ppsRun := 0 } } }
    12 .none none none)

/-! ### Flits and retraining (R511, R512, R547, R548) -/

/-- FLIT_RECEIVE (R511, R513): acknowledged in order, or a replay is requested. What the flit carries arrives by commands
of its own, but for the hop credits that a flit taken in order returns. -/
def execFlitReceive (port seq : Nat) (_payload : List Byte) (crcOk : Bool) (s : State) : Host.Outcome State Fault Refusal :=
  let x := s.link port
  if !s.alive || !x.link || x.retraining then .next s
  else if crcOk ∧ seq = x.rxSeq then
    .next (State.returnCredits ((s.setLink port { x with rxSeq := x.rxSeq + 1 }).emit (.linkAck port seq)) port)
  else .next (s.emit (.linkReplayRequest port x.rxSeq))

/-- REPLAY_REQUEST_RECEIVE (R511, R512): the 16th consecutive replay of one flit starts a retrain. -/
def execReplayRequestReceive (port seq : Nat) (s : State) : Host.Outcome State Fault Refusal :=
  let x := s.link port
  if !s.alive || !x.link || x.retraining then .next s
  else
    let run := if x.replayRun ≠ 0 ∧ x.replayOf = seq then x.replayRun + 1 else 1
    let s := s.setLink port { x with
      replays := satInc x.replays, replayOf := seq, replayRun := run, retraining := decide (16 ≤ run) }
    .next (s.emit (.linkReplay port seq))

/-- FEC_LOCK_LOSS_TIMEOUT (R512). -/
def execFecLockLossTimeout (port : Nat) (s : State) : Host.Outcome State Fault Refusal :=
  .next (if s.alive && (s.link port).link then s.modLink port fun x => { x with retraining := true } else s)

/-- RETRAIN_DONE (R512): E-PCK-13, and the messages that waited go on; or the link goes down. -/
def execRetrainDone (port : Nat) (ok : Bool) (s : State) : Host.Outcome State Fault Refusal :=
  let x := s.link port
  if !s.alive || !x.link || !x.retraining then .next s
  else if ok then
    .next (State.drainLink ((s.setLink port { x with retraining := false, replayRun := 0, retrains := satInc x.retrains }).pckReport 13
      (.traverse port) none none) port)
  else .next (s.linkFell port)

/-- TRAVERSE_LINK_DOWN (R547); a port number from 8 on stands for a link of other members. -/
def execTraverseLinkDown (port : Nat) (s : State) : Host.Outcome State Fault Refusal :=
  if !s.alive then .next s
  else if 8 ≤ port then .next (if s.pck.busy then { s with pck := { s.pck with state := .failed, lead := 0 } } else s)
  else .next (if (s.link port).link then s.linkFell port else s)

/-- PORT_STATE_FATAL (R548): E-PCK-16, then the link goes down as with E-PCK-08. -/
def execPortStateFatal (port : Nat) (s : State) : Host.Outcome State Fault Refusal :=
  .next (if s.alive && decide (port < 8) && (s.link port).link then (s.pckReport 16 (.traverse port) none none).linkFell port else s)

end Sys2Proof.Machine
end

