-- ==== Sys2Proof/Machine/Resets.lean ====
section
/-!
DEFINITION. Machine/Resets.lean: what the cold and the warm reset end and keep (Table 17.8), the start of BOOT (Table 18.2),
and the way to OFF and WAKE (R586 to R589, R601).
-/
namespace Sys2Proof.Machine

def FenceCause.ofCode : Nat → FenceCause
  | 1 => .uncorrectable | 2 => .selfTest | 3 => .watchdog | _ => .driver

/-- Every core at reset, with the recorded fences re-applied (R311). -/
def State.fencedCores (s : State) : Tab Core :=
  Tab.mapVal (fun _ (c : Core) => c) (s.fb.work.fences.map fun p => (p.1, { fence := some (FenceCause.ofCode p.2) }))

/-- The Cadastre as BOOT begins: all-deny and unlocked, its window open for 30 s (Table 18.2, step 1; R615, R639). Flash,
the firmware banks, and the counts of denials and violations stay. -/
def Cad.opened (c : Cad) (tests : List UnitRef) (zeroFill : Bool) : Cad :=
  { bankA := c.bankA, bankB := c.bankB, preferB := c.preferB
    owner := c.owner, ownerShown := c.owner, slot0 := c.slot0, slot1 := c.slot1, current1 := c.current1, staged := c.staged
    denyCount := c.denyCount, violCount := c.violCount, lastPage := c.lastPage, lastClass := c.lastClass
    lastWrite := c.lastWrite
    windowOpen := true, coldBoot := zeroFill, selfTests := tests, zeroFill := zeroFill }

/-- BOOT begins: the Cadastre opens and the self-tests of the enabled, unfenced cores and of the engines are due. -/
def State.beginBoot (s : State) (cold : Bool) : State :=
  let tests := selfTestsOf ((List.range 144).filter fun g => s.enabled g && !s.fenced g)
  State.toState { s with cad := s.cad.opened tests cold } .boot

/-! ### Cold reset (Table 17.8) -/

/-- Every volatile state ends. Flash, the Field book and its fences, the record store, the restart records, the fuses, the
pins and the sequencer's own state stay; the trip latch stays unless PWR_EN has fallen. -/
def State.coldReset (s : State) : State :=
  let w := s.fb.work
  let t : State := {
    pending := s.pending, now := s.now, freeCount := s.freeCount, out := s.out, fuses := s.fuses, pins := s.pins
    fb := { s.fb with work := { w with counts := w.counts.set 0 (w.counts.getD 0 0 + 1) }, queue := [] }
    sup := { mstate := s.sup.mstate, standby := s.sup.standby, tripLatch := s.sup.tripLatch, holdCause := s.sup.holdCause
             bootFailAt := s.sup.bootFailAt, shutCount := s.sup.shutCount, rr := s.sup.rr, slotSample := s.sup.slotSample
             unstrapped := false, slotChanged := s.sup.slotChanged, vinReported := s.sup.vinReported }
    cad := { bankA := s.cad.bankA, bankB := s.cad.bankB, preferB := s.cad.preferB, owner := s.cad.owner
             slot0 := s.cad.slot0, slot1 := s.cad.slot1, current1 := s.cad.current1, staged := s.cad.staged
             windowOpen := false, coldBoot := false, selfTests := [], zeroFill := false }
    thm := { lifeEnd := s.thm.lifeEnd, channels := s.thm.channels } }
  { t with
    hrd := { t.hrd with cores := State.fencedCores t }
    sys := { numsigPrev := t.numsig } }

/-! ### OFF and WAKE -/

/-- The standby supply is lost: the module is OFF, every output is released and the trip latch clears (R567, R583). The
causes HOLD and POWER_FAIL end (Table 20.5). -/
def State.goOff (s : State) : State :=
  let t := (s.dropAlert (2 ^ 0 + 2 ^ 1)).loseRails
  State.smbusSettled { t with sup := { t.sup with
      mstate := .off, standby := false, hotSwap := false, tripLatch := false, holdCause := 0, service := false
      heldInReset := false, noCancel := false, tap := .bypass, slotChanged := false, profileBusy := false } } s

/-- Entry to WAKE: a cold reset, and the first attempt's step 0 (R588, R589, R604). -/
def State.wake (s : State) : State :=
  let s := State.toState s.coldReset .wake
  { s with sup := { s.sup with hotSwap := false, wakeStep := 0, attempts := 1, failedStep := 0, attemptCause := 0
                               retryWait := false, wakeStart := s.now } }

/-- From OFF the module wakes once PWR_EN is high and the input is good, sampling SLOT_ID (R557, R586, R587). -/
def State.tryWake (s : State) : State :=
  if s.sup.mstate = .off ∧ s.pins.pwrEn ∧ s.pins.inputGood then
    State.wake { s with sup := { s.sup with slotSample := s.pins.slotId } }
  else s

/-! ### Warm reset (R604, R605) -/

/-- Every mailbox command under way ends with a result (Table 20.9, R696). -/
def Mailbox.endWith (m : Mailbox) (result : BitVec 4) : Mailbox :=
  if m.busy then { m with busy := false, done := true, result := result, todo := none } else m

/-- What a warm reset keeps of a function: HST_ACC_ERR (Table 14.9), and the end of a mailbox command (R696). -/
def Fn.warmMailbox (g : Fn) : Fn :=
  let m := g.mailbox.endWith 3
  { g.warm with mailbox := { done := g.mailbox.busy, result := if g.mailbox.busy then m.result else 0 } }

/-- The Handler's state cleared: its counts of resets, watchdog resets and packet errors stay (Table 20.15). -/
def Hnd.cleared (h : Hnd) : Hnd :=
  { watchdogs := h.watchdogs, resets := h.resets, pktErrors := h.pktErrors, nextEvent := h.nextEvent }

def Quarter.warm (q : Quarter) : Quarter := { parityErrs := q.parityErrs, auditErrs := q.auditErrs }
def EcEngine.warm (e : EcEngine) : EcEngine :=
  { symbols := e.symbols, tiles := e.tiles, escTiles := e.escTiles, fallbackTiles := e.fallbackTiles, nextSerial := e.nextSerial }
def DceEngine.warm (e : DceEngine) : DceEngine := { bytesIn := e.bytesIn, bytesOut := e.bytesOut }
def PckPort.warm (x : PckPort) : PckPort := { replays := x.replays, retrains := x.retrains }

/-- Memory after a warm reset: contents and poison marks stay, every cache is empty and every tally reads 0 (R255, R284). -/
def Mem.warm (m : Mem) : Mem :=
  { bytes := m.bytes, poison := m.poison, tile := m.tile, zeroFillDone := true, ceStack := m.ceStack
    ceDatum := m.ceDatum, ueAddr := m.ueAddr, ueSource := m.ueSource, ueQuarter := m.ueQuarter, ueCount := m.ueCount }

/-- The Pack after a warm reset: IDLE, its bindings cleared; its epoch clock keeps counting, in free run (R549). -/
def Pck.warm (p : Pck) : Pck :=
  { epoch := { count := p.epoch.count, rem := p.epoch.rem, everLocked := p.epoch.everLocked }
    aborts := p.aborts, linkDowns := p.linkDowns, ports := Tab.mapVal (fun _ x => x.warm) p.ports }

/-- The thermal system after a warm reset: throttles, limit, biases and floors at reset; its counts, its sensor failures
and the wear ledger stay (R665). -/
def Thm.warm (t : Thm) : Thm :=
  { sensorFail := t.sensorFail, failReported := t.failReported, lifeEnd := t.lifeEnd, channels := t.channels
    hourSum := t.hourSum, hourN := t.hourN, throttles := t.throttles, breaches := t.breaches
    fallbacks := t.fallbacks }

/-- What the sequencer keeps over a warm reset: the rails, the profile, the trip and SERVICE_N latches, the restart
records, and the fields with reset "keep" (Tables 17.8, 17.12). -/
def Sup.warm (u : Sup) : Sup :=
  { u with powerW := 0, profileBusy := false, profileTarget := u.profile, profileCode := 0, profileBlock := 0
           limiter := 64, capActive := false, fieldLocked := false, dipCancelled := false, readbackFault := false
           slotChanged := u.slotChanged }

/-- The effects of a warm reset on every block (Table 17.8). A change of profile under way ends with the profile in force. -/
def State.warmEffects (s : State) : State :=
  let s := s.leavePack
  let w := s.fb.work
  let s := s.dropAlert (2 ^ 5)
  { s with
    fb := { s.fb with work := { w with counts := w.counts.set 1 (w.counts.getD 1 0 + 1) } }
    sup := s.sup.warm
    hnd := s.hnd.cleared
    mem := s.mem.warm
    fab := { quarters := Tab.mapVal (fun _ q => q.warm) s.fab.quarters }
    svy := { nextGen := s.svy.nextGen, migrated := s.svy.migrated, routeFaults := s.svy.routeFaults }
    hrd := { cores := s.fencedCores, service := s.hrd.service, lateCount := s.hrd.lateCount
             restartCount := s.hrd.restartCount, lostCount := s.hrd.lostCount }
    rtv := { chans := Tab.mapVal (fun n c => { Chan.initial n with failed := c.failed }) s.rtv.chans }
    sys := { numsigPrev := s.numsig }
    ec := { engines := Tab.mapVal (fun _ e => e.warm) s.ec.engines, checkFails := s.ec.checkFails
            malformedCount := s.ec.malformedCount }
    dce := { engines := Tab.mapVal (fun _ e => e.warm) s.dce.engines, checkFails := s.dce.checkFails
             engineFatal := s.dce.engineFatal }
    ing := { ports := Tab.mapVal (fun p x => { s.portInit p with filtered := x.filtered, excDrops := x.excDrops }) s.ing.ports }
    hst := {}
    pck := s.pck.warm
    thm := s.thm.warm
    fns := Tab.mapVal (fun _ g => g.warmMailbox) s.fns }

/-- A warm reset, where the module takes one: BOOT begins again, at once or at the rise of RESET_N (R605). Until then the
status responder answers SMBus (R581), so that the lines are released where the agent changes (R561). -/
def State.warmReset (s : State) (byHost : Bool) : State :=
  match s.sup.mstate with
  | .boot | .ready | .run =>
    let t := s.warmEffects.beginBoot false
    let t := t.emitIf (s.smbusAgent != .responder || byHost) .smbusRelease
    { t with sup := { t.sup with lastReset := if byHost then 2 else 1, heldInReset := !byHost } }
  | _ => s

/-- WARM_RESET_REQUEST (R605, Table 14.9): only the physical function's request counts. -/
def execWarmResetRequest (fn : Nat) (s : State) : Host.Outcome State Fault Refusal :=
  .next (if s.hostReach fn && fn == 0 then s.warmReset true else s)

/-- RESET_N_ASSERT (R605): RESET_N has been low for 1 µs. -/
def execResetNAssert (s : State) : Host.Outcome State Fault Refusal :=
  let t := { s with pins := { s.pins with resetN := false } }
  .next (if s.pins.resetN then t.warmReset false else s)

/-- RESET_N_RELEASE (R605): BOOT begins at the rising edge; the window's timer starts there (Table 18.2). -/
def execResetNRelease (s : State) : Host.Outcome State Fault Refusal :=
  let t := { s with pins := { s.pins with resetN := true } }
  .next (if s.sup.heldInReset && s.sup.mstate == .boot then
    State.smbusSettled { t with sup := { t.sup with heldInReset := false } } t else t)

end Sys2Proof.Machine
end

