-- ==== Sys2Proof/Machine/Boot.lean ====
section
/-!
DEFINITION. Machine/Boot.lean: the boot chain, the policy and the Cadastre's write port, and the PLDM updates of firmware
and policy (chapter 18), with the quarter fatal error (R668).
-/
namespace Sys2Proof.Machine

/-! ### Firmware (R610, R611) -/

/-- A bank passes the boot ROM's checks (R610). -/
def FwImage.passes (i : FwImage) (floor : Nat) : Bool :=
  i.magic == 0x57464850 && i.major == 2 && i.sigOk && decide (floor ≤ i.sv ∧ i.sv ≤ 64)

/-- The bank that the boot ROM runs, and whether it has fallen back (R611). -/
def State.chooseBank (s : State) : Option (Bool × Bool) :=
  let floor := s.fuses.svFloor.toNat
  let pref := if s.cad.preferB then s.cad.bankB else s.cad.bankA
  let other := if s.cad.preferB then s.cad.bankA else s.cad.bankB
  if pref.passes floor then some (s.cad.preferB, false)
  else if other.passes floor then some (!s.cad.preferB, true)
  else none

/-- The boot ROM runs a bank; E-CAD-07 where it has fallen back. -/
def State.runBank (s : State) (bank fallback : Bool) : State :=
  let s := { s with cad := { s.cad with fwBank := bank, fwFallback := fallback, fwOk := true } }
  if fallback then s.report { blk := .cad, nn := 7 } else s

/-! ### Policies (R625 to R629) -/

/-- A policy's fields as CAD entries, keys and Pack IDs (Tables 18.3, 18.5, 18.6). -/
def readEntry (b : List Byte) : CadEntry :=
  { base := BitVec.ofNat 32 (leAt b 0 4), pages := BitVec.ofNat 32 (leAt b 4 4), hostR := BitVec.ofNat 16 (leAt b 8 2)
    hostW := BitVec.ofNat 16 (leAt b 10 2), ctxR := BitVec.ofNat 16 (leAt b 12 2), ctxW := BitVec.ofNat 16 (leAt b 14 2)
    sysR := BitVec.ofNat 8 (leAt b 16 1), sysW := BitVec.ofNat 8 (leAt b 17 1) }

def readKey (b : List Byte) : SurveyKey :=
  { key := slice b 0 97, id := hashId (slice b 0 97), mask := BitVec.ofNat 16 (leAt b 0x62 2) }

/-- Every byte is zero. -/
def allZero (b : List Byte) : Bool := b.all fun x => x == 0

/-- An entry meets R620 and Table 18.3: its range in device memory or in the tile windows, its reserved bits zero. -/
def entryOk (b : List Byte) : Bool :=
  let base := leAt b 0 4
  let pages := leAt b 4 4
  (pages == 0 || decide (base + pages ≤ 0x17E0000) || decide (0x10000000 ≤ base ∧ base + pages ≤ 0x10012000)) &&
    decide (leAt b 16 1 < 32) && decide (leAt b 17 1 < 32) && allZero (slice b 18 14)

/-- No value occurs twice. -/
def distinct {α : Type} [BEq α] : List α → Bool
  | [] => true
  | x :: r => !r.contains x && distinct r

/-- A key record holds a point of the curve, a mask that is not 0, and zeros in its reserved bytes (Table 18.6). -/
def keyOk (b : List Byte) : Bool :=
  (p384Key (slice b 0 97)).isSome && leAt b 0x61 1 == 0 && leAt b 0x62 2 != 0 && allZero (slice b 0x64 12)

/-- The policy that 17,616 bytes spell, with its validity but for the owner and BIND conditions (R626). -/
def readPolicy (b : List Byte) : Policy :=
  let n := leAt b 6 2
  let k := leAt b 0x38 1
  let flags := leAt b 0xC 4
  let entry (i : Nat) : List Byte := slice b (0x400 + 32 * i) 32
  let key (i : Nat) : List Byte := slice b (0x40 + 112 * i) 112
  let keys := (List.range (min k 8)).map fun i => readKey (key i)
  let packIds := (List.range 4).map fun i => BitVec.ofNat 64 (leAt b (0x18 + 8 * i) 8)
  let signer := slice b 0x4400 97
  let signed := b.take 0x4470
  let ok := b.length == 17616 && leAt b 0 4 == 0x44414350 && leAt b 4 2 == 1 && decide (n ≤ 512) && decide (flags < 8) &&
    (flags.testBit 2 || leAt b 0x10 8 == 0) && decide (k ≤ 8) && allZero (slice b 0x39 7) && allZero (slice b 0x3F0 16) &&
    allZero (slice b 0x4461 15) && distinct (packIds.filter fun p => p != 0) &&
    (List.range n).all (fun i => entryOk (entry i)) && allZero (slice b (0x400 + 32 * n) (32 * (512 - n))) &&
    (List.range k).all (fun i => keyOk (key i)) && allZero (slice b (0x40 + 112 * k) (112 * (8 - k))) &&
    distinct (keys.map fun x => x.id) &&
    ecdsaVerify signer (sha384 signed) (slice b 0x4470 48) (slice b 0x44A0 48)
  { seq := BitVec.ofNat 32 (leAt b 8 4), allowUnsigned := flags.testBit 0, diag := flags.testBit 1, bind := flags.testBit 2
    moduleId := BitVec.ofNat 64 (leAt b 0x10 8), packIds := packIds, keys := keys
    nextOwner := if allZero (slice b 0x3C0 48) then [] else slice b 0x3C0 48
    entries := (List.range (min n 512)).map fun i => readEntry (entry i)
    signerHash := sha384 signer, id := hashId signed, wellFormed := ok }

/-- R626 without the owner condition. -/
def State.policyValid (s : State) (p : Policy) : Bool := p.wellFormed && (!p.bind || p.moduleId == s.fuses.moduleId)

/-- The owner condition of R626. -/
def State.ownerAdmits (s : State) (p : Policy) : Bool := s.cad.owner.isEmpty || p.signerHash == s.cad.owner

/-- The active policy, in its current slot. -/
def Cad.active (c : Cad) : Option Policy := if c.current1 then c.slot1 else c.slot0

/-- POLICY_SEQ of a stored policy is below a value. -/
def seqBelow (p : Option Policy) (n : BitVec 32) : Bool := p.all fun q => decide (q.seq.toNat < n.toNat)

/-- Boot code writes a policy into the Cadastre and sets CAD_LOCK; SOURCE tells which it was (R629, Table 18.10). -/
def State.enforce (s : State) (p : Policy) (source : BitVec 2) : State :=
  let s := { s with
    cad := { s.cad with
      windowOpen := false, locked := true, entries := p.entries, keys := p.keys, packIds := p.packIds, seq := p.seq
      policyId := p.id, allowUnsigned := p.allowUnsigned, diag := p.diag, source := source, ownerShown := s.cad.owner }
    fb := { s.fb with diag := p.diag } }
  if p.entries.isEmpty then s else s.dropAlert (2 ^ 4)

/-- No policy passes: nothing is written, CAD_LOCK is set, and E-CAD-02 is reported (R629, item 3). -/
def State.enforceNone (s : State) : State :=
  State.report { s with
    cad := { s.cad with
      windowOpen := false, locked := true, entries := [], keys := [], packIds := [], seq := 0, policyId := 0
      allowUnsigned := false, diag := false, source := 0, ownerShown := s.cad.owner }
    fb := { s.fb with diag := false } } { blk := .cad, nn := 2 }

/-- The active policy is applied where it passes (R629, items 2 and 3). -/
def State.applyActive (s : State) : State :=
  match s.cad.active with
  | some p => if s.policyValid p then s.enforce p 1 else s.enforceNone
  | none => s.enforceNone

/-- The owner after a staged policy is applied (R627). -/
def ownerAfter (owner : List Byte) (p : Policy) : List Byte :=
  if !p.nextOwner.isEmpty then p.nextOwner else if owner.isEmpty then p.signerHash else owner

/-- Boot code selects and applies the policy (R629). -/
def State.applyPolicy (s : State) : State :=
  match s.cad.staged with
  | none => s.applyActive
  | some p =>
    let s0 := { s with cad := { s.cad with staged := none } }
    if s.policyValid p && s.ownerAdmits p && seqBelow s.cad.active p.seq then
      let c := s0.cad
      let c := if c.current1 then { c with slot0 := some p, current1 := false } else { c with slot1 := some p, current1 := true }
      State.enforce { s0 with cad := { c with owner := ownerAfter c.owner p } } p 2
    else (s0.report { blk := .cad, nn := 6 }).applyActive

/-! ### BOOT (Table 18.2) -/

/-- HND_FW_VERSION (Table 20.15). -/
def State.fwVersion (s : State) : Nat :=
  s.firmware.minor.toNat + s.firmware.major.toNat * 2 ^ 8 + s.firmware.sv % 128 * 2 ^ 16 + bitAt 23 s.cad.fwBank

/-- Fallback episodes are counted when the forecaster resumes (R651). -/
def Thm.resume (t : Thm) : Thm :=
  { t with forecaster := true, fallbacks := satAdd t.fallbacks t.fallbackEpisode.length, fallbackEpisode := [] }

/-- Replace causes that still hold assert SERVICE_N again in BOOT (R570, R680). -/
def State.replaceAgain (s : State) : State :=
  let r := s.fb.work.replace
  if r = 0 then s
  else State.raiseAlert { s with sup := { s.sup with service := true }, erl := { s.erl with replace := r } } (2 ^ 10)

/-- The Handler starts in BOOT: it reads the Field book, appends the power-on record after a cold reset, moves the pending
area, applies the policy while the window is open, and starts the forecaster (R629, R643, R680, R686 to R688). -/
def State.bootCode (s : State) : State :=
  let powerOn : Ev := { blk := .erl, nn := 2
                        detail := [s.sup.slotSample.toNat, s.fwVersion, s.fuses.stepping, s.fuses.grade] }
  let s := s.readFieldBook
  let s := { s with hnd := { s.hnd with running := true } }
  let s := if s.cad.coldBoot then s.report powerOn else s
  let s := s.movePending.replaceAgain
  let s := if s.cad.windowOpen then s.applyPolicy else s
  { s with thm := s.thm.resume, cad := { s.cad with coldBoot := false } }

/-- FIRMWARE_CHECK_DONE (R611, Table 18.2 steps 3 to 5): the first bank that passes runs its boot code; where none does,
BOOT fails with E-CAD-08. -/
def execFirmwareCheckDone (s : State) : Host.Outcome State Fault Refusal :=
  if s.sup.mstate ≠ .boot ∨ s.sup.heldInReset ∨ s.hnd.running ∨ s.hnd.inReset then .next s
  else
    match s.chooseBank with
    | none => .next (s.report { blk := .cad, nn := 8 })
    | some b => .next (s.runBank b.1 b.2).bootCode

/-- SELF_TEST_COMPLETE (R180, R392, R445, Table 18.8): of a core, an entropy engine, a dictionary engine or the boot crypto
unit; a failure fences or disables it, or fails BOOT. -/
def execSelfTestComplete (kind index : Nat) (pass : Bool) (s : State) : Host.Outcome State Fault Refusal :=
  let unit : UnitRef := match kind with | 0 => .core index | 1 => .entropy index | 2 => .dict index | _ => .none
  if s.sup.mstate ≠ .boot ∨ s.sup.heldInReset ∨ !s.cad.selfTests.contains unit then .next s
  else
    let s := { s with cad := { s.cad with selfTests := s.cad.selfTests.filter fun u => u != unit } }
    if pass then .next s
    else match kind with
      | 0 => .next ((s.report { blk := .sys, nn := 23, quarter := some (coreQuarter index), unit := unit }).fenceCore index
          .selfTest)
      | 1 => .next ((s.setEcEngine index { s.ecEngine index with disabled := true }).report
          { blk := .ec, nn := 9, quarter := some (index / 4), unit := unit })
      | 2 => .next (State.report { s.setDceEngine index { s.dceEngine index with disabled := true } with
          dce := { (s.setDceEngine index { s.dceEngine index with disabled := true }).dce with
            engineFatal := satInc s.dce.engineFatal } } { blk := .dce, nn := 2, quarter := some (index / 2), unit := unit })
      | _ => .next (s.report { blk := .cad, nn := 8 })

/-- ZERO_FILL_DONE (R246). -/
def execZeroFillDone (s : State) : Host.Outcome State Fault Refusal :=
  .next (if s.sup.mstate = .boot ∧ s.cad.zeroFill then
    { s with cad := { s.cad with zeroFill := false }, mem := { s.mem with zeroFillDone := true } } else s)

/-- BOOT_WINDOW_TIMEOUT (R616): every entry is cleared, the Cadastre locks, and E-CAD-03 is reported. -/
def execBootWindowTimeout (s : State) : Host.Outcome State Fault Refusal :=
  if s.sup.mstate ≠ .boot ∨ s.sup.heldInReset ∨ !s.cad.windowOpen then .next s
  else .next (State.report { s with
    cad := { s.cad with windowOpen := false, locked := true, entries := [], ownerShown := s.cad.owner }
    fb := { s.fb with diag := false } } { blk := .cad, nn := 3 })

/-- The module leaves BOOT: the window is closed, every self-test and the zero fill have ended (R614). -/
def State.bootEnds (s : State) : Bool :=
  s.sup.mstate == .boot && !s.sup.heldInReset && !s.cad.windowOpen && s.cad.selfTests.isEmpty && !s.cad.zeroFill

/-- BOOT_COMPLETE (R614): READY; firmware of a higher SV raises the fused floor (R612). -/
def execBootComplete (s : State) : Host.Outcome State Fault Refusal :=
  if !s.bootEnds then .next s
  else
    let floor := if s.cad.fwOk && s.hnd.running then max s.fuses.svFloor.toNat (min 64 s.firmware.sv)
      else s.fuses.svFloor.toNat
    .next (State.toState { s with fuses := { s.fuses with svFloor := BitVec.ofNat 7 floor } } .ready)

/-! ### Writes that never reach the Cadastre (R618) -/

/-- CAD_VIOLATION: counted, and recorded with the address and value (Table 20.4). -/
def State.cadViolation (s : State) (f : Option Nat) (at_ value : Nat) : State :=
  State.report { s with cad := { s.cad with violCount := satInc s.cad.violCount } }
    { blk := .cad, nn := 1, func := f, detail := [at_, value % 2 ^ 32] }

/-- CAD_PORT_WRITE (R618): the Handler's write to the Cadastre port after the window has closed. The port's address is not
stated. -/
def execCadPortWrite (value : Nat) (s : State) : Host.Outcome State Fault Refusal :=
  if !s.alive || !s.hnd.running || s.cad.windowOpen then .next s
  else .next (s.takeFree.cadViolation none (Config.freeNat s.freeCount % 2 ^ 32) value)

/-! ### PLDM updates (R613, R628, R694) -/

/-- An update may start: READY or RUN, the Handler runs, and no update is under way (R694). -/
def State.updateOpen (s : State) : Bool := s.alive && s.sup.mstate.serving && s.hnd.running && s.hnd.updState == 0

/-- Which transport carried the update: the command does not tell. -/
def State.updateBy (s : State) (policy : Bool) (last : BitVec 8) : State :=
  State.takeFree { s with hnd := { s.hnd with
    updPolicy := policy, updLast := last, updTransport := if Config.freeNat s.freeCount % 2 = 0 then .smbus else .vdm } }

/-- POLICY_INSTALL (R628): a valid policy with a higher POLICY_SEQ than the active and any staged one is staged; any other is
refused with E-CAD-05, and as a refused update with E-HND-06 (R694). -/
def execPolicyInstall (bytes : List Byte) (s : State) : Host.Outcome State Fault Refusal :=
  if !s.updateOpen then .next s
  else
    let p := readPolicy bytes
    if s.policyValid p && s.ownerAdmits p && seqBelow s.cad.active p.seq && seqBelow s.cad.staged p.seq then
      .next (State.updateBy { s with cad := { s.cad with staged := some p } } true 0)
    else .next (((s.updateBy true 6).report { blk := .cad, nn := 5 }).report { blk := .hnd, nn := 6 })

/-- The image that a transferred file spells (Table 18.1), with its signature verified under the Mionum key (R610). -/
def readFirmware (b : List Byte) : FwImage :=
  let n := b.length
  let sound := leAt b 8 4 == n && n % 64 == 0 && decide (160 ≤ n ∧ n ≤ 8388608) && allZero (slice b 0x10 48)
  { magic := leAt b 0 4, major := BitVec.ofNat 8 (leAt b 4 1), minor := BitVec.ofNat 8 (leAt b 5 1), sv := leAt b 6 2
    sigOk := sound && ecdsaVerify Config.firmwareKey (sha384 (b.take (n - 96))) (slice b (n - 96) 48) (slice b (n - 48) 48)
    buildId := Config.buildId b }

/-- FIRMWARE_UPDATE (R613): an image that passes R610 is written to the bank that is not preferred and can be activated; any
other is refused and never written. -/
def execFirmwareUpdate (bytes : List Byte) (s : State) : Host.Outcome State Fault Refusal :=
  if !s.updateOpen then .next s
  else
    let i := readFirmware bytes
    if i.passes s.fuses.svFloor.toNat then
      let c := if s.cad.preferB then { s.cad with bankA := i } else { s.cad with bankB := i }
      let s := { s with cad := c, hnd := { s.hnd with updState := 4 } }
      .next (s.updateBy false 0)
    else .next ((s.updateBy false 6).report { blk := .hnd, nn := 6 })

/-! ### Quarter fatal errors -/

/-- QUARTER_FATAL_ERROR (R668): E-ERL-01 takes the module to HOLD with cause 0x11. -/
def execQuarterFatalError (unit : Nat) (s : State) : Host.Outcome State Fault Refusal :=
  .next (if s.alive then s.report { blk := .erl, nn := 1, quarter := some unit } else s)

end Sys2Proof.Machine
end

