-- ==== Sys2Proof/Machine/Connector.lean ====
section
/-!
DEFINITION. Machine/Connector.lean: the outputs of Table 16.4, the SMBus status commands of Table 17.3, the slot ID, the
readback of the outputs and the TAP (chapters 16 and 17).
-/
namespace Sys2Proof.Machine

/-! ### Outputs by module state (Table 16.4) -/

/-- PG is asserted. -/
def State.pgOut (s : State) : Bool := s.sup.mstate.powered

/-- ALERT_N is asserted. -/
def State.alertOut (s : State) : Bool :=
  match s.sup.mstate with
  | .off | .wake => false
  | .hold | .shutdownA => true
  | .shutdownB => s.sup.standby
  | .boot | .ready | .run => !s.handlerRow && s.erl.alert != 0

/-- FAN_DEMAND is driven with a demand; otherwise it is released and reads 100. -/
def State.fanDriven (s : State) : Bool :=
  match s.sup.mstate with
  | .boot | .ready | .run => s.thm.forecaster && !s.handlerRow
  | _ => false

/-- *D* as driven (R568). -/
def State.fanOut (s : State) : BitVec 7 := if s.fanDriven then s.thm.fan else 100

/-- Somebody answers SMBus: from the standby supply's presence, but in OFF and SHUTDOWN-B (Table 16.4). -/
def State.smbusUp (s : State) : Bool := s.sup.standby && s.smbusAgent != .nobody

/-! ### Status commands (Table 17.3) -/

/-- A status command's answer; nobody answers without standby. -/
def State.answer (s : State) (d : List Byte) : Host.Outcome State Fault Refusal :=
  .next (s.emitIf s.smbusUp (.smbusRead d))

/-- STATUS_STATE: the STATE byte. -/
def execStatusState (s : State) : Host.Outcome State Fault Refusal :=
  s.answer (natLe 1 (s.sup.mstate.code + bitAt 4 s.hnd.running + bitAt 5 s.sup.tripLatch + bitAt 6 (s.erl.alert != 0) +
    bitAt 7 s.sup.service))

/-- STATUS_CAUSE: HOLD's cause, or in WAKE the cause of the last failed attempt. -/
def execStatusCause (s : State) : Host.Outcome State Fault Refusal :=
  s.answer (natLe 1 (match s.sup.mstate with | .hold => s.sup.holdCause | .wake => s.sup.attemptCause | _ => 0))

/-- STATUS_WAKE_INFO: the failed step and the attempts of the current or last WAKE. -/
def execStatusWakeInfo (s : State) : Host.Outcome State Fault Refusal :=
  s.answer (natLe 2 (s.sup.failedStep % 16 + 16 * (s.sup.attempts % 8)))

/-- STATUS_SLOT: the sampled slot ID. -/
def execStatusSlot (s : State) : Host.Outcome State Fault Refusal := s.answer (natLe 1 s.sup.slotSample.toNat)

/-- STATUS_VIN: VIN48 in units of 10 mV. -/
def execStatusVin (s : State) : Host.Outcome State Fault Refusal := s.answer (natLe 2 (s.pins.vinMv / 10))

/-- STATUS_IDENT: MODULE_ID, stepping, grade, firmware version and 4 zero bytes. -/
def execStatusIdent (s : State) : Host.Outcome State Fault Refusal :=
  s.answer (natLe 8 s.fuses.moduleId.toNat ++ natLe 1 s.fuses.stepping ++ natLe 1 s.fuses.grade ++
    natLe 1 s.firmware.major.toNat ++ natLe 1 s.firmware.minor.toNat ++ natLe 4 0)

/-- STATUS_RR_COUNT: restart records in a valid set. -/
def execStatusRrCount (s : State) : Host.Outcome State Fault Refusal :=
  s.answer (natLe 2 (if s.sup.rr.valid && !s.sup.rr.cancelled then s.sup.rr.records.length else 0))

/-- Why RETRY is refused (R592): the trip latch, or a boot failure less than 10 s ago. -/
def State.retryRefused (s : State) : Bool :=
  s.sup.tripLatch || (s.sup.holdCause == 0x20 && s.sup.bootFailAt.any fun t => s.now < t + 10000000000)

/-- RETRY (R592): from HOLD to WAKE with a fresh attempt count; a refusal is recorded as E-SUP-10. In other states it
changes nothing. -/
def execRetry (data : Byte) (s : State) : Host.Outcome State Fault Refusal :=
  if !s.smbusUp then .next s
  else if data ≠ 0xA5 then .next (s.emit .smbusNack)
  else
    let s := s.emit .smbusAck
    if s.sup.mstate ≠ .hold then .next s
    else if s.retryRefused then .next (s.report { blk := .sup, nn := 10 })
    else .next (s.dropAlert (2 ^ 0)).wake

/-- ALERT_RESPONSE (R560): 0x52 while ALERT_N is asserted, which answering does not clear. -/
def execAlertResponse (s : State) : Host.Outcome State Fault Refusal :=
  .next (if !s.smbusUp then s else if s.alertOut then s.emit (.smbusRead [0x52]) else s.emit .smbusNack)

/-- SMBUS_CLOCK_TIMEOUT (R710): the SMBus interface is reset and both lines are released. -/
def execSmbusClockTimeout (s : State) : Host.Outcome State Fault Refusal := .next (s.emitIf s.smbusUp .smbusRelease)

/-! ### Slot ID and readback (R557, R582) -/

/-- SLOT_ID_RECHECK (R557): a value that differs from the sample is reported once per power cycle. -/
def execSlotIdRecheck (slotId : Nat) (s : State) : Host.Outcome State Fault Refusal :=
  let s := { s with pins := { s.pins with slotId := BitVec.ofNat 6 slotId } }
  if !s.alive || !s.hnd.running || s.pins.slotId == s.sup.slotSample || s.sup.slotChanged then .next s
  else .next (State.report { s with sup := { s.sup with slotChanged := true } } { blk := .sys, nn := 42 })

/-- READBACK_CHECK (R582): a released output that reads low, or an asserted PG that does. -/
def execReadbackCheck (mismatch : Bool) (s : State) : Host.Outcome State Fault Refusal :=
  if !s.sup.standby || !mismatch then .next s
  else .next (State.report { s with sup := { s.sup with readbackFault := true } } { blk := .sys, nn := 43 })

/-! ### The TAP (R575, R576, R634) -/

/-- IDCODE (R576). -/
def State.idcode (s : State) : DWord :=
  BitVec.ofNat 64 (1 + Config.manufacturer.toNat * 2 + 0x4734 * 2 ^ 12 + s.fuses.stepping * 2 ^ 28)

/-- The instruction a code loads: 0 BYPASS, 1 IDCODE, 2 SAMPLE/PRELOAD, 3 EXTEST and 4 FB_READ, by the model's own
numbering. EXTEST is open in HOLD only, FB_READ in HOLD with the DIAG copy set; everything else is loaded as BYPASS. -/
def State.tapLoads (s : State) (code : Nat) : TapInstr :=
  match code with
  | 1 => .idcode
  | 2 => .sample
  | 3 => if s.sup.mstate = .hold then .extest else .bypass
  | 4 => if s.sup.mstate = .hold ∧ s.fb.diag then .fbRead else .bypass
  | _ => .bypass

/-- TAP_INSTRUCTION_LOAD (R575): IDCODE puts the identity into the data register. -/
def execTapInstructionLoad (code : Nat) (s : State) : Host.Outcome State Fault Refusal :=
  if !s.sup.standby then .next s
  else
    let s := { s with sup := { s.sup with tap := s.tapLoads code } }
    .next (s.emitIf (s.sup.tap == .idcode) (.tapData s.idcode))

/-- FB_READ (R634): the u32 at the updated index of the Field book and record store, whose layout is not stated, with the
index beside it. -/
def execFbRead (index : Nat) (s : State) : Host.Outcome State Fault Refusal :=
  if s.sup.tap ≠ .fbRead ∨ s.sup.mstate ≠ .hold ∨ !s.fb.diag then .next s
  else
    let word := Config.freeNat s.freeCount % 2 ^ 32
    let s := s.takeFree
    .next (State.emit { s with fb := { s.fb with tapIndex := index % 2 ^ 24 } }
      (.tapData (BitVec.ofNat 64 (word + index % 2 ^ 24 * 2 ^ 32))))

end Sys2Proof.Machine
end

