-- ==== Sys2Proof/Machine/Float.lean ====
section
/-!
DEFINITION. Machine/Float.lean: the number formats (Tables 4.2, 4.3), exact values, and rounding to a format once
(R145 to R148, R161, R162).
-/
namespace Sys2Proof.Machine

/-! ### Exact values -/

/-- An exact value: a NaN, an infinity, or a signed dyadic m × 2^e (zero keeps its sign). -/
inductive Fl where
  | nan
  | inf (neg : Bool)
  | fin (neg : Bool) (m : Nat) (e : Int)
deriving DecidableEq, Repr

/-- A binary format: exponent and fraction widths, bias, and whether it has infinities. -/
structure Fmt where
  ew : Nat
  fw : Nat
  bias : Nat
  hasInf : Bool
deriving DecidableEq, Repr

def fp32 : Fmt := ⟨8, 23, 127, true⟩
def fp16 : Fmt := ⟨5, 10, 15, true⟩
def bf16 : Fmt := ⟨8, 7, 127, true⟩
def e4m3 : Fmt := ⟨4, 3, 7, false⟩
def e5m2 : Fmt := ⟨5, 2, 15, true⟩

/-- The floating format of a code (Table 4.2). -/
def fmtOf (code : Nat) : Option Fmt :=
  match code with
  | 0x10 => some e4m3 | 0x11 => some e5m2 | 0x12 => some fp16 | 0x13 => some bf16 | 0x14 => some fp32 | _ => none

def Fmt.signBit (f : Fmt) : Nat := 2 ^ (f.ew + f.fw)
/-- Bits of an infinity, which in E4M3 is the NaN pattern 0x7F (Table 4.8). -/
def Fmt.infBits (f : Fmt) : Nat := if f.hasInf then (2 ^ f.ew - 1) * 2 ^ f.fw else 2 ^ (f.ew + f.fw) - 1
/-- Bits of the canonical NaN (Table 4.3). -/
def Fmt.nanBits (f : Fmt) : Nat := if f.hasInf then (2 ^ f.ew - 1) * 2 ^ f.fw + 2 ^ (f.fw - 1) else 2 ^ (f.ew + f.fw) - 1
/-- Bits of the largest finite magnitude. -/
def Fmt.maxBits (f : Fmt) : Nat := if f.hasInf then f.infBits - 1 else 2 ^ (f.ew + f.fw) - 2
/-- Exponent of the smallest normal number. -/
def Fmt.emin (f : Fmt) : Int := 1 - (f.bias : Int)
/-- Width of an element in bits. -/
def Fmt.bits (f : Fmt) : Nat := 1 + f.ew + f.fw

/-- The value of a bit pattern. -/
def Fmt.decode (f : Fmt) (b : Nat) : Fl :=
  let neg := b.testBit (f.ew + f.fw)
  let mag := b % 2 ^ (f.ew + f.fw)
  let ex := mag / 2 ^ f.fw
  let fr := mag % 2 ^ f.fw
  if f.hasInf ∧ ex = 2 ^ f.ew - 1 then (if fr = 0 then .inf neg else .nan)
  else if ¬f.hasInf ∧ mag = 2 ^ (f.ew + f.fw) - 1 then .nan
  else if ex = 0 then .fin neg fr (f.emin - f.fw)
  else .fin neg (2 ^ f.fw + fr) (f.emin - f.fw + ex - 1)

/-- 2^e as a numerator and a denominator. -/
def pow2 (e : Int) : Nat × Nat := if 0 ≤ e then (2 ^ e.toNat, 1) else (1, 2 ^ (-e).toNat)

/-- The exponent e with 2^e ≤ n / d < 2^(e+1), for n and d at least 1. -/
def floorLog2 (n d : Nat) : Int :=
  let k : Int := (n.log2 : Int) - (d.log2 : Int)
  let p := pow2 k
  if n * p.2 < d * p.1 then k - 1 else k

/-- A magnitude n / d between two neighbouring patterns of a format: the lower pattern, and the rest over the step as a
fraction. Patterns of rising magnitudes rise by one, from 0. -/
def Fmt.floorPattern (f : Fmt) (n d : Nat) : Nat × Nat × Nat :=
  if n = 0 then (0, 0, 1)
  else
    let e := max (floorLog2 n d) f.emin
    let p := pow2 (e - f.fw)
    let a := n * p.2
    let b := d * p.1
    let q := a / b
    (if q < 2 ^ f.fw then q else (e - f.emin).toNat * 2 ^ f.fw + q, a % b, b)

/-- A magnitude's pattern beyond the largest finite one: infinity, or saturation in E4M3 (R162). -/
def Fmt.clip (f : Fmt) (p : Nat) : Nat := if p ≤ f.maxBits then p else if f.hasInf then f.infBits else f.maxBits

/-- A signed pattern. -/
def Fmt.signed (f : Fmt) (neg : Bool) (p : Nat) : Nat := if neg then p + f.signBit else p

/-- n / d with a sign, rounded once to nearest, ties to even. -/
def Fmt.roundRat (f : Fmt) (neg : Bool) (n d : Nat) : Nat :=
  let x := f.floorPattern n d
  let up := x.2.2 < 2 * x.2.1 ∨ (2 * x.2.1 = x.2.2 ∧ x.1 % 2 = 1)
  f.signed neg (f.clip (if up then x.1 + 1 else x.1))

/-- A value rounded once to a format (Table 4.8). -/
def Fmt.round (f : Fmt) : Fl → Nat
  | .nan => f.nanBits
  | .inf neg => if f.hasInf then f.signed neg f.infBits else f.nanBits
  | .fin neg m e => let p := pow2 e; f.roundRat neg (m * p.1) p.2

/-! ### Exact arithmetic -/

def Fl.neg : Fl → Fl
  | .nan => .nan
  | .inf s => .inf !s
  | .fin s m e => .fin (!s) m e

def Fl.isNan : Fl → Bool | .nan => true | _ => false
def Fl.isInf : Fl → Bool | .inf _ => true | _ => false
def Fl.isNeg : Fl → Bool | .nan => false | .inf s => s | .fin s _ _ => s
def Fl.isZero : Fl → Bool | .fin _ m _ => m == 0 | _ => false
/-- +0. -/
def Fl.zero : Fl := .fin false 0 0
/-- An integer's value. -/
def Fl.ofInt (i : Int) : Fl := .fin (decide (i < 0)) i.natAbs 0

/-- The signed mantissa at an exponent no greater than the value's own. -/
def signedAt (neg : Bool) (m : Nat) (e lo : Int) : Int :=
  let v : Int := (m : Int) * (2 ^ (e - lo).toNat : Nat)
  if neg then -v else v

/-- The exact sum; a zero sum is −0 only of two negatives (IEEE 754, RNE). -/
def Fl.add : Fl → Fl → Fl
  | .nan, _ => .nan
  | _, .nan => .nan
  | .inf a, .inf b => if a = b then .inf a else .nan
  | .inf a, _ => .inf a
  | _, .inf b => .inf b
  | .fin sa ma ea, .fin sb mb eb =>
    let lo := min ea eb
    let c := signedAt sa ma ea lo + signedAt sb mb eb lo
    if c = 0 then .fin (sa && sb) 0 0 else .fin (decide (c < 0)) c.natAbs lo

/-- The exact product. -/
def Fl.mul : Fl → Fl → Fl
  | .nan, _ => .nan
  | _, .nan => .nan
  | .inf a, .inf b => .inf (a != b)
  | .inf a, .fin b m _ => if m = 0 then .nan else .inf (a != b)
  | .fin a m _, .inf b => if m = 0 then .nan else .inf (a != b)
  | .fin a m e, .fin b n g => .fin (a != b) (m * n) (e + g)

/-- The quotient rounded once to a format. -/
def Fmt.div (f : Fmt) : Fl → Fl → Nat
  | .nan, _ => f.nanBits
  | _, .nan => f.nanBits
  | .inf _, .inf _ => f.nanBits
  | .inf a, .fin b _ _ => f.round (.inf (a != b))
  | .fin a _ _, .inf b => f.signed (a != b) 0
  | .fin a m e, .fin b n g =>
    if n = 0 then (if m = 0 then f.nanBits else f.round (.inf (a != b)))
    else
      let p := pow2 (e - g)
      f.roundRat (a != b) (m * p.1) (n * p.2)

/-- Integer square root by its low `k` bits. -/
def isqrtBits (n : Nat) : Nat → Nat → Nat
  | 0, r => r
  | k + 1, r => isqrtBits n k (if (r + 2 ^ k) * (r + 2 ^ k) ≤ n then r + 2 ^ k else r)
def isqrt (n : Nat) : Nat := isqrtBits n (n.log2 / 2 + 1) 0

/-- The square root of n / d as a fraction that every rounding to a format treats as the root itself: exact where it is
rational, else strictly between the same neighbouring multiples of a step far below the format's. -/
def sqrtRat (n d : Nat) : Nat × Nat :=
  let k := 64 + d.log2
  let big := n * d * 4 ^ k
  let s := isqrt big
  if s * s = big then (s, d * 2 ^ k) else (2 * s + 1, 2 * (d * 2 ^ k))

/-- The square root rounded once. -/
def Fmt.sqrt (f : Fmt) : Fl → Nat
  | .nan => f.nanBits
  | .inf neg => if neg then f.nanBits else f.round (.inf false)
  | .fin neg m e =>
    if m = 0 then f.signed neg 0
    else if neg then f.nanBits
    else
      let p := pow2 e
      let r := sqrtRat (m * p.1) p.2
      f.roundRat false r.1 r.2

/-- Less than, on values that are not NaN; −0 and +0 are equal. -/
def Fl.lt : Fl → Fl → Bool
  | .nan, _ => false
  | _, .nan => false
  | .inf a, .inf b => a && !b
  | .inf a, _ => a
  | _, .inf b => !b
  | .fin sa ma ea, .fin sb mb eb => let lo := min ea eb; signedAt sa ma ea lo < signedAt sb mb eb lo

/-- −0 counts as less than +0 for minimum and maximum (Table 4.5). -/
def Fl.ltZ (a b : Fl) : Bool := a.lt b || (!b.lt a && a.isNeg && !b.isNeg)

/-- The nearest integer, ties to even. -/
def rneInt (neg : Bool) (m : Nat) (e : Int) : Int :=
  let p := pow2 e
  let q := m * p.1 / p.2
  let r := m * p.1 % p.2
  let n : Nat := if p.2 < 2 * r ∨ (2 * r = p.2 ∧ q % 2 = 1) then q + 1 else q
  if neg then -(n : Int) else (n : Int)

def clampInt (lo hi x : Int) : Int := if x < lo then lo else if hi < x then hi else x

/-- A value rounded to an integer in a range, saturating; NaN gives 0 (Table 4.8). -/
def Fl.toInt (lo hi : Int) : Fl → Int
  | .nan => 0
  | .inf neg => if neg then lo else hi
  | .fin neg m e => clampInt lo hi (rneInt neg m e)

/-! ### Elements of typed data -/

/-- Integer formats: width, and range. -/
def intFmt (code : Nat) : Option (Nat × Int × Int) :=
  match code with
  | 1 => some (4, -8, 7) | 2 => some (8, -128, 127) | 3 => some (8, 0, 255) | 4 => some (32, -2147483648, 2147483647)
  | _ => none

/-- Width of an element in bits; 0 for raw bytes and codes that do not exist. -/
def elemBits (code : Nat) : Nat :=
  match fmtOf code with
  | some f => f.bits
  | none => (intFmt code).elim 0 fun x => x.1

/-- Bytes of `n` elements. -/
def elemBytes (code n : Nat) : Nat := (n * elemBits code + 7) / 8

/-- The bit pattern of element `i` (INT4 packs two in a byte, Table 4.2). -/
def elemPattern (code : Nat) (bs : List Byte) (i : Nat) : Nat :=
  if elemBits code = 4 then nfld (leAt bs (i / 2) 1) (4 * (i % 2)) 4 else leAt bs (i * (elemBits code / 8)) (elemBits code / 8)

/-- The value of element `i`. -/
def elemAt (code : Nat) (bs : List Byte) (i : Nat) : Fl :=
  match fmtOf code with
  | some f => f.decode (elemPattern code bs i)
  | none =>
    if code = 3 then .ofInt (elemPattern code bs i) else .ofInt (toSigned (elemBits code) (elemPattern code bs i))

/-- All values of `n` elements. -/
def elems (code n : Nat) (bs : List Byte) : List Fl := (List.range n).map (elemAt code bs)

/-- A value converted to a format's bit pattern (Table 4.8). -/
def toPattern (code : Nat) (x : Fl) : Nat :=
  match fmtOf code with
  | some f => f.round x
  | none =>
    match intFmt code with
    | some (w, lo, hi) => ofSigned w (x.toInt lo hi)
    | none => 0

/-- Pairs of 4-bit patterns packed into bytes. -/
def packNibbles : List Nat → List Byte
  | [] => []
  | [a] => [BitVec.ofNat 8 (a % 16)]
  | a :: b :: r => BitVec.ofNat 8 (a % 16 + 16 * (b % 16)) :: packNibbles r

/-- Bit patterns of a format as bytes. -/
def packPatterns (code : Nat) (ps : List Nat) : List Byte :=
  if elemBits code = 4 then packNibbles ps else ps.flatMap (natLe (elemBits code / 8))

/-! ### FP32 as bit patterns -/

abbrev F32 := Nat
def f32 (x : Fl) : F32 := fp32.round x
def f32v (b : F32) : Fl := fp32.decode b
def f32Add (a b : F32) : F32 := f32 ((f32v a).add (f32v b))
def f32Sub (a b : F32) : F32 := f32 ((f32v a).add (f32v b).neg)
def f32Mul (a b : F32) : F32 := f32 ((f32v a).mul (f32v b))
def f32Div (a b : F32) : F32 := fp32.div (f32v a) (f32v b)
def f32Fma (a b c : F32) : F32 := f32 (((f32v a).mul (f32v b)).add (f32v c))
def f32OfNat (n : Nat) : F32 := f32 (.ofInt n)
/-- The exact quotient of two integers, rounded once. -/
def f32Ratio (a b : Nat) : F32 := fp32.div (.ofInt a) (.ofInt b)

/-- Stochastic rounding of an FP32 value to a shorter format with 16 random bits (R163): where it is not
representable and not beyond the largest finite value, the upper neighbour is taken where u < d. -/
def Fmt.roundStochastic (f : Fmt) (x : Fl) (u : Nat) : Nat :=
  match x with
  | .fin neg m e =>
    let p := pow2 e
    let k := f.floorPattern (m * p.1) p.2
    if k.2.1 = 0 ∨ f.maxBits ≤ k.1 then f.round x
    else if neg then
      -- a is the neighbour of larger magnitude
      let d := (k.2.2 - k.2.1) * 65536 / k.2.2
      f.signed true (if u < d then k.1 else k.1 + 1)
    else
      let d := k.2.1 * 65536 / k.2.2
      f.signed false (if u < d then k.1 + 1 else k.1)
  | y => f.round y

end Sys2Proof.Machine
end

