-- ==== Sys2Proof/Machine/Special.lean ====
section
/-!
DEFINITION. Machine/Special.lean: the function unit (R182 to R193). A short-format result is the exact real result
rounded once; an FP32 result is faithful, and which neighbour it takes is a free value of Config that depends on what
R188 lists. Real results are enclosed between two fractions, narrow enough for the rounding to be decided.
-/
namespace Sys2Proof.Machine

/-- An enclosure of a positive real: lo / s ≤ x ≤ hi / t as four naturals. -/
structure Encl where
  neg : Bool
  loN : Nat
  loD : Nat
  hiN : Nat
  hiD : Nat
deriving DecidableEq, Repr

/-- Sum of y^i / i! for i from `i` on, `n` terms, in units of 2^−p, rounded down; `t` is the term before. -/
def expSum (p y : Nat) : Nat → Nat → Nat → Nat
  | 0, _, _ => 0
  | n + 1, i, t => let t' := t * y / 2 ^ p / i; t' + expSum p y n (i + 1) t'

/-- Square an enclosure in units of 2^−p `k` times. -/
def squareUp (p : Nat) : Nat → Nat × Nat → Nat × Nat
  | 0, x => x
  | k + 1, x => squareUp p k (x.1 * x.1 / 2 ^ p, x.2 * x.2 / 2 ^ p + 1)

/-- e^(n/d) for n/d below 2^10, in units of 2^−p: lower and upper bounds. The argument is divided by 2^26, the series
is summed to 40 terms, and the result is squared 26 times. -/
def expEncl (p n d : Nat) : Nat × Nat :=
  let y := n * 2 ^ p / (d * 2 ^ 26)
  let lo := 2 ^ p + expSum p y 40 1 (2 ^ p)
  -- each of 40 terms loses less than 3 units, the argument less than 1, and the remainder is below 1
  squareUp p 26 (lo, lo + 128)

/-- 2 × atanh(n/d) for n/d at most 1/3, in units of 2^−p: bounds. -/
def atanhSum (p z2 : Nat) : Nat → Nat → Nat → Nat
  | 0, _, _ => 0
  | n + 1, i, t => t / i + atanhSum p z2 n (i + 2) (t * z2 / 2 ^ p)
def atanh2Encl (p n d : Nat) : Nat × Nat :=
  let z := n * 2 ^ p / d
  let z2 := z * z / 2 ^ p
  let lo := 2 * atanhSum p z2 (p / 3 + 2) 1 z
  (lo, lo + 8 * p + 64)

/-- ln(n/d) as a signed enclosure in units of 2^−p. -/
def lnEncl (p n d : Nat) : Int × Int :=
  let e := floorLog2 n d
  let q := pow2 e
  -- n/d = m × 2^e with 1 ≤ m < 2
  let a := n * q.2
  let b := d * q.1
  let m := atanh2Encl p (a - b) (a + b)
  let l2 := atanh2Encl p 1 3
  let s := if 0 ≤ e then (e * l2.1, e * l2.2) else (e * l2.2, e * l2.1)
  (s.1 + m.1, s.2 + m.2)

/-- The magnitude of a finite value as a fraction. -/
def magRat (m : Nat) (e : Int) : Nat × Nat := let p := pow2 e; (m * p.1, p.2)

/-- A fraction no larger than a bound. -/
def capRat (b : Nat) (x : Nat × Nat) : Nat × Nat := if b * x.2 ≤ x.1 then (b, 1) else x

/-- What a function's exact result is: special, a fraction, or a real known by its enclosures at a precision. -/
inductive FuValue where
  | special (v : Fl)
  | ratio (neg : Bool) (n d : Nat)
  | real (encl : Nat → Encl)

/-- The exact result of a function at a value (Tables 5.1, 5.4). -/
def fuValue (f : FuFn) (x : Fl) : FuValue :=
  match f, x with
  | _, .nan => .special .nan
  | .exp, .inf true => .special .zero
  | .exp, .inf false => .special (.inf false)
  | .ln, .inf true => .special .nan
  | .ln, .inf false => .special (.inf false)
  | .recip, .inf s => .special (.fin s 0 0)
  | .rsqrt, .inf true => .special .nan
  | .rsqrt, .inf false => .special .zero
  | .tanh, .inf s => .special (.fin s 1 0)
  | .logistic, .inf true => .special .zero
  | .logistic, .inf false => .special (.fin false 1 0)
  | .exp, .fin s m e =>
    if m = 0 then .special (.fin false 1 0)
    else
      let r := capRat 512 (magRat m e)
      .real fun p =>
        let t := expEncl p r.1 r.2
        if s then ⟨false, 2 ^ p, t.2, 2 ^ p, t.1⟩ else ⟨false, t.1, 2 ^ p, t.2, 2 ^ p⟩
  | .ln, .fin s m e =>
    if m = 0 then .special (.inf true)
    else if s then .special .nan
    else
      let r := magRat m e
      if r.1 = r.2 then .special .zero
      else .real fun p =>
        let t := lnEncl p r.1 r.2
        if r.2 < r.1 then ⟨false, t.1.toNat, 2 ^ p, t.2.toNat, 2 ^ p⟩ else ⟨true, (-t.2).toNat, 2 ^ p, (-t.1).toNat, 2 ^ p⟩
  | .recip, .fin s m e =>
    if m = 0 then .special (.inf s) else let r := magRat m e; .ratio s r.2 r.1
  | .rsqrt, .fin s m e =>
    if m = 0 then .special (.inf s)
    else if s then .special .nan
    else let r := magRat m e; let q := sqrtRat r.2 r.1; .ratio false q.1 q.2
  | .tanh, .fin s m e =>
    if m = 0 then .special (.fin s 0 0)
    else
      let r := capRat 64 (magRat m e)
      .real fun p =>
        let t := expEncl p (2 * r.1) r.2
        ⟨s, t.1 - 2 ^ p, t.1 + 2 ^ p, t.2 - 2 ^ p, t.2 + 2 ^ p⟩
  | .logistic, .fin s m e =>
    if m = 0 then .special (.fin false 1 (-1))
    else
      let r := capRat 512 (magRat m e)
      .real fun p =>
        let t := expEncl p r.1 r.2
        if s then ⟨false, 2 ^ p, 2 ^ p + t.2, 2 ^ p, 2 ^ p + t.1⟩ else ⟨false, t.1, t.1 + 2 ^ p, t.2, t.2 + 2 ^ p⟩

/-- Round an enclosed real once: at the first precision whose two ends round alike. -/
def Fmt.roundReal (f : Fmt) (encl : Nat → Encl) : List Nat → Nat
  | [] => 0
  | p :: rest =>
    let x := encl p
    let a := f.roundRat x.neg x.loN x.loD
    if a = f.roundRat x.neg x.hiN x.hiD ∨ rest = [] then a else f.roundReal encl rest

/-- The pattern below an enclosed real's magnitude. -/
def Fmt.floorReal (f : Fmt) (encl : Nat → Encl) : List Nat → Bool × Nat
  | [] => (false, 0)
  | p :: rest =>
    let x := encl p
    let a := (f.floorPattern x.loN x.loD).1
    if a = (f.floorPattern x.hiN x.hiD).1 ∨ rest = [] then (x.neg, a) else f.floorReal encl rest

/-- The precisions tried, in bits after the point. -/
def precisions : List Nat := [160, 960, 2400]

/-- Number of a function in Config.fuUpper. -/
def fuCode : FuFn → Nat
  | .tanh => 0 | .logistic => 1 | .exp => 2 | .ln => 3 | .recip => 4 | .rsqrt => 5

/-- FP32 results pinned on every revision and tier, besides those the rounding rules fix (Table 5.6). -/
def fuPinned (f : FuFn) (x : Fl) : Option Nat :=
  match f, x with
  | .exp, .fin _ m e => let r := magRat m e; if r.1 * 2 ^ 26 ≤ r.2 then some 0x3F800000 else none
  | .tanh, .fin s m e =>
    let r := magRat m e
    if r.1 * 2 ^ 12 ≤ r.2 then some (fp32.round x) else if 91 * r.2 ≤ 10 * r.1 then some (fp32.signed s 0x3F800000) else none
  | .logistic, .fin false m e => let r := magRat m e; if 174 * r.2 ≤ 10 * r.1 then some 0x3F800000 else none
  | _, _ => none

/-- A magnitude that R187 item 1 rounds: at or above the overflow threshold, or below 2^−149. -/
def fuExtreme (pattern : Nat) (n d : Nat) : Bool :=
  pattern = 0 || fp32.clip (pattern + 1) = fp32.infBits && (2 ^ 25 - 1) * 2 ^ 103 * d ≤ n

/-- An FP32 result (R187, R188, R193): the pattern below the exact magnitude, or the one above it as Config says. -/
def fuFp32 (f : FuFn) (input fmt rev tier : Nat) (x : Fl) : Nat :=
  let upper := Config.fuUpper (fuCode f) (if f = .tanh then input % 2 ^ (elemBits fmt - 1) else input) fmt rev tier
  match fuPinned f x with
  | some b => b
  | none =>
    match fuValue f x with
    | .special v => fp32.round v
    | .ratio neg n d =>
      let k := fp32.floorPattern n d
      if k.2.1 = 0 ∨ fuExtreme k.1 n d then fp32.roundRat neg n d
      else fp32.signed neg (fp32.clip (if upper then k.1 + 1 else k.1))
    | .real encl =>
      let x := encl 960
      let k := fp32.floorReal encl precisions
      if fuExtreme k.2 x.loN x.loD then fp32.roundReal encl precisions
      else fp32.signed k.1 (fp32.clip (if upper then k.2 + 1 else k.2))

/-- A function-unit result's bit pattern: the output format exactly rounded, or FP32 by R187. -/
def fuEval (f : FuFn) (inFmt input outFmt rev tier : Nat) : Nat :=
  match fmtOf inFmt, fmtOf outFmt with
  | some fi, some fo =>
    let x := fi.decode input
    if outFmt = 0x14 then fuFp32 f input inFmt rev tier x
    else
      match fuValue f x with
      | .special v => fo.round v
      | .ratio neg n d => fo.roundRat neg n d
      | .real encl => fo.roundReal encl precisions
  | _, _ => 0

end Sys2Proof.Machine
end

