-- ==== Sys2Proof/Machine/CoreArith.lean ====
section
/-!
DEFINITION. Machine/CoreArith.lean: the Grid, the vector unit, the function unit and the row operations of a core
(chapters 4 and 5; R406 and R407 for latents).
-/
namespace Sys2Proof.Machine

/-- A core unit that may issue now. -/
def State.coreIssuer? (s : State) (c u : Nat) : Option (Frame × FrameRun × UnitRun) :=
  match s.issuer? c u with
  | some x => if x.2.2.kind = 0 then some x else none
  | none => none

/-- The function-unit revision and a frame's tier (R185, R189). -/
def State.fu (s : State) (tier : Nat) (f : FuFn) (inFmt input outFmt : Nat) : Nat :=
  fuEval f inFmt input outFmt s.fuses.fuRev.toNat tier

/-! ### The Grid -/

/-- The operand pairs of Table 4.4. -/
def gridPairOk (a b : Nat) : Bool :=
  match a, b with
  | 1, 1 => true
  | 2, 1 => true
  | 3, 1 => true
  | 2, 2 => true
  | 3, 2 => true
  | 0x10, 0x10 => true
  | 0x10, 0x11 => true
  | 0x11, 0x10 => true
  | 0x11, 0x11 => true
  | 0x12, 0x12 => true
  | 0x13, 0x13 => true
  | _, _ => false

/-- Products counted in an accumulation. -/
def Acc.count : Acc → Nat
  | .exact _ n _ _ _ _ => n
  | .int _ n => n
  | .free _ n => n

/-- An integer value; 0 for what is none. -/
def Fl.toExactInt : Fl → Int
  | .fin s m e => signedAt s m e 0
  | _ => 0

/-- A product added to an exact accumulator (R155, R156). -/
def Acc.addExact (a : Acc) (p : Fl) : Acc :=
  match a with
  | .exact v n nan pi ni nz =>
    match p with
    | .nan => .exact v (n + 1) true pi ni true
    | .inf false => .exact v (n + 1) nan true ni true
    | .inf true => .exact v (n + 1) nan pi true true
    | .fin s m e => .exact (v + signedAt s m e (-272)) (n + 1) nan pi ni (nz || m ≠ 0 || !s)
  | x => x

/-- The exact sum of a block of products, rounded once (R153). -/
def blockSum : List Fl → F32
  | [] => 0
  | p :: r => f32 (r.foldl Fl.add p)

/-- A Free running sum over products in blocks, with fuel for their number (R153). -/
def freeSums (block : Nat) : Nat → F32 → List Fl → F32
  | 0, sum, _ => sum
  | n + 1, sum, ps =>
    if ps.isEmpty then sum else freeSums block n (f32Add sum (blockSum (ps.take block))) (ps.drop block)

/-- A fresh accumulation for an operand pair and mode (R156). -/
def Acc.fresh (free : Bool) (fmtA : Nat) : Acc :=
  if fmtA < 0x10 then .int 0 0 else if free then .free 0 0 else .exact 0 0 false false false false

/-- Two accumulations of one kind. -/
def Acc.sameKind : Acc → Acc → Bool
  | .exact .., .exact .. => true
  | .int .., .int .. => true
  | .free .., .free .. => true
  | _, _ => false

/-- A value in the integer accumulator of 48 bits (R151). No sum that R152 allows leaves them; beyond, which only a partial
that no such sum gives can bring about, the sum is taken modulo 2^48 (DESIGN CHOICE, log 131). -/
def accInt (v : Int) : Int := toSigned 48 (ofSigned 48 v)

/-- The products of one output element added to an accumulation. -/
def Acc.addProducts (a : Acc) (block : Nat) (ps : List Fl) : Acc :=
  match a with
  | .int v n => .int (accInt (v + (ps.map Fl.toExactInt).foldl (· + ·) 0)) (n + ps.length)
  | .free s n => .free (BitVec.ofNat 32 (freeSums block ps.length s.toNat ps)) (n + ps.length)
  | .exact .. => ps.foldl Acc.addExact a

/-- The read-out of an accumulation as FP32 (R157, R164, R172). -/
def Acc.readOut : Acc → F32
  | .free s _ => s.toNat
  | .int v _ => f32 (.ofInt v)
  | .exact v n nan pi ni nz =>
    if nan ∨ (pi ∧ ni) then fp32.nanBits
    else if pi then fp32.infBits
    else if ni then fp32.signed true fp32.infBits
    else if v = 0 then (if 1 ≤ n ∧ ¬nz then fp32.signed true 0 else 0)
    else f32 (.fin (decide (v < 0)) v.natAbs (-272))

/-- The activations of Table 4.9 on FP32. -/
def activate (s : State) (tier act : Nat) (arg y : F32) : F32 :=
  let v := f32v y
  let a := f32v arg
  if v.isNan then fp32.nanBits
  else
    match act with
    | 0 => y
    | 1 => if Fl.zero.lt v then y else 0
    | 2 => if !Fl.zero.lt v then 0 else if !v.lt a then arg else y
    | 3 => if v.lt .zero then f32Mul y arg else y
    | 4 => s.fu tier .tanh 0x14 y 0x14
    | _ => s.fu tier .logistic 0x14 y 0x14

/-- One value converted to an output format, with stochastic rounding where it is asked for and defined (R161, R163): the
operation's element `i` is the element base + i of its tensor in logical order (Table 9.5). -/
def convertElem (key : DWord) (frame fmt : Nat) (stochastic : Option Rounding) (i : Nat) (x : Fl) : Nat :=
  match stochastic, fmtOf fmt with
  | some d, some f =>
    if fmt = 0x14 then toPattern fmt x else f.roundStochastic x (draw16 key 2 d.stream d.tensor frame (d.base + i)).toNat
  | _, _ => toPattern fmt x

/-- The epilogue on one element of channel `c` (R164). -/
def epilogueValue (s : State) (x : UnitRun) (tier : Nat) (e : Epilogue) (c : Nat) (y : F32) : F32 :=
  let word (src : Src) := leNat (s.operandAt x src (4 * c) 4)
  let y := match e.bias with | some b => f32Add y (word b) | none => y
  let arg := match e.actArg with | some a => leNat (s.operandAt x a 0 4) | none => 0
  let y := activate s tier e.act arg y
  match e.scale with | some b => f32Mul y (word b) | none => y

/-- One element's output pattern. -/
def epilogueElem (s : State) (f : Frame) (r : FrameRun) (x : UnitRun) (key : DWord) (g : GridArgs) (e : Epilogue)
    (i : Nat) (a : Acc) : Nat :=
  match e.int32, a with
  | true, .int v _ => ofSigned 32 (clampInt (-2147483648) 2147483647 v)
  | _, _ =>
    convertElem key f.no e.fmt (if g.free then e.stochastic else none) i
      (f32v (epilogueValue s x r.tier e (i % max g.n 1) a.readOut))

/-- The accumulation an element starts from. An operation that continues one of another kind begins afresh: R160 speaks of
partials only (DESIGN CHOICE, log 132). -/
def gridStart (x : UnitRun) (g : GridArgs) (i : Nat) : Acc :=
  let fresh := Acc.fresh g.free g.fmtA
  match g.continues, Tab.find? x.accs (g.acc + i) with
  | true, some a => if a.sameKind fresh then a else fresh
  | _, _ => fresh

/-- The products of output element `i`. -/
def gridProducts (g : GridArgs) (a b : List Byte) (i : Nat) : List Fl :=
  let row := i / max g.n 1
  let col := i % max g.n 1
  (List.range g.k).map fun t => (elemAt g.fmtA a (row * g.k + t)).mul (elemAt g.fmtB b (t * g.n + col))

/-- The accumulations of all elements after a Grid operation. -/
def gridAccs (x : UnitRun) (g : GridArgs) (a b : List Byte) : List Acc :=
  let block := if g.fmtA < 0x12 then 64 else 32
  (List.range (g.m * g.n)).map fun i => (gridStart x g i).addProducts block (gridProducts g a b i)

/-- An output format the conversions know. -/
def outFmtOk (fmt : Nat) : Bool := elemBits fmt != 0

/-- GRID_OP (R150 to R167, R172). -/
def execGridOp (ctx unit : Nat) (args : GridArgs) (s : State) : Host.Outcome State Fault Refusal :=
  match s.coreIssuer? ctx unit with
  | none => .next s
  | some (f, r, x) =>
    let epiOk := match args.epilogue with | none => true | some e => e.act ≤ 5 && (e.int32 || outFmtOk e.fmt)
    if !gridPairOk args.fmtA args.fmtB || !epiOk then .next s
    else
      let a := s.operand x args.a (elemBytes args.fmtA (args.m * args.k))
      let b := s.operand x args.b (elemBytes args.fmtB (args.k * args.n))
      let accs := gridAccs x args a b
      if accs.any fun y => 2 ^ 24 < y.count then .next (s.unitFault ctx x .sys 21)
      else
        let t := s.takeFree.modUnit ctx unit fun y => { y with
          accs := (withIndex' accs).foldl (fun m p => Tab.put m (args.acc + p.1) p.2) y.accs }
        match args.epilogue with
        | none => .next t
        | some e =>
          let ps := (withIndex' accs).map fun p => epilogueElem s f r x (s.ctx ctx).key args e p.1 p.2
          .next (t.putTile x e.dst (packPatterns (if e.int32 ∧ args.fmtA < 0x10 then 4 else e.fmt) ps))
where
  withIndex' (l : List Acc) : List (Nat × Acc) := (List.range l.length).zip l

/-! ### Exact partials (R159, R160, Table 4.6) -/

/-- The 80 bytes of an exact or integer partial; a Free floating accumulation has none. -/
def Acc.partialBytes : Acc → Option (List Byte)
  | .exact v n nan pi ni nz => some (natLe 72 (ofSigned 576 v) ++ natLe 4 n ++
      natLe 4 (bitAt 0 nan + bitAt 1 pi + bitAt 2 ni + bitAt 3 nz))
  | .int v n => some (natLe 72 (ofSigned 576 v) ++ natLe 4 n ++ natLe 4 16)
  | .free _ _ => none

/-- The accumulation a partial carries; an integer value is sign-extended from 48 bits (R159). Reserved bits and bytes are
not looked at, and an ACC that no sum of R152 gives is taken as it stands (DESIGN CHOICE, log 131). -/
def readPartial (b : List Byte) : Acc :=
  let n := leAt b 0x48 4
  let fl := leAt b 0x4C 1
  if fl.testBit 4 then .int (toSigned 48 (leAt b 0 6)) n
  else .exact (toSigned 576 (leAt b 0 72)) n (fl.testBit 0) (fl.testBit 1) (fl.testBit 2) (fl.testBit 3)

/-- The merge of a partial into an accumulation; none where the kinds do not allow it (R160). An exact sum is kept as it is;
R155 gives no sum of R152 beyond 576 bits (log 131). -/
def Acc.merge : Acc → Acc → Option Acc
  | .exact v n a b c d, .exact w m e f g h => some (.exact (v + w) (n + m) (a || e) (b || f) (c || g) (d || h))
  | .int v n, .int w m => some (.int (accInt (v + w)) (n + m))
  | _, _ => none

/-- EXPORT_PARTIAL (R159). A Free floating accumulation has no partial and one not begun nothing to export: no effect
(DESIGN CHOICE, log 133). -/
def execExportPartial (ctx unit acc dst : Nat) (s : State) : Host.Outcome State Fault Refusal :=
  match s.coreIssuer? ctx unit with
  | none => .next s
  | some (_, _, x) =>
    match (Tab.find? x.accs acc).bind Acc.partialBytes with
    | some d => .next (s.putTile x dst d)
    | none => .next s

/-- MERGE_PARTIAL (R152, R159, R160): an accumulation not begun begins with the partial. -/
def execMergePartial (ctx unit acc : Nat) (src : Src) (s : State) : Host.Outcome State Fault Refusal :=
  match s.coreIssuer? ctx unit with
  | none => .next s
  | some (_, _, x) =>
    let p := readPartial (s.operand x src 80)
    let merged := match Tab.find? x.accs acc with
      | none => some p
      | some a => a.merge p
    match merged with
    | none => .next (s.unitFault ctx x .sys 24)
    | some a =>
      if 2 ^ 24 < a.count then .next (s.unitFault ctx x .sys 21)
      else .next (s.takeFree.modUnit ctx unit fun y => { y with accs := Tab.put y.accs acc a })

/-! ### The vector unit (R148, R161, R163, R406, R407) -/

/-- Minimum and maximum: the canonical NaN if either is NaN (Table 4.5). -/
def Fl.min2 (a b : Fl) : Fl := if a.isNan || b.isNan then .nan else if b.ltZ a then b else a
def Fl.max2 (a b : Fl) : Fl := if a.isNan || b.isNan then .nan else if a.ltZ b then b else a

/-- The outcome of a comparison, as the byte it writes: 0 less, 1 equal, 2 greater, 3 unordered. -/
def compareCode (a b : Fl) : Nat := if a.isNan || b.isNan then 3 else if a.lt b then 0 else if b.lt a then 2 else 1

/-- One element of an arithmetic operation, as a bit pattern of its format. -/
def vectorElem (op : VecOp) (f : Fmt) (a b c : Fl) : Nat :=
  match op with
  | .add => f.round (a.add b)
  | .sub => f.round (a.add b.neg)
  | .mul => f.round (a.mul b)
  | .fma => f.round ((a.mul b).add c)
  | .div => f.div a b
  | .sqrt => f.sqrt a
  | .min => f.round (a.min2 b)
  | .max => f.round (a.max2 b)
  | _ => 0

/-- Where a latent stands in its 16 × 16 tile, y × 16 + x (Table 9.5): its place in the tile's packing of WIDTH columns. -/
def ditherPosition (d : Dither) (i : Nat) : Nat :=
  let w := max 1 d.width
  (d.base + i) / w % 16 * 16 + (d.base + i) % w % 16

/-- The dither offset of a latent (R406): exact in FP32. -/
def ditherOffset (key : DWord) (frame : Nat) (dither : Option Dither) (i : Nat) : F32 :=
  match dither with
  | none => 0
  | some p =>
    let d : Int := (draw16 key 1 p.channel p.tile frame (ditherPosition p i)).toNat
    f32 (.fin (decide (2 * d - 65535 < 0)) (2 * d - 65535).natAbs (-17))

/-- A latent quantised to i16 (R407). -/
def quantiseElem (delta y : F32) : Nat := ofSigned 16 ((f32v (f32Add y delta)).toInt (-32768) 32767)
/-- A latent reconstructed from i16 (R407). -/
def reconstructElem (delta : F32) (q : Nat) : F32 := f32Sub (f32 (.ofInt (toSigned 16 q))) delta

/-- Purposes of a program draw (Table 9.5). -/
def drawPurpose (p : Nat) : Bool := p == 3 || (0x10 ≤ p && p ≤ 0xFE)

/-- Arithmetic formats of the vector unit. -/
def vectorFmt (code : Nat) : Option Fmt := if code = 0x12 ∨ code = 0x13 ∨ code = 0x14 then fmtOf code else none

/-- The bytes a vector operation writes; none where its formats do not allow it. -/
def vectorBytes (s : State) (x : UnitRun) (key : DWord) (frame : Nat) (v : VecArgs) : Option (List Byte) :=
  let idx := List.range v.n
  match v.op with
  | .convert fmt st =>
    if outFmtOk v.fmt && outFmtOk fmt then
      let a := s.operand x v.a (elemBytes v.fmt v.n)
      some (packPatterns fmt (idx.map fun i =>
        convertElem key frame fmt (if v.fmt = 0x14 ∧ v.free then st else none) i (elemAt v.fmt a i)))
    else none
  | .draw d =>
    if drawPurpose d.purpose then
      some (idx.flatMap fun i => natLe 2 (draw16 key d.purpose d.plane d.tile frame (d.base + i)).toNat)
    else none
  | .quantise dither =>
    let a := s.operand x v.a (4 * v.n)
    some (idx.flatMap fun i => natLe 2 (quantiseElem (ditherOffset key frame dither i) (leAt a (4 * i) 4)))
  | .reconstruct dither =>
    let a := s.operand x v.a (2 * v.n)
    some (idx.flatMap fun i => natLe 4 (reconstructElem (ditherOffset key frame dither i) (leAt a (2 * i) 2)))
  | op =>
    match vectorFmt v.fmt with
    | none => none
    | some f =>
      let n := elemBytes v.fmt v.n
      let a := s.operand x v.a n
      let b := s.operand x v.b n
      let c := s.operand x v.c n
      if op = .compare then
        some (idx.map fun i => BitVec.ofNat 8 (compareCode (elemAt v.fmt a i) (elemAt v.fmt b i)))
      else
        some (packPatterns v.fmt (idx.map fun i => vectorElem op f (elemAt v.fmt a i) (elemAt v.fmt b i) (elemAt v.fmt c i)))

/-- VECTOR_OP (R148). -/
def execVectorOp (ctx unit : Nat) (args : VecArgs) (s : State) : Host.Outcome State Fault Refusal :=
  match s.coreIssuer? ctx unit with
  | none => .next s
  | some (f, _, x) =>
    match vectorBytes s x (s.ctx ctx).key f.no args with
    | some d => .next (s.takeFree.putTile x args.dst d)
    | none => .next s

/-- FUNCTION_UNIT_EVAL (R183): both formats are floating ones. -/
def execFunctionUnitEval (ctx unit : Nat) (f : FuFn) (fmt n : Nat) (src : Src) (outFmt dst : Nat) (s : State) :
    Host.Outcome State Fault Refusal :=
  match s.coreIssuer? ctx unit with
  | none => .next s
  | some (_, r, x) =>
    if (fmtOf fmt).isNone || (fmtOf outFmt).isNone then .next s
    else
      let a := s.operand x src (elemBytes fmt n)
      .next (s.takeFree.putTile x dst (packPatterns outFmt
        ((List.range n).map fun i => s.fu r.tier f fmt (elemPattern fmt a i) outFmt)))

/-! ### Rows (R195 to R208) -/

/-- The index range of a virtual partition. -/
def partLo (n p : Nat) : Nat := p * n / 64

/-- A node of a reduction: elements covered and the values A and B (Table 5.7). -/
structure Node where
  c : Nat
  a : F32
  b : F32
deriving DecidableEq, Repr

def Node.absent : Node := ⟨0, 0, 0⟩

/-- A range's sum, from its first element on (R195). -/
def sumNode : List F32 → Node
  | [] => .absent
  | x :: r => ⟨r.length + 1, r.foldl f32Add x, 0⟩

/-- A range's maximum and its count of +∞ (KIND 2). -/
def maxNode : List F32 → Node
  | [] => .absent
  | x :: r => ⟨r.length + 1, f32 (r.foldl (fun m y => m.max2 (f32v y)) (f32v x)),
      ((x :: r).filter fun y => y == fp32.infBits).length⟩

/-- A range's statistics (R204). -/
def statNode (xs : List F32) : Node :=
  xs.foldl (fun n x =>
    let c := n.c + 1
    let delta := f32Sub x n.a
    let mean := f32Add n.a (f32Div delta (f32OfNat c))
    let delta2 := f32Sub x mean
    ⟨c, mean, f32Fma delta delta2 n.b⟩) .absent

/-- The combine step of two statistics (R205). -/
def statCombine (a b : Node) : Node :=
  let c := a.c + b.c
  let delta := f32Sub b.a a.a
  let w := f32Div (f32OfNat b.c) (f32OfNat c)
  let t := f32Mul delta w
  let mean := f32Add a.a t
  let k := f32Ratio (a.c * b.c) c
  let u := f32Mul delta delta
  let v := f32Mul u k
  let s := f32Add a.b b.b
  ⟨c, mean, f32Add s v⟩

/-- Node of a range, and the combine step, by KIND. -/
def nodeOf (kind : Nat) (xs : List F32) : Node :=
  if kind = 1 then sumNode xs else if kind = 2 then maxNode xs else statNode xs
def nodeCombine (kind : Nat) (a b : Node) : Node :=
  if a.c = 0 then b
  else if b.c = 0 then a
  else if kind = 1 then ⟨a.c + b.c, f32Add a.a b.a, 0⟩
  else if kind = 2 then ⟨a.c + b.c, f32 ((f32v a.a).max2 (f32v b.a)), a.b + b.b⟩
  else statCombine a b

/-- One level of the tree: neighbours combined in pairs. -/
def pairUp (kind : Nat) : List Node → List Node
  | a :: b :: r => nodeCombine kind a b :: pairUp kind r
  | r => r

/-- `lev` levels of the tree above a list of nodes. -/
def treeUp (kind : Nat) : Nat → List Node → List Node
  | 0, l => l
  | n + 1, l => treeUp kind n (pairUp kind l)

/-- The 64 partition nodes of a row. -/
def partNodes (kind : Nat) (xs : List F32) : List Node :=
  (List.range 64).map fun p => nodeOf kind ((xs.drop (partLo xs.length p)).take (partLo xs.length (p + 1) - partLo xs.length p))

/-- The Surveyed reduction of a row: the root of the tree (R195). -/
def fixedReduce (kind : Nat) (xs : List F32) : Node := (treeUp kind 6 (partNodes kind xs)).headD .absent

/-- A row cut into the cores' ranges; what the lengths leave over is the last range. -/
def cutRanges : List Nat → List F32 → List (List F32)
  | [], xs => [xs]
  | n :: r, xs => xs.take n :: cutRanges r (xs.drop n)

/-- The Free reduction of a row: the cores' ranges folded in their order (R197). -/
def freeReduce (kind : Nat) (parts : List Nat) (xs : List F32) : Node :=
  ((cutRanges parts xs).map (nodeOf kind)).foldl (nodeCombine kind) .absent

/-- The reduction of a row in its mode. -/
def reduceRow (kind : Nat) (a : RowArgs) (xs : List F32) : Node :=
  if a.free then freeReduce kind a.parts xs else fixedReduce kind xs

/-- `n` elements of a format at a row operand, as FP32. -/
def elemsAt (s : State) (x : UnitRun) (a : RowArgs) (n : Nat) : List F32 :=
  (elems a.fmt n (s.operand x a.src (elemBytes a.fmt n))).map f32

/-- A row's elements as FP32. -/
def rowElems (s : State) (x : UnitRun) (a : RowArgs) : List F32 := elemsAt s x a a.n

/-- Patterns of FP32 values converted to an output format. -/
def rowOut (fmt : Nat) (ys : List F32) : List Byte := packPatterns fmt (ys.map fun y => toPattern fmt (f32v y))

/-- A row instruction's element count is in range (R210). -/
def rowLenOk (n : Nat) : Bool := 1 ≤ n && n ≤ 2 ^ 24

/-- A row instruction on the unit that issues it: E-SYS-25 outside R210, nothing where a format does not exist. -/
def rowOp (ctx unit : Nat) (args : RowArgs) (fmtsOk : Bool) (out : FrameRun → UnitRun → List Byte) (s : State) :
    Host.Outcome State Fault Refusal :=
  match s.coreIssuer? ctx unit with
  | none => .next s
  | some (_, r, x) =>
    if !fmtsOk then .next s
    else if !rowLenOk args.n then .next (s.unitFault ctx x .sys 25)
    else .next (s.takeFree.putTile x args.dst (out r x))

/-- ROW_REDUCE (R195, R197). -/
def execRowReduce (ctx unit : Nat) (args : RowArgs) (s : State) : Host.Outcome State Fault Refusal :=
  rowOp ctx unit args ((fmtOf args.fmt).isSome && outFmtOk args.outFmt)
    (fun _ x => rowOut args.outFmt [(reduceRow 1 args (rowElems s x args)).a]) s

/-- Patterns of a soft maximum's outputs (R201, R202). -/
def softPatterns (s : State) (tier : Nat) (a : RowArgs) (f : Fmt) (xs : List F32) : List Nat :=
  let m := reduceRow 2 a xs
  if xs.any fun x => (f32v x).isNan then xs.map fun _ => f.nanBits
  else if m.b ≠ 0 then xs.map fun x => if x = fp32.infBits then f.div (.ofInt 1) (.ofInt m.b) else 0
  else if m.a = fp32.signed true fp32.infBits then xs.map fun _ => 0
  else if a.free then
    let es := xs.map fun x => s.fu tier .exp 0x14 (f32Sub x m.a) 0x14
    let r := s.fu tier .recip 0x14 (reduceRow 1 a es).a 0x14
    es.map fun e => f.round (f32v (f32Mul e r))
  else
    let es := xs.map fun x => f32 (fp16.decode (s.fu tier .exp 0x14 (f32Sub x m.a) 0x12))
    let sum := (reduceRow 1 a es).a
    es.map fun e => f.div (f32v e) (f32v sum)

/-- SOFT_MAXIMUM (R201, R202). -/
def execSoftMaximum (ctx unit : Nat) (args : RowArgs) (s : State) : Host.Outcome State Fault Refusal :=
  rowOp ctx unit args ((vectorFmt args.fmt).isSome && (fmtOf args.outFmt).isSome)
    (fun r x => packPatterns args.outFmt
      (softPatterns s r.tier args ((fmtOf args.outFmt).getD fp32) (rowElems s x args))) s

/-- FP32 outputs of a normalisation (R206, R207). -/
def normValues (s : State) (tier : Nat) (a : RowArgs) (g : NormArgs) (xs : List F32) : List F32 :=
  if xs.any fun x => (f32v x).isNan || (f32v x).isInf then xs.map fun _ => fp32.nanBits
  else
    let st := reduceRow 3 a xs
    let var := f32Div st.b (f32OfNat st.c)
    let q := f32Add var g.eps.toNat
    let inv := if a.free then s.fu tier .rsqrt 0x14 q 0x14 else f32Div (f32OfNat 1) (fp32.sqrt (f32v q))
    xs.map fun x =>
      let y := f32Mul (f32Sub x st.a) inv
      let y := match g.gamma with | some w => f32Mul y w.toNat | none => y
      match g.beta with | some w => f32Add y w.toNat | none => y

/-- NORMALISATION (R204 to R207). -/
def execNormalisation (ctx unit : Nat) (args : RowArgs) (norm : NormArgs) (s : State) : Host.Outcome State Fault Refusal :=
  rowOp ctx unit args ((fmtOf args.fmt).isSome && outFmtOk args.outFmt)
    (fun r x => rowOut args.outFmt (normValues s r.tier args norm (rowElems s x args))) s

/-! ### Row partials (R198, R199) -/

/-- The 16 bytes of a row partial (Table 5.7). -/
def rowPartial (kind level node : Nat) (x : Node) : List Byte :=
  natLe 1 kind ++ natLe 1 level ++ natLe 2 node ++ natLe 4 x.c ++ natLe 4 x.a ++ natLe 4 x.b

/-- The whole nodes, at most `lev` levels up, that start at a partition and end by another; with fuel for partitions:
the smallest set that covers p0 to p1, in ascending order. -/
def coverNodes : Nat → Nat → Nat → List (Nat × Nat)
  | 0, _, _ => []
  | n + 1, p0, p1 =>
    if p1 < p0 then []
    else
      let lev := ([6, 5, 4, 3, 2, 1].find? fun l => p0 % 2 ^ l = 0 && p0 + 2 ^ l ≤ p1 + 1).getD 0
      (lev, p0 / 2 ^ lev) :: coverNodes n (p0 + 2 ^ lev) p1

/-- The first element of what an emission covers, and the first beyond it. A partition above 63 is taken as 63, and an
element beyond the row as its end (DESIGN CHOICE, log 134). -/
def emitRange (e : EmitArgs) (a : RowArgs) : Nat × Nat :=
  if a.free then (e.p0, min e.p1 a.n) else (partLo a.n e.p0, partLo a.n (min e.p1 63 + 1))

/-- The elements of an emission's part of the row. -/
def emitElems (s : State) (x : UnitRun) (a : RowArgs) (e : EmitArgs) : List F32 :=
  elemsAt s x a ((emitRange e a).2 - (emitRange e a).1)

/-- What a row-partial emission writes: in Surveyed mode one partial for each node of the smallest cover, where a maximum
names no node (Table 5.7). With p1 below p0 there is none (DESIGN CHOICE, log 134). -/
def emitBytes (a : RowArgs) (e : EmitArgs) (xs : List F32) : List Byte :=
  if a.free then rowPartial e.kind 0xFF 0 (nodeOf e.kind xs)
  else
    let node (p : Nat) := nodeOf e.kind
      ((xs.drop (partLo a.n p - partLo a.n e.p0)).take (partLo a.n (p + 1) - partLo a.n p))
    (coverNodes 64 e.p0 (min e.p1 63)).flatMap fun c =>
      let x := (treeUp e.kind c.1 ((List.range (2 ^ c.1)).map fun i => node (c.2 * 2 ^ c.1 + i))).headD .absent
      if e.kind = 2 then rowPartial 2 0xFF 0 x else rowPartial e.kind c.1 c.2 x

/-- ROW_PARTIAL_EMIT (R199); in Free mode p0 and p1 bound the core's range of elements. -/
def execRowPartialEmit (ctx unit : Nat) (args : RowArgs) (emit : EmitArgs) (s : State) : Host.Outcome State Fault Refusal :=
  rowOp ctx unit args ((fmtOf args.fmt).isSome && (1 ≤ emit.kind && emit.kind ≤ 3))
    (fun _ x => emitBytes args emit (emitElems s x args emit)) s

/-- A row partial as its fields. -/
def readNode (b : List Byte) : Node := ⟨leAt b 4 4, leAt b 8 4, leAt b 12 4⟩

/-- The merge of two row partials; none is E-SYS-26 (R199, Table 5.10). Two of one KIND that Table 5.7 does not have (0, or
above 3) are refused with it as well (DESIGN CHOICE, log 135). -/
def mergeRowPartials (a b : List Byte) : Option (List Byte) :=
  let ka := leAt a 0 1
  let la := leAt a 1 1
  let na := leAt a 2 2
  let lb := leAt b 1 1
  let nb := leAt b 2 2
  if ka ≠ leAt b 0 1 ∨ ka = 0 ∨ 3 < ka ∨ la ≠ lb then none
  else
    let m := nodeCombine ka (readNode a) (readNode b)
    let m : Node := ⟨m.c % 2 ^ 32, m.a, m.b % 2 ^ 32⟩
    if la = 0xFF then some (rowPartial ka 0xFF 0 m)
    else if la < 6 ∧ na % 2 = 0 ∧ nb = na + 1 then some (rowPartial ka (la + 1) (na / 2) m)
    else none

/-- ROW_PARTIAL_MERGE (R199). -/
def execRowPartialMerge (ctx unit : Nat) (a b : Src) (dst : Nat) (s : State) : Host.Outcome State Fault Refusal :=
  match s.coreIssuer? ctx unit with
  | none => .next s
  | some (_, _, x) =>
    match mergeRowPartials (s.operand x a 16) (s.operand x b 16) with
    | some d => .next (s.takeFree.putTile x dst d)
    | none => .next (s.unitFault ctx x .sys 26)

end Sys2Proof.Machine
end

