-- ==== Sys2Proof/Machine/EntropyCodec.lean ====
section
/-!
DEFINITION. Machine/EntropyCodec.lean: the tile coder of the entropy engines: alphabets, the four-lane rANS coder,
escapes, the tile check and the two tile forms (R362 to R381).
-/
namespace Sys2Proof.Machine

/-! ### Alphabets (R368) -/

/-- FP16 bits of a value in [−0, 1] as the value × 2^24. -/
def f24 (h : Nat) : Nat :=
  let e := nfld h 10 5
  let m := h % 1024
  if e = 0 then m else (1024 + m) * 2 ^ (e - 1)

/-- A symbol's alphabet: window start and the cumulative values cum(0) to cum(K). -/
structure Alphabet where
  off : Int
  cum : List Nat
deriving DecidableEq, Repr

def cumOf (phi : List Nat) : List Nat :=
  let k := phi.length + 1
  0 :: ((withIndex phi).map fun p => f24 p.2 * (65536 - k) / 2 ^ 24 + (p.1 + 1)) ++ [65536]

def Alphabet.make (off : Int) (phi : List Nat) : Alphabet := { off := off, cum := cumOf phi }
/-- Window symbols; the escape symbol has this number. -/
def Alphabet.n (a : Alphabet) : Nat := a.cum.length - 2
def Alphabet.low (a : Alphabet) (s : Nat) : Nat := a.cum.getD s 0
def Alphabet.freq (a : Alphabet) (s : Nat) : Nat := a.low (s + 1) - a.low s
def Alphabet.has (a : Alphabet) (v : Int) : Bool := a.off ≤ v && v < a.off + a.n

/-- to_symbol (R371): the symbol, and the escape code of a value outside the window. -/
def Alphabet.symbol (a : Alphabet) (v : Int) : Nat × Option Nat :=
  if a.has v then ((v - a.off).toNat, none)
  else if v < a.off then (a.n, some (2 * (a.off - 1 - v).toNat + 1))
  else (a.n, some (2 * (v - a.off - a.n).toNat))

/-- from_escape (R371). -/
def Alphabet.escaped (a : Alphabet) (u : Nat) : Option Int :=
  let v : Int := if u % 2 = 1 then a.off - 1 - (u / 2 : Nat) else a.off + a.n + (u / 2 : Nat)
  if v < -32768 ∨ 32767 < v then none else some v

/-- The symbol whose range of cumulative values holds a slot. -/
def Alphabet.find (a : Alphabet) (slot : Nat) : Nat := ((a.cum.drop 1).takeWhile fun c => c ≤ slot).length

/-! ### Table sets (Tables 10.2, 10.3, R369, R370) -/

structure TableSet where
  thresholds : List Nat
  tables : List Alphabet
deriving DecidableEq, Repr

/-- Φ values lie in [−0, 1] and never fall. -/
def phiOk (phi : List Nat) : Bool :=
  phi.all (fun h => (h < 0x8000 || h == 0x8000) && f24 h ≤ 2 ^ 24) &&
  (phi.zip (phi.drop 1)).all fun p => f24 p.1 ≤ f24 p.2

/-- Bytes of a table set, as its COUNT gives them; the header alone where COUNT is not 1 to 64. -/
def setBytes (count : Nat) : Nat := if 1 ≤ count ∧ count ≤ 64 then 192 + 576 * count else 192

/-- One scale table record. -/
def readTable (b : List Byte) : Option Alphabet :=
  let n := leAt b 0 2
  let off := toSigned 16 (leAt b 2 2)
  let phi := (List.range n).map fun i => leAt b (8 + 2 * i) 2
  if 1 ≤ n ∧ n ≤ 256 ∧ off + (n : Int) - 1 ≤ 32767 ∧ leAt b 4 4 = 0 ∧ phiOk phi ∧ zeros (b.drop (8 + 2 * n)) then
    some (Alphabet.make off phi) else none

def readTables (b : List Byte) : Nat → Option (List Alphabet)
  | 0 => some []
  | t + 1 =>
    match readTables b t, readTable (slice b (192 + 576 * t) 576) with
    | some l, some a => some (l ++ [a])
    | _, _ => none

/-- Thresholds are finite and strictly ascending. -/
def threshOk (ts : List Nat) : Bool :=
  ts.all (fun h => !(fp16.decode h).isNan && !(fp16.decode h).isInf) &&
  (ts.zip (ts.drop 1)).all fun p => (fp16.decode p.1).lt (fp16.decode p.2)

/-- A valid table set (R369). -/
def readTableSet (b : List Byte) : Option TableSet :=
  let count := leAt b 0 2
  let ts := (List.range (count - 1)).map fun i => leAt b (8 + 2 * i) 2
  if 1 ≤ count ∧ count ≤ 64 ∧ leAt b 2 2 = 0 ∧ leAt b 4 4 = 192 + 576 * count ∧ threshOk ts ∧
      zeros (slice b (8 + 2 * (count - 1)) (184 - 2 * (count - 1))) then
    (readTables b count).map fun l => { thresholds := ts, tables := l }
  else none

def TableSet.widest (t : TableSet) : Alphabet := t.tables.getLastD { off := 0, cum := [] }

/-- The table of a selector, and whether the symbol is a fallback (R370). -/
def TableSet.select (t : TableSet) (sel : Nat) : Alphabet × Bool :=
  let x := fp16.decode sel
  if x.isNan then (t.widest, true)
  else (t.tables.getD (t.thresholds.filter fun h => !x.lt (fp16.decode h)).length t.widest, false)

/-! ### Mixtures (R373, R374) -/

/-- A component: location, scale and weight logit, as FP16 bits. -/
structure Component where
  mu : Nat
  sc : Nat
  a : Nat
deriving DecidableEq, Repr

def readComponents (b : List Byte) (k : Nat) : List Component :=
  (List.range k).map fun j => { mu := leAt b (6 * j) 2, sc := leAt b (6 * j + 2) 2, a := leAt b (6 * j + 4) 2 }

def finite16 (h : Nat) : Bool := !(fp16.decode h).isNan && !(fp16.decode h).isInf

/-- A symbol's mixture can be used (R374). -/
def usable (k : Nat) (cs : List Component) : Bool :=
  1 ≤ k && k ≤ 4 && cs.all fun c => finite16 c.mu && finite16 c.sc && finite16 c.a && Fl.zero.lt (fp16.decode c.sc)

/-- The component weights: a Surveyed soft maximum with FP16 output. -/
def weights (s : State) (cs : List Component) : List Nat :=
  softPatterns s 0 { free := false, fmt := 0x12, n := cs.length, src := .imm [], outFmt := 0x12, dst := 0, parts := [] } fp16
    (cs.map fun c => f32 (fp16.decode c.a))

/-- mix_f at a boundary, an FP32 value. -/
def mixF (s : State) (cs : List Component) (ws : List Nat) (b : F32) : Nat :=
  fp16.round (f32v ((cs.zip ws).foldl (fun acc p =>
    let t := f32Sub b (f32 (fp16.decode p.1.mu))
    let z := f32Div t (f32 (fp16.decode p.1.sc))
    let g := s.fu 0 .logistic 0x14 z 0x12
    f32Add acc (f32Mul (f32 (fp16.decode p.2)) (f32 (fp16.decode g)))) (0 : Nat)))

/-- An integer minus one half, in FP32. -/
def halfBelow (i : Int) : F32 := f32 (.fin (decide (2 * i - 1 < 0)) (2 * i - 1).natAbs (-1))

/-- clamp(d, +0, 1) of an FP16 value. -/
def clampUnit (h : Nat) : Nat :=
  let x := fp16.decode h
  if x.lt .zero then 0 else if (Fl.ofInt 1).lt x then 0x3C00 else h

/-- The alphabet of a mixture. -/
def mixAlphabet (s : State) (off : Int) (n : Nat) (cs : List Component) : Alphabet :=
  let ws := weights s cs
  let lo := fp16.decode (mixF s cs ws (halfBelow off))
  Alphabet.make off ((List.range n).map fun (i : Nat) =>
    clampUnit (fp16.round ((fp16.decode (mixF s cs ws (halfBelow (off + (i : Nat) + 1)))).add lo.neg)))

/-- Each symbol's alphabet and whether it is a fallback, from PARAMS. -/
def alphabets (s : State) (t : TableSet) (mix : Bool) (mixN mixK : Nat) (mixOff : Int) (n : Nat) (params : List Byte) :
    List (Alphabet × Bool) :=
  (List.range n).map fun i =>
    if mix then
      let cs := readComponents (slice params (24 * i) 24) mixK
      if usable mixK cs then (mixAlphabet s mixOff mixN cs, false) else (t.widest, true)
    else t.select (leAt params (2 * i) 2)

/-! ### The coder (R365, R372, R367) -/

/-- Four lane states and the words, in the order the decoder reads them. -/
structure Rans where
  x : List Nat
  words : List Nat
deriving DecidableEq, Repr

def Rans.start : Rans := { x := [65536, 65536, 65536, 65536], words := [] }

def Rans.encode (r : Rans) (i c f : Nat) : Rans :=
  let l := i % 4
  let x := r.x.getD l 0
  let y := if f * 65536 ≤ x then x / 65536 else x
  { x := r.x.set l ((y / f) * 65536 + y % f + c), words := if f * 65536 ≤ x then x % 65536 :: r.words else r.words }

/-- put_eg (R372). -/
def egBits (u : Nat) : List Bool :=
  let w := u + 1
  let z := w.log2
  List.replicate z false ++ (List.range (z + 1)).map fun b => w.testBit (z - b)

/-- Bits packed into 16-bit words from the most significant bit. -/
def packBits : Nat → List Bool → List Byte
  | 0, _ => []
  | fuel + 1, bs =>
    if bs.isEmpty then []
    else natLe 2 ((List.range 16).foldl (fun a i => 2 * a + (if bs.getD i false then 1 else 0)) 0) ++ packBits fuel (bs.drop 16)

/-- A substream (Table 10.1). -/
def substream (vs : List Int) (as_ : List Alphabet) : List Byte :=
  let syms := (vs.zip as_).map fun p => (p.2, p.2.symbol p.1)
  let r := (withIndex syms).foldr (fun p r => r.encode p.1 (p.2.1.low p.2.2.1) (p.2.1.freq p.2.2.1)) Rans.start
  let bits := syms.flatMap fun p => match p.2.2 with | some u => egBits u | none => []
  natLe 4 r.words.length ++ natLe 4 bits.length ++ r.x.flatMap (natLe 4) ++ r.words.flatMap (natLe 2) ++
    packBits (bits.length + 1) bits

/-- An escape tile (Table 10.4). -/
def escapeTile (vs : List Int) : List Byte := natLe 4 vs.length ++ natLe 4 0 ++ vs.flatMap fun v => natLe 2 (ofSigned 16 v)

/-- The tile check (R376). -/
def tileCheck (vs : List Int) : Nat := crcMsb 16 0x1021 0xFFFF (vs.flatMap fun v => natLe 2 (ofSigned 16 v))

/-- Values outside the windows of their alphabets. -/
def escapeCount (vs : List Int) (as_ : List Alphabet) : Nat := ((vs.zip as_).filter fun p => !p.2.has p.1).length

/-- A tile record (Table 10.6). -/
def tileRecord (len check form flags n fallbacks escapes : Nat) : List Byte :=
  natLe 4 len ++ natLe 2 check ++ natLe 1 form ++ natLe 1 flags ++ natLe 4 n ++ natLe 2 (min fallbacks 65535) ++
    natLe 2 (min escapes 65535)

/-! ### Decoding (R366, R381) -/

structure DecRun where
  x : List Nat
  words : List Nat
  bits : List Bool
  vals : List Int
  bad : Bool
deriving DecidableEq, Repr

/-- get_eg (R372): the code and the bits left; none where malformed. -/
def getEg : Nat → Nat → List Bool → Option (Nat × List Bool)
  | 0, _, _ => none
  | fuel + 1, z, bs =>
    match bs with
    | [] => none
    | false :: r => if 17 ≤ z then none else getEg fuel (z + 1) r
    | true :: r =>
      if r.length < z then none
      else some ((r.take z).foldl (fun a b => 2 * a + (if b then 1 else 0)) 1 - 1, r.drop z)

def DecRun.step (r : DecRun) (p : Nat × Alphabet) : DecRun :=
  if r.bad then r
  else
    let a := p.2
    let l := p.1 % 4
    let x := r.x.getD l 0
    let slot := x % 65536
    let s := a.find slot
    let y := a.freq s * (x / 65536) + slot - a.low s
    if y < 65536 ∧ r.words.isEmpty then { r with bad := true }
    else
      let r := if y < 65536 then { r with x := r.x.set l (y * 65536 + r.words.headD 0), words := r.words.drop 1 }
        else { r with x := r.x.set l y }
      if s = a.n then
        match getEg 19 0 r.bits with
        | none => { r with bad := true }
        | some (u, bits) =>
          match a.escaped u with
          | none => { r with bad := true }
          | some v => { r with bits := bits, vals := v :: r.vals }
      else { r with vals := (a.off + s) :: r.vals }

/-- The bits of 16-bit words, most significant first. -/
def wordBits (b : List Byte) : List Bool :=
  (List.range (b.length / 2)).flatMap fun i => (List.range 16).map fun j => (leAt b (2 * i) 2).testBit (15 - j)

/-- A substream decoded: the values decoded before a fault, and whether the tile is malformed. -/
def decodeSub (slot : List Byte) (as_ : List Alphabet) : List Int × Bool :=
  if slot.length < 24 then ([], true)
  else
    let rw := leAt slot 0 4
    let bb := leAt slot 4 4
    let body := slot.drop 24
    let words := (List.range (min rw (body.length / 2))).map fun i => leAt body (2 * i) 2
    let bw := (bb + 15) / 16
    let all := wordBits ((body.drop (2 * rw)).take (2 * bw))
    let start : DecRun := {
      x := (List.range 4).map fun l => leAt slot (8 + 4 * l) 4, words := words, bits := all.take bb, vals := [], bad := false }
    let r := (withIndex as_).foldl DecRun.step start
    let left := !r.words.isEmpty || decide (body.length / 2 < rw) || (r.x.any fun x => x != 65536) || !r.bits.isEmpty ||
      decide (all.length < bb) || ((all.drop bb).any fun b => b) || slot.length != 24 + 2 * rw + 2 * bw
    (r.vals.reverse, r.bad || left)

/-- An escape tile decoded. -/
def decodeEscape (slot : List Byte) (n : Nat) : List Int × Bool :=
  if leAt slot 0 4 = n ∧ slot.length = 8 + 2 * n then
    ((List.range n).map fun i => toSigned 16 (leAt slot (8 + 2 * i) 2), false)
  else ([], true)

/-- The FLAGS of a decoded tile. -/
def decFlags (fallback checkFail malformed mismatch : Bool) : Nat :=
  bitAt 0 fallback + bitAt 1 checkFail + bitAt 2 malformed + bitAt 3 mismatch

end Sys2Proof.Machine
end

