-- ==== Sys2Proof/Machine/Entropy.lean ====
section
/-!
DEFINITION. Machine/Entropy.lean: the entropy commands: their start, the tile they code, their completion, and the fatal
error of an engine (R360, R377 to R383, R390).
-/
namespace Sys2Proof.Machine

/-- An entropy command (Table 10.5) with who issued it. -/
structure EcStart where
  engine : Nat
  ctx : Nat
  frame : Nat
  unit : Nat
  raw : List Byte

def EcStart.at_ (x : EcStart) (off n : Nat) : Nat := leAt x.raw off n
def EcStart.flag (x : EcStart) (i : Nat) : Bool := (x.at_ 1 1).testBit i
def EcStart.decodes (x : EcStart) : Bool := x.at_ 0 1 == 2
def EcStart.mix (x : EcStart) : Bool := x.flag 1
def EcStart.symbols (x : EcStart) : Nat := (x.at_ 3 1 + 1) * x.at_ 6 1 * x.at_ 7 1
def EcStart.mixOff (x : EcStart) : Int := toSigned 16 (x.at_ 0x26 2)
def EcStart.cap (x : EcStart) : Nat := x.at_ 0x20 4
def EcStart.issuer (x : EcStart) : Issuer := .unit x.ctx x.frame x.unit
def EcStart.space (x : EcStart) (lo : Nat) : Nat := nfld (x.at_ 2 1) lo 2

/-- A command meets Table 10.5 (E-EC-01). -/
def EcStart.formOk (x : EcStart) : Bool :=
  let op := x.at_ 0 1
  x.raw.length == 64 && (op == 1 || op == 2) && x.at_ 1 1 < 8 &&
  x.space 0 != 0 && x.space 4 != 0 && [0, 2, 4, 6].all (fun lo => x.space lo != 3) &&
  x.at_ 4 2 < 256 && 1 ≤ x.at_ 6 1 && x.at_ 6 1 ≤ 16 && 1 ≤ x.at_ 7 1 && x.at_ 7 1 ≤ 16 &&
  (if x.mix then 1 ≤ x.at_ 0x24 2 && x.at_ 0x24 2 ≤ 256 && decide (x.mixOff + (x.at_ 0x24 2 : Nat) - 1 ≤ 32767)
   else x.at_ 0x24 2 == 0 && x.at_ 0x26 2 == 0 && x.at_ 0x38 1 == 0) &&
  x.at_ 0x28 8 % 16 == 0 && x.at_ 0x3B 1 == 0 && x.at_ 0x3E 2 == 0 &&
  (if op == 1 then x.at_ 0x39 1 == 0 && x.at_ 0x3A 1 == 0 && x.at_ 0x3C 2 == 0 else x.at_ 0x39 1 ≤ 1 && x.at_ 0x3A 1 ≤ 1)

def EcStart.values (x : EcStart) : Reach := { space := x.space 0, addr := x.at_ 8 8, len := 2 * x.symbols, write := x.decodes }
def EcStart.params (x : EcStart) : Reach :=
  { space := x.space 2, addr := x.at_ 0x10 8, len := (if x.mix then 24 else 2) * x.symbols, write := false }
def EcStart.slot (x : EcStart) : Reach := { space := x.space 4, addr := x.at_ 0x18 8, len := x.cap, write := !x.decodes }
def EcStart.record (x : EcStart) : Reach := { space := x.space 4, addr := x.at_ 0x28 8, len := 16, write := true }

def State.ecPlace (s : State) (x : EcStart) (r : Reach) : Option Place := s.locate x.issuer 0 r.space r.addr r.len r.write

/-- Bytes of a range, through the quarter's stream read cache unless volatile. -/
def State.ecRead (s : State) (x : EcStart) (r : Reach) : List Byte × State :=
  match s.ecPlace x r with
  | some (.mem a) => s.streamRead (x.engine / 4) (x.flag 0) a r.len
  | _ => ([], s)

/-- The table set a command names, as long as the COUNT that a read of it returns says. -/
def State.ecTables (s : State) (x : EcStart) : Reach :=
  let r : Reach := { space := x.space 6, addr := x.at_ 0x30 8, len := 192, write := false }
  { r with len := setBytes (leAt (s.ecRead x { r with len := 2 }).1 0 2) }

/-- The first bad granule that a read of a range meets. -/
def State.ecBad (s : State) (x : EcStart) (ue : UeList) (r : Reach) : Option (Nat × Bool × Nat) :=
  (s.ecPlace x r).bind fun p => s.badSource (x.engine / 4) (x.flag 0) ue p r.len

/-- An event of an entropy command. -/
def EcStart.ev (x : EcStart) (s : State) (blk : Block) (nn : Nat) : Ev :=
  { blk := blk, nn := nn, func := some (s.ctx x.ctx).func, quarter := some (x.engine / 4), unit := .entropy x.engine
    ctx := some x.ctx, frame := some x.frame }

/-- A command fails: its frame is lost with the root cause's code (R390, R671). -/
def State.ecFail (s : State) (x : EcStart) (nn : Nat) (root : Err) : State :=
  (s.report (x.ev s .ec nn)).loseFrame x.ctx x.frame root.lossCode

/-- A command meets a bad granule: E-MEM-02 or E-MEM-03, and E-EC-05. -/
def State.ecPoison (s : State) (x : EcStart) (nn : Nat) (b : Nat × Bool × Nat) : State :=
  (s.memError nn b.1 b.2.2 b.2.1 (x.ev s .mem nn)).ecFail x 5 ⟨.mem, nn⟩

/-- The engine keeps the set it has read among its last four (R383). -/
def EcEngine.keep (e : EcEngine) (addr : Nat) (bytes : List Byte) : EcEngine :=
  if e.sets.any fun d => d.addr == addr && d.bytes == bytes then e
  else
    let others := e.sets.filter fun d => d.addr != addr
    { e with sets := others.drop (others.length - 3) ++ [({ addr := addr, bytes := bytes } : DerivedSet)] }


/-- What a coded tile writes: its two ranges' bytes, form and flags. -/
structure Tile where
  first : Reach
  bytes : List Byte
  record : List Byte
  escTile : Bool
  flags : Nat

/-- ENCODE: substream where it fits its slot, else escape tile (R377, R380). -/
def encodeTile (x : EcStart) (vs : List Int) (as_ : List (Alphabet × Bool)) : Tile :=
  let al := as_.map Prod.fst
  let fb := (as_.filter fun p => p.2).length
  let sub := substream vs al
  let fits := decide (sub.length ≤ x.cap)
  let d := if fits then sub else escapeTile vs
  let flags := bitAt 0 (0 < fb)
  { first := { x.slot with len := d.length }, bytes := d, escTile := !fits, flags := flags
    record := tileRecord d.length (tileCheck vs) (if fits then 0 else 1) flags x.symbols fb (escapeCount vs al) }

/-- DECODE (R381): every value is written, those from a fault on as 0. -/
def decodeTile (x : EcStart) (slot : List Byte) (as_ : List (Alphabet × Bool)) : Tile :=
  let al := as_.map Prod.fst
  let fb := (as_.filter fun p => p.2).length
  let n := x.symbols
  let y := if x.at_ 0x39 1 = 1 then decodeEscape slot n else decodeSub slot al
  let vs := y.1 ++ List.replicate (n - y.1.length) 0
  let check := tileCheck vs
  let flags := decFlags (0 < fb) (check != x.at_ 0x3C 2) y.2 (decide (0 < fb) != (x.at_ 0x3A 1 == 1))
  { first := x.values, bytes := vs.flatMap fun v => natLe 2 (ofSigned 16 v), escTile := false, flags := flags
    record := tileRecord x.cap check (x.at_ 0x39 1) flags n fb (escapeCount y.1 al) }

/-- Start a tile's writes: any subset may have landed before completion. -/
def State.ecLaunch (s : State) (x : EcStart) (ue : UeList) (t : Tile) : State :=
  let put (r : Reach) (d : List Byte) : List (Dest × List Byte) := (s.ecPlace x { r with write := true }).elim [] fun p => p.writes d
  let ws := gatherWrites (put t.first t.bytes ++ put x.record t.record)
  let free := s.freeCount
  let bad := s.badMerge ue ws
  let ws' := match bad with
    | some b => ws.takeWhile fun w => !touchesGranule b.1 w
    | none => ws
  let now := ws'.filter fun w => Config.landed free (granuleIndex ws' w)
  let s := (now.foldl (fun u w => u.putDest w) s).takeFree
  match bad with
  | some b => s.ecPoison x 3 b
  | none =>
    let k := s.instTally x.ctx (x.at_ 4 2)
    let e := k.2.ecEngine x.engine
    let later := ws'.filter fun w => !Config.landed free (granuleIndex ws' w)
    let c : EcCmd := {
      serial := e.nextSerial, ctx := x.ctx, frame := x.frame, unit := x.unit, ordered := x.flag 2, tally := k.1
      todo := later, pages := writtenPages ws', symbols := x.symbols, escTile := t.escTile, flags := t.flags }
    k.2.setEcEngine x.engine { e with nextSerial := e.nextSerial + 1, started := e.started ++ [c] }

/-- The first fault found at the start, in the order of R390. -/
def State.ecStart (s : State) (x : EcStart) (ue : UeList) : State :=
  let tables := s.ecTables x
  let regions := [x.values, x.params, x.slot, x.record, tables]
  if !x.formOk then s.ecFail x 1 ⟨.ec, 1⟩
  else if !x.decodes && x.cap < 8 + 2 * x.symbols then s.ecFail x 2 ⟨.ec, 2⟩
  else if regions.any fun r => (s.ecPlace x r).isNone then s.ecFail x 4 ⟨.ec, 4⟩
  else
    let denied (r : Reach) : Option (Nat × Bool) := (s.ecPlace x r).bind fun p =>
      (s.rangeDenied x.issuer r.space p r.len r.write).map fun page => (page, r.write)
    match regions.findSome? denied with
    | some d =>
      (s.deny (s.issuerClass x.issuer) d.1 d.2 .frameContained (some (s.ctx x.ctx).func) (some x.ctx) (some x.frame)).ecFail
        x 4 ⟨.ec, 4⟩
    | none =>
      let set := s.ecRead x tables
      match s.ecBad x ue tables, readTableSet set.1 with
      | some b, _ => s.ecPoison x 2 b
      | none, none => set.2.ecFail x 3 ⟨.ec, 3⟩
      | none, some t =>
        let s := set.2
        let s := match s.ecPlace x tables with
          | some (.mem a) => s.setEcEngine x.engine ((s.ecEngine x.engine).keep a set.1)
          | _ => s
        let source := if x.decodes then x.slot else x.values
        match [source, x.params].findSome? (s.ecBad x ue) with
        | some b => s.ecPoison x 2 b
        | none =>
          let d := s.ecRead x source
          let p := d.2.ecRead x x.params
          let as_ := alphabets s t x.mix (x.at_ 0x24 2) (x.at_ 0x38 1) x.mixOff x.symbols p.1
          let tile := if x.decodes then decodeTile x d.1 as_
            else encodeTile x ((List.range x.symbols).map fun i => toSigned 16 (leAt d.1 (2 * i) 2)) as_
          p.2.ecLaunch x ue tile

/-- The head of a unit's queue, where it may start (R360): the engine works and has fewer than 16 in flight. ORDERED holds back
a command's completion only (R382). -/
def State.ecHead (s : State) (engine ctx unit : Nat) : Option EcStart :=
  match (s.ctx ctx).running with
  | none => none
  | some (f, r) =>
    match r.units.find? fun u => u.unit == unit && u.kind == 1 && u.place == engine with
    | none => none
    | some u =>
      let e := s.ecEngine engine
      match u.queue with
      | [] => none
      | d :: _ =>
        if !s.alive || r.cancelling || e.disabled || 16 ≤ e.started.length then none
        else some { engine := engine, ctx := ctx, frame := f.no, unit := unit, raw := d }

/-- A command of a row starts: opcodes outside Table 10.5 start, and fail, as ENCODE does. -/
def State.ecRow (s : State) (engine ctx unit : Nat) (decodes : Bool) (ue : UeList) : State :=
  match s.ecHead engine ctx unit with
  | none => s
  | some x =>
    if x.decodes = decodes then
      (s.modUnit ctx unit fun u => { u with queue := u.queue.drop 1 }).ecStart x ue
    else s

/-- ENCODE (R365, R377, R378, R390). -/
def execEncode (engine ctx unit : Nat) (ue : UeList) (s : State) : Host.Outcome State Fault Refusal :=
  .next (s.ecRow engine ctx unit false ue)
/-- DECODE (R366, R381, R390). -/
def execDecode (engine ctx unit : Nat) (ue : UeList) (s : State) : Host.Outcome State Fault Refusal :=
  .next (s.ecRow engine ctx unit true ue)

/-- The reports of a decoded tile's flags (R381), one for each flag. -/
def State.ecFlags (s : State) (engine : Nat) (k : EcCmd) : State :=
  let x : EcStart := { engine := engine, ctx := k.ctx, frame := k.frame, unit := k.unit, raw := [] }
  let check (t : State) : State :=
    State.report { t with ec := { t.ec with checkFail := true, checkFails := satInc t.ec.checkFails } } (x.ev t .ec 6)
  let s := if k.flags.testBit 1 then check s else s
  let s := if k.flags.testBit 3 then check s else s
  if k.flags.testBit 2 then
    State.report { s with ec := { s.ec with malformed := true, malformedCount := satInc s.ec.malformedCount } } (x.ev s .ec 7)
  else s

/-- An earlier command of the same unit is still in flight. -/
def EcEngine.earlier (e : EcEngine) (k : EcCmd) : Bool :=
  e.started.any fun y => y.ctx == k.ctx && y.frame == k.frame && y.unit == k.unit && y.serial < k.serial

/-- EC_COMMAND_COMPLETE (R382): its writes have landed, its tally increments, and the engine counts the tile; an ORDERED
command does not complete before the earlier ones of its unit. -/
def execEcCommandComplete (engine serial : Nat) (s : State) : Host.Outcome State Fault Refusal :=
  match (s.ecEngine engine).started.find? fun k => k.serial == serial with
  | none => .next s
  | some k =>
    if !s.alive || (k.ordered && (s.ecEngine engine).earlier k) then .next s
    else
      let s := (k.todo.foldl (fun t w => t.putDest w) s).invalidate k.pages
      let s := s.incTally k.tally
      let e := s.ecEngine engine
      let s := s.setEcEngine engine { e with
        started := e.started.filter fun y => y.serial != serial
        symbols := e.symbols + BitVec.ofNat 64 k.symbols
        tiles := e.tiles + 1
        escTiles := if k.escTile then satInc e.escTiles else e.escTiles
        fallbackTiles := if k.flags.testBit 0 then satInc e.fallbackTiles else e.fallbackTiles }
      .next (s.ecFlags engine k)

/-- EC_ENGINE_FATAL (R390): E-EC-09; the engine is disabled until warm reset and its frames restart elsewhere. -/
def execEcEngineFatal (engine : Nat) (s : State) : Host.Outcome State Fault Refusal :=
  if !s.alive || 16 ≤ engine || (s.ecEngine engine).disabled then .next s
  else
    let s := (s.setEcEngine engine { s.ecEngine engine with disabled := true, sets := [] }).report
      { blk := .ec, nn := 9, quarter := some (engine / 4), unit := .entropy engine }
    .next ((s.boundTo 1 engine).foldl (fun t c => t.restartFrame c) s)

end Sys2Proof.Machine
end

