-- ==== Sys2Proof/Machine/Handler.lean ====
section
/-!
DEFINITION. Machine/Handler.lean: the Handler-only reset and return, firmware activation, the mailbox, the alert causes and
the log rings' own registers (chapter 20).
-/
namespace Sys2Proof.Machine

/-! ### The Handler-only reset (R689, R690, Table 20.9) -/

/-- The Handler stops: its volatile state is cleared, each running mailbox command ends with RESULT 3, a test under way ends,
THR values freeze and the forecaster stops (Table 20.9, steps 1 and 2). The status responder takes SMBus (R561). -/
def State.stopHandler (s : State) : State :=
  let h := s.hnd
  State.smbusSettled { s with
    hnd := { h.cleared with
      fieldLocked := h.fieldLocked, resets := satInc h.resets, wdTimes := h.wdTimes, inReset := true
      updPolicy := h.updPolicy, updTransport := h.updTransport, updLast := h.updLast, unfenceQueue := h.unfenceQueue }
    fns := Tab.mapVal (fun _ g => { g with mailbox := g.mailbox.endWith 3 }) s.fns
    hrd := { s.hrd with cores := Tab.mapVal (fun _ c => { c with underTest := false }) s.hrd.cores }
    thm := { s.thm with forecaster := false }
    sup := { s.sup with lastReset := 3 }
    fb := { s.fb with work := { s.fb.work with
      counts := s.fb.work.counts.set 2 (s.fb.work.counts.getD 2 0 + 1) } } } s

/-- A Handler-only reset with its record; a transfer under way is abandoned with E-HND-06 (R690). -/
def State.handlerReset (s : State) (nn : Nat) : State :=
  let abandoned : Bool := 0 < s.hnd.updState.toNat && s.hnd.updState.toNat < 4
  let s := s.stopHandler
  let s := s.report { blk := .hnd, nn := nn }
  if abandoned then
    State.report { s with hnd := { s.hnd with updLast := 6 } } { blk := .hnd, nn := 6 }
  else s

/-- A watchdog reset: the third within 600 s leaves the Handler held in reset with E-HND-03 (R689). -/
def State.watchdogReset (s : State) : State :=
  let times := s.now :: s.hnd.wdTimes.filter fun t => s.now < t + 600000000000
  let s := State.handlerReset { s with hnd := { s.hnd with watchdogs := satInc s.hnd.watchdogs, wdTimes := times } } 1
  if 3 ≤ times.length then State.report { s with hnd := { s.hnd with held := true } } { blk := .hnd, nn := 3 } else s

/-- The Handler is under power and not in reset. -/
def State.handlerUp (s : State) : Bool := s.alive && !s.hnd.inReset && !s.hnd.held

/-- HANDLER_WATCHDOG_EXPIRY (R689). -/
def execHandlerWatchdogExpiry (s : State) : Host.Outcome State Fault Refusal :=
  .next (if s.handlerUp then s.watchdogReset else s)

/-- HANDLER_RESET_REQUEST (R689): HND_CTRL.RESET written by the physical function. -/
def execHandlerResetRequest (fn : Nat) (s : State) : Host.Outcome State Fault Refusal :=
  .next (if s.hostReach fn && fn == 0 && s.handlerUp then s.handlerReset 2 else s)

/-- FIRMWARE_ACTIVATE (R613): the selector is set and a Handler-only reset follows; with nothing to activate the request is
refused with E-HND-06. -/
def execFirmwareActivate (s : State) : Host.Outcome State Fault Refusal :=
  if !s.alive || !s.sup.mstate.serving || !s.hnd.running then .next s
  else if s.hnd.updState = 4 then
    .next (State.handlerReset { s with cad := { s.cad with preferB := !s.cad.preferB } } 2)
  else .next (s.report { blk := .hnd, nn := 6 })

/-- The Handler is waiting to return from a Handler-only reset. -/
def State.handlerReturning (s : State) : Bool := s.alive && s.hnd.inReset && !s.hnd.held && !s.hnd.stuck

/-- HANDLER_RETURN (Table 20.9, steps 3 to 6; R637): the boot ROM runs a bank that passes; while the boot window is open, or
where no boot code has run in this BOOT, boot code runs whole. Where no bank passes the Handler stays in reset. -/
def execHandlerReturn (s : State) : Host.Outcome State Fault Refusal :=
  if !s.handlerReturning then .next s
  else
    match s.chooseBank with
    | none => .next (reportWith 3 { blk := .cad, nn := 8 } { s with hnd := { s.hnd with stuck := true } })
    | some b =>
      let whole : Bool := s.cad.windowOpen || !s.cad.fwOk
      let s := s.runBank b.1 b.2
      let s := State.smbusSettled { s with hnd := { s.hnd with inReset := false } } s
      let s := if whole then s.bootCode
        else { (State.movePending { s with hnd := { s.hnd with running := true } }) with thm := s.thm.resume }
      .next (s.nextTest.raiseAlert (2 ^ 2))

/-- HANDLER_RETURN_TIMEOUT (R689): a Handler that has not returned in 2.5 s is reset again, as a watchdog reset. -/
def execHandlerReturnTimeout (s : State) : Host.Outcome State Fault Refusal :=
  .next (if s.handlerReturning then s.watchdogReset else s)

/-! ### The mailbox (R691, Table 20.10) -/

/-- A locked write to an HND_ field (E-HND-05). -/
def State.hndLocked (s : State) (fn off value : Nat) : State :=
  State.lockedRecord { s with hnd := { s.hnd with fieldLocked := true } } .hnd 5 fn off value

/-- What the running command will answer. -/
def State.mailboxAnswer (s : State) (fn : Nat) (result : BitVec 4) (rsp0 rsp1 : Nat) : State :=
  s.modFn fn fun g => { g with mailbox := { g.mailbox with
    todo := some (result, [BitVec.ofNat 64 rsp0, BitVec.ofNat 64 rsp1, 0, 0]) } }

/-- A refused command: RESULT 1 and E-HND-04. -/
def State.mailboxRefuse (s : State) (fn : Nat) : State :=
  (s.report { blk := .hnd, nn := 4, func := some fn }).mailboxAnswer fn 1 0 0

/-- The current state block as the Field book holds it. -/
def State.stateBlockBytes (s : State) : List Byte := (s.fb.current.getD s.fb.work).bytes s.fuses.moduleId

/-- The bytes of `count` events from the oldest held on. -/
def State.eventBytes (s : State) (first count : Nat) : List Byte :=
  ((s.fb.log.drop first).take count).flatMap fun r => r.bytes r.overflow

/-- Write a command's bytes to device memory under class HOST 0: a destination outside it is refused, a denied one ends
with RESULT 4, and a poisoned granule written in part is refused. -/
def State.mailboxWrite (s : State) (fn a : Nat) (d : List Byte) : State :=
  if !inDev a d.length then s.mailboxRefuse fn
  else
    match s.cadDenied 0 a d.length true with
    | some p => (s.deny 0 p true .reportOnly (some fn) none none).mailboxAnswer fn 4 0 0
    | none =>
      match s.badGranule [] (partGranules a d.length) with
      | some b => (s.memError 3 b.1 b.2.2 b.2.1 { blk := .mem, nn := 3, func := some fn }).mailboxRefuse fn
      | none => ((s.writeDev a d).invalidate (pages a d.length)).mailboxAnswer fn 0 d.length 0

/-- FB_COPY: the state block, or 1 to 4,096 events, to a 64-byte aligned destination. -/
def State.runFbCopy (s : State) (fn dest what first count : Nat) : State :=
  if fn ≠ 0 ∨ dest % 64 ≠ 0 then s.mailboxRefuse fn
  else if what = 0 then s.mailboxWrite fn dest s.stateBlockBytes
  else if what = 1 ∧ 1 ≤ count ∧ count ≤ 4096 ∧ first + count ≤ s.fb.log.length then
    s.mailboxWrite fn dest (s.eventBytes first count)
  else s.mailboxRefuse fn

/-- FB_EXPORT: one dictionary frame (DBITS 12, POLICY freeze) of the state block and the events named; where it does not fit
nothing is written and RSP1 is 1. -/
def State.runFbExport (s : State) (fn dest cap first count : Nat) : State :=
  if fn ≠ 0 ∨ 65536 < count ∨ s.fb.log.length < first + count then s.mailboxRefuse fn
  else
    let r := compressRun (DictCtx.first 0 12 0) true false true cap (s.stateBlockBytes ++ s.eventBytes first count)
    if r.full then s.mailboxAnswer fn 0 0 1 else s.mailboxWrite fn dest r.out.reverse

/-- NOTE: the caller's 24 bytes as E-ERL-08. -/
def State.runNote (s : State) (fn : Nat) (args : List DWord) : State :=
  let word (i : Nat) : Nat := (args.getD (i / 2) 0).toNat / 2 ^ (32 * (i % 2)) % 2 ^ 32
  (s.report { blk := .erl, nn := 8, func := some fn, detail := (List.range 6).map word }).mailboxAnswer fn 0 0 0

/-- The command a CODE names, on the arguments as they stand. -/
def State.mailboxRun (s : State) (fn code : Nat) : State :=
  let a := (s.fn fn).mailbox.args
  let n (i : Nat) : Nat := (a.getD i 0).toNat
  match code with
  | 1 => s.runFbCopy fn (n 0) (n 1) (n 2) (n 3)
  | 2 => s.runFbExport fn (n 0) (n 1) (n 2) (n 3)
  | 3 => s.runNote fn a
  | _ => s.mailboxRefuse fn

/-- HND_MB_CMD written with GO and a CODE (Table 20.15): CODE is locked while BUSY and GO then starts nothing; a GO while the
Handler is absent ends at once with RESULT 2. -/
def State.mailboxGo (s : State) (fn code : Nat) : State :=
  let m := (s.fn fn).mailbox
  if !s.hostReach fn then s
  else if m.busy then s.hndLocked fn 0x2400014 (2 ^ 31 + code)
  else if !s.hnd.running then
    s.modFn fn fun g => { g with mailbox := { m with code := BitVec.ofNat 8 code, done := true, result := 2 } }
  else
    State.mailboxRun (s.modFn fn fun g => { g with mailbox := { m with code := BitVec.ofNat 8 code, done := false, busy := true } })
      fn code

/-- FB_COPY: HND_MB_CMD written with CODE 0x01 and GO. -/
def execFbCopy (fn : Nat) (s : State) : Host.Outcome State Fault Refusal := .next (s.mailboxGo fn 1)

/-- FB_EXPORT: HND_MB_CMD written with CODE 0x02 and GO. -/
def execFbExport (fn : Nat) (s : State) : Host.Outcome State Fault Refusal := .next (s.mailboxGo fn 2)

/-- NOTE: HND_MB_CMD written with CODE 0x03 and GO. -/
def execNote (fn : Nat) (s : State) : Host.Outcome State Fault Refusal := .next (s.mailboxGo fn 3)

/-- MAILBOX_COMPLETE (R691): HND_MB_RSP and RESULT are written, DONE set, BUSY cleared, and the vector sent. -/
def execMailboxComplete (fn : Nat) (s : State) : Host.Outcome State Fault Refusal :=
  let m := (s.fn fn).mailbox
  if !s.alive || !s.hnd.running || !m.busy then .next s
  else
    match m.todo with
    | none => .next s
    | some t =>
      let s := s.modFn fn fun g => { g with mailbox := { m with
        rsp := t.2, result := t.1, done := true, busy := false, todo := none } }
      .next (if m.vecEn then s.msix fn m.vec.toNat else s)

/-! ### Alert causes and log rings (R676, R679) -/

/-- The W1C causes of Table 20.5. -/
def alertW1c : Nat := 2 ^ 2 + 2 ^ 3 + 2 ^ 6 + 2 ^ 8 + 2 ^ 9 + 2 ^ 11 + 2 ^ 12

/-- Clear the W1C causes among some bits. -/
def State.clearAlerts (s : State) (bits : Nat) : State := s.dropAlert (bits &&& alertW1c)

/-- ALERT_CLEAR (R679): a write to ERL_ALERT by the physical function. -/
def execAlertClear (fn : Nat) (value : Word) (s : State) : Host.Outcome State Fault Refusal :=
  .next (if s.hostReach fn && fn == 0 then s.clearAlerts value.toNat else s)

/-- A locked write to an ERL_ field (E-ERL-09). -/
def State.erlLocked (s : State) (fn off value : Nat) : State :=
  (s.modFn fn fun g => { g with ring := { g.ring with fieldLocked := true } }).lockedRecord .erl 9 fn off value

/-- LOG2 as ERL_RING_CFG stores it: 6 to 14. -/
def ringLog2 (v : Nat) : BitVec 4 := BitVec.ofNat 4 (max 6 (min 14 (v % 16)))

/-- ERROR_RING_ENABLE (R676, Table 20.15): a write of ERL_RING_CFG. LOG2 is locked while EN is 1; a rise of EN sets HEAD and
TAIL to 0. -/
def execErrorRingEnable (fn : Nat) (value : Word) (s : State) : Host.Outcome State Fault Refusal :=
  let g := (s.fn fn).ring
  let en := value.getLsbD 4
  let log2 := ringLog2 value.toNat
  if !s.hostReach fn then .next s
  else if g.en then
    let s := s.modFn fn fun x => { x with ring := { x.ring with en := en } }
    .next (s.erlLocked fn 0x1C00018 value.toNat)
  else
    .next (s.modFn fn fun x => { x with ring := { g with
      log2 := log2, en := en, head := if en then 0 else g.head, tail := if en then 0 else g.tail } })

/-- ERL_RING_TAIL_WRITE (R496). -/
def execErlRingTailWrite (fn : Nat) (value : Word) (s : State) : Host.Outcome State Fault Refusal :=
  let g := (s.fn fn).ring
  let v := value.toNat % 65536
  if !s.hostReach fn then .next s
  else if consumerOk (2 ^ g.log2.toNat) g.tail.toNat v g.head.toNat then
    .next (s.modFn fn fun x => { x with ring := { g with tail := BitVec.ofNat 16 v } })
  else .next (s.accessError fn)

end Sys2Proof.Machine
end

