-- ==== Sys2Proof/Machine/Loader.lean ====
section
/-!
DEFINITION. Machine/Loader.lean: the loader: the start of a request, its verdict, the slot commit and what it tells the
instances of the previous image (R109, R110, R117 to R119, R125, R133).
-/
namespace Sys2Proof.Machine

/-- LOAD_START (R125): the oldest request runs; a load's slot is LOADING. What its verdict rests on besides the image is taken
here (R133). -/
def execLoadStart (s : State) : Host.Outcome State Fault Refusal :=
  match s.svy.running, s.svy.queue with
  | none, q :: rest =>
    if !s.alive then .next s
    else
      let q := { q with numsig := s.numsig, fwMajor := s.firmware.major, fwMinor := s.firmware.minor }
      let s := { s with svy := { s.svy with queue := rest, running := some q } }
      .next (if q.replace then s else s.setSlot q.slot { s.slot q.slot with state := .loading })
  | _, _ => .next s

/-- The instances of the previous image judged at a slot commit. -/
def State.judgeMigrations (s : State) (slot : Nat) (old new : Loaded) : State :=
  (s.hrd.ctxs.filter fun p => p.2.uses slot old.gen).foldl (fun t p =>
    if ((old.image.tmpls[p.2.tmpl]?).any fun a => a.boundary == 1) && (t.moveTo p.1 old new).isNone
    then t.skipReport slot p.1 else t) s

/-- A checked image becomes current in its slot (R109, R118). -/
def State.slotCommit (s : State) (q : LoadReq) (image : Image) (hash : List Byte) : State :=
  let x := s.slot q.slot
  let l : Loaded := { gen := s.svy.nextGen, image := image, hash := hash }
  let retained := if q.replace then (match x.current with
    | some o => if s.usersOf q.slot o.gen ≠ 0 then some o else none
    | none => none) else none
  let s := { s with svy := { s.svy with nextGen := s.svy.nextGen + 1, running := none } }
  let s := s.setSlot q.slot { x with state := .loaded, current := some l, retained := retained, skipReported := false }
  let s := s.dropLines fun p => image.wrefs.any fun w => touches w.addr w.length p
  let s := match retained with
    | some o => s.judgeMigrations q.slot o l
    | none => s
  s.svyEnd q.fn q.slot { code := 0 }

/-- SLOT_COMMIT (R109): the running request passes every check. -/
def execSlotCommit (ue : UeList) (s : State) : Host.Outcome State Fault Refusal :=
  match s.svy.running with
  | none => .next s
  | some q =>
    if !s.alive then .next s
    else
      match s.checkLoad ue q with
      | .ok r => .next (s.slotCommit q r.1 r.2)
      | .error _ => .next s

/-- LOAD_REFUSED (R110, R722): the first failing check ends the load with its code; the slot is as before. -/
def execLoadRefused (ue : UeList) (s : State) : Host.Outcome State Fault Refusal :=
  match s.svy.running with
  | none => .next s
  | some q =>
    if !s.alive then .next s
    else
      match s.checkLoad ue q with
      | .ok _ => .next s
      | .error e =>
        let s := { s with svy := { s.svy with running := none } }
        let s := if q.replace then s else s.setSlot q.slot { s.slot q.slot with state := .empty }
        .next ((s.loaderGranule q.fn e).svyEnd q.fn q.slot e)

end Sys2Proof.Machine
end

