-- ==== Sys2Proof/Machine/Mctp.lean ====
section
/-!
DEFINITION. Machine/Mctp.lean: the MCTP control and PLDM commands of Table 20.11. An operand `body` is the whole message from
its message-type byte on, as its transport delivers it; the message layouts are those of the DMTF specifications the table
names (PRESUMED, log 112).
-/
namespace Sys2Proof.Machine

/-! ### Messages -/

/-- The transport a message came over. -/
def transportOf (smbus : Bool) : Transport := if smbus then .smbus else .vdm

/-- The terminus answers while the Handler runs; over PCIe only while the link is up (R692). -/
def State.mctpUp (s : State) (smbus : Bool) : Bool := s.alive && s.hnd.running && (smbus || s.hst.linkUp)

/-- A byte of a message, zero beyond its end. -/
def byteAt (body : List Byte) (i : Nat) : Nat := (body.getD i 0).toNat

/-- Answer an MCTP control message: type 0, the request's instance ID, the command and its response. -/
def State.control (s : State) (smbus : Bool) (body : List Byte) (cmd : Nat) (resp : List Byte) : State :=
  s.emit (.mctp (transportOf smbus) ([0x00] ++ natLe 1 (byteAt body 1 % 32) ++ natLe 1 cmd ++ resp))

/-- Answer a PLDM message: type 1, the request's instance ID, the PLDM type, the command and its response. -/
def State.pldm (s : State) (smbus : Bool) (body : List Byte) (type cmd : Nat) (resp : List Byte) : State :=
  s.emit (.mctp (transportOf smbus) ([0x01] ++ natLe 1 (byteAt body 1 % 32) ++ natLe 1 type ++ natLe 1 cmd ++ resp))

/-- `n` bytes whose values are open. -/
def openBytes (free n : Nat) : List Byte := (List.range n).map fun i => Config.freeByte free i

/-! ### MCTP control messages (DSP0236 1.3) -/

/-- MCTP_SET_ENDPOINT_ID: operations set and force set assign the EID of the transport; 0 and 0xFF are no EIDs. -/
def execMctpSetEndpointId (smbus : Bool) (body : List Byte) (s : State) : Host.Outcome State Fault Refusal :=
  if !s.mctpUp smbus then .next s
  else if body.length ≠ 5 then .next (s.control smbus body 1 [0x03])
  else
    let eid := byteAt body 4
    if 2 ≤ byteAt body 3 % 4 ∨ eid = 0 ∨ eid = 255 then .next (s.control smbus body 1 [0x02])
    else
      let e := BitVec.ofNat 8 eid
      let s := { s with hnd := if smbus then { s.hnd with eidSmbus := e } else { s.hnd with eidPcie := e } }
      .next (s.control smbus body 1 [0x00, 0x00, e, 0x00])

/-- MCTP_GET_ENDPOINT_ID: the EID of the transport, of a simple endpoint with a dynamic EID. -/
def execMctpGetEndpointId (smbus : Bool) (body : List Byte) (s : State) : Host.Outcome State Fault Refusal :=
  .next (if s.mctpUp smbus then
    s.control smbus body 2 [0x00, if smbus then s.hnd.eidSmbus else s.hnd.eidPcie, 0x00, 0x00] else s)

/-- MCTP_GET_ENDPOINT_UUID. -/
def execMctpGetEndpointUuid (smbus : Bool) (body : List Byte) (s : State) : Host.Outcome State Fault Refusal :=
  .next (if s.mctpUp smbus then s.control smbus body 3 (0x00 :: s.fuses.uuid) else s)

/-- MCTP_GET_VERSION_SUPPORT: base and control messages are version 1.3; that of PLDM over MCTP is not stated. -/
def execMctpGetVersionSupport (smbus : Bool) (body : List Byte) (s : State) : Host.Outcome State Fault Refusal :=
  if !s.mctpUp smbus then .next s
  else match byteAt body 3 with
    | 0xFF | 0x00 => .next (s.control smbus body 4 [0x00, 0x01, 0xF1, 0xF3, 0xFF, 0x00])
    | 0x01 => .next (s.takeFree.control smbus body 4 ([0x00, 0x01] ++ openBytes s.freeCount 4))
    | _ => .next (s.control smbus body 4 [0x80])

/-- MCTP_GET_MESSAGE_TYPE_SUPPORT: PLDM. -/
def execMctpGetMessageTypeSupport (smbus : Bool) (body : List Byte) (s : State) : Host.Outcome State Fault Refusal :=
  .next (if s.mctpUp smbus then s.control smbus body 5 [0x00, 0x01, 0x01] else s)

/-- MCTP_PACKET_ERROR: the packet is discarded and counted with E-HND-07 (Table 20.13). -/
def execMctpPacketError (s : State) : Host.Outcome State Fault Refusal :=
  .next (if s.alive && s.hnd.running then
    State.report { s with hnd := { s.hnd with pktErrors := satInc s.hnd.pktErrors } } { blk := .hnd, nn := 7 } else s)

/-! ### PLDM Type 0 (DSP0240) -/

/-- GET_TID. -/
def execGetTid (smbus : Bool) (body : List Byte) (s : State) : Host.Outcome State Fault Refusal :=
  .next (if s.mctpUp smbus then s.pldm smbus body 0 2 [0x00, s.hnd.tid] else s)

/-- SET_TID: 0 and 0xFF are no terminus IDs. -/
def execSetTid (smbus : Bool) (body : List Byte) (s : State) : Host.Outcome State Fault Refusal :=
  let tid := byteAt body 4
  if !s.mctpUp smbus then .next s
  else if body.length ≠ 5 then .next (s.pldm smbus body 0 1 [0x03])
  else if tid = 0 ∨ tid = 255 then .next (s.pldm smbus body 0 1 [0x02])
  else .next (State.pldm { s with hnd := { s.hnd with tid := BitVec.ofNat 8 tid } } smbus body 0 1 [0x00])

/-- The PLDM types of Table 20.11. -/
def pldmTypes : List Nat := [0, 2, 5]

/-- GET_PLDM_VERSION: Type 2 is version 1.2 and Type 5 is 1.1; that of Type 0 is not stated. -/
def execGetPldmVersion (smbus : Bool) (body : List Byte) (s : State) : Host.Outcome State Fault Refusal :=
  let type := byteAt body 9
  if !s.mctpUp smbus then .next s
  else if byteAt body 8 ≠ 1 then .next (s.pldm smbus body 0 3 [0x81])
  else if !pldmTypes.contains type then .next (s.pldm smbus body 0 3 [0x83])
  else
    let v : List Byte := match type with
      | 2 => [0x00, 0xF0, 0xF2, 0xF1] | 5 => [0x00, 0xF0, 0xF1, 0xF1] | _ => openBytes s.freeCount 4
    let crc := crcRefl 0xEDB88320 0xFFFFFFFF v ^^^ 0xFFFFFFFF
    .next (s.takeFree.pldm smbus body 0 3 ([0x00] ++ natLe 4 0 ++ [0x05] ++ v ++ natLe 4 crc))

/-- GET_PLDM_TYPES: 0, 2 and 5. -/
def execGetPldmTypes (smbus : Bool) (body : List Byte) (s : State) : Host.Outcome State Fault Refusal :=
  .next (if s.mctpUp smbus then s.pldm smbus body 0 4 (0x00 :: natLe 8 0x25) else s)

/-- The commands of a PLDM type that Table 20.11 lists, by their DMTF codes. -/
def pldmCommands (type : Nat) : List Nat :=
  match type with
  | 0 => [1, 2, 3, 4, 5]
  | 2 => [0x04, 0x0A, 0x11, 0x21, 0x39, 0x50, 0x51, 0x52]
  | 5 => [0x01, 0x02, 0x10, 0x13, 0x14, 0x15, 0x16, 0x17, 0x18, 0x1A, 0x1B, 0x1C, 0x1D]
  | _ => []

/-- GET_PLDM_COMMANDS: the commands of a type, as a field of 256 bits. -/
def execGetPldmCommands (smbus : Bool) (body : List Byte) (s : State) : Host.Outcome State Fault Refusal :=
  let type := byteAt body 4
  if !s.mctpUp smbus then .next s
  else if !pldmTypes.contains type then .next (s.pldm smbus body 0 5 [0x83])
  else .next (s.pldm smbus body 0 5 (0x00 :: natLe 32 ((pldmCommands type).foldl (fun n c => n + 2 ^ c) 0)))

/-! ### PLDM Type 2 (DSP0248 1.2) -/

/-- PDR_REPOSITORY_COMMAND: the contents of the PDR repository are not stated; the answer's bytes and their number are open. -/
def execPdrRepositoryCommand (smbus : Bool) (body : List Byte) (s : State) : Host.Outcome State Fault Refusal :=
  .next (if s.mctpUp smbus then
    s.takeFree.pldm smbus body 2 (byteAt body 3) (openBytes s.freeCount (Config.freeNat s.freeCount % 4096)) else s)

/-- A numeric sensor's reading as its data size and bytes: sensors 1 to 174 are the thermal units in 1/16 °C; 175 VIN48 in
V; 176 input power in W; 177 fan demand; 178 life used in permille. -/
def State.sensorValue (s : State) (id : Nat) : Option (List Byte) :=
  if 1 ≤ id ∧ id ≤ 174 then some (0x03 :: natLe 2 (ofSigned 16 (s.thmUnit (id - 1)).reading))
  else match id with
    | 175 => some (0x02 :: natLe 2 (s.pins.vinMv / 1000))
    | 176 => some (0x02 :: natLe 2 s.sup.powerW.toNat)
    | 177 => some (0x02 :: natLe 2 s.fanOut.toNat)
    | 178 => some (0x02 :: natLe 2 (min 2047 (s.fb.work.lifePpm / 1000)))
    | _ => none

/-- GET_SENSOR_READING: data size, enabled, no event generation, normal in every state field, and the reading. -/
def execGetSensorReading (smbus : Bool) (body : List Byte) (s : State) : Host.Outcome State Fault Refusal :=
  if !s.mctpUp smbus then .next s
  else match s.sensorValue (leAt body 4 2) with
    | none => .next (s.pldm smbus body 2 0x11 [0x80])
    | some v => .next (s.pldm smbus body 2 0x11 ([0x00] ++ v.take 1 ++ [0x00, 0x00, 0x01, 0x01, 0x01] ++ v.drop 1))

/-- One state field: enabled, the present state, an open previous state, the event state. -/
def stateField (free i st : Nat) : List Byte := [0x00] ++ natLe 1 st ++ [Config.freeByte free i] ++ natLe 1 st

/-- GET_STATE_SENSOR_READINGS: 300 is the module state's code; 301 has one field for each alert cause. -/
def execGetStateSensorReadings (smbus : Bool) (body : List Byte) (s : State) : Host.Outcome State Fault Refusal :=
  if !s.mctpUp smbus then .next s
  else match leAt body 4 2 with
    | 300 => .next (s.takeFree.pldm smbus body 2 0x21 ([0x00, 0x01] ++ stateField s.freeCount 0 s.sup.mstate.code))
    | 301 => .next (s.takeFree.pldm smbus body 2 0x21 ([0x00, 13] ++
        (List.range 13).flatMap fun i => stateField s.freeCount i (bitAt 0 (s.erl.alert.getLsbD i))))
    | _ => .next (s.pldm smbus body 2 0x21 [0x80])

/-- The alert causes that SetStateEffecterStates names: those whose field asks for a change. -/
def effecterBits (body : List Byte) : Nat :=
  ((List.range (min 13 (byteAt body 6))).filter fun i => byteAt body (7 + 2 * i) == 1).foldl (fun n i => n + 2 ^ i) 0

/-- SET_STATE_EFFECTER_STATES: effecter 400 clears the W1C alert causes given (R679). -/
def execSetStateEffecterStates (smbus : Bool) (body : List Byte) (s : State) : Host.Outcome State Fault Refusal :=
  if !s.mctpUp smbus then .next s
  else if leAt body 4 2 ≠ 400 then .next (s.pldm smbus body 2 0x39 [0x80])
  else .next ((s.clearAlerts (effecterBits body)).pldm smbus body 2 0x39 [0x00])

/-- SET_EVENT_RECEIVER: 0 ends event messages, 1 sends them to the EID given, over the transport of the request; the other
methods are not used. -/
def execSetEventReceiver (smbus : Bool) (body : List Byte) (s : State) : Host.Outcome State Fault Refusal :=
  if !s.mctpUp smbus then .next s
  else if byteAt body 5 ≠ 0 then .next (s.pldm smbus body 2 4 [0x80])
  else match byteAt body 4 with
    | 0 => .next (State.pldm { s with hnd := { s.hnd with receiver := none, events := [] } } smbus body 2 4 [0x00])
    | 1 => .next (State.pldm { s with hnd := { s.hnd with receiver := some (transportOf smbus, byteAt body 6) } } smbus body 2 4
        [0x00])
    | _ => .next (s.pldm smbus body 2 4 [0x81])

/-- PLATFORM_EVENT_ACK (R693): the event is retired. -/
def execPlatformEventAck (id : Nat) (s : State) : Host.Outcome State Fault Refusal :=
  .next (if s.alive && s.hnd.running then
    { s with hnd := { s.hnd with events := s.hnd.events.filter fun e => e.id != id } } else s)

/-- PLATFORM_EVENT_RETRY (R693): an event unacknowledged for 2 s is sent again, up to 3 times, and then discarded. -/
def execPlatformEventRetry (id : Nat) (s : State) : Host.Outcome State Fault Refusal :=
  if !s.alive || !s.hnd.running then .next s
  else match s.hnd.events.find? fun e => e.id == id, s.hnd.receiver with
    | some e, some (t, _) =>
      if e.sends < 4 then
        .next (State.emitIf { s with hnd := { s.hnd with events := s.hnd.events.map fun x =>
          if x.id = id then { x with sends := x.sends + 1 } else x } } (t == .smbus || s.hst.linkUp) (.mctp t e.body))
      else .next { s with hnd := { s.hnd with events := s.hnd.events.filter fun x => x.id != id } }
    | _, _ => .next s

end Sys2Proof.Machine
end

