-- ==== Sys2Proof/Machine/Memory.lean ====
section
/-!
DEFINITION. Machine/Memory.lean: the memory system's own commands: invalidation on request, scrub, corrected and fatal
errors (R231, R245, R253, R256).
-/
namespace Sys2Proof.Machine

/-- MEM_INVAL_REQUEST (R231, R256): GO reads 1 from here on; only the physical function starts it. -/
def execMemInvalRequest (fn : Nat) (s : State) : Host.Outcome State Fault Refusal :=
  .next (if s.hostReach fn && fn == 0 then { s with mem := { s.mem with invalBusy := true } } else s)

/-- MEM_INVAL_DONE (R231, R245): every line of every core and stream read cache has been dropped. -/
def execMemInvalDone (s : State) : Host.Outcome State Fault Refusal :=
  .next (if s.alive && s.mem.invalBusy then State.dropCaches { s with mem := { s.mem with invalBusy := false } } else s)

/-- PATROL_SCRUB (R245, R252): timing only. -/
def execPatrolScrub (_addr : Nat) (s : State) : Host.Outcome State Fault Refusal := .next s

/-- A line of a quarter's stream read cache dropped, with the scale tables that the quarter's entropy engines derived from
it (R231, R383). -/
def State.dropStreamLine (s : State) (q g : Nat) : State :=
  let clear (e : Nat) (x : EcEngine) : EcEngine :=
    if e / 4 = q then { x with sets := x.sets.filter fun d => !(granules d.addr d.bytes.length).contains g } else x
  { s with
    mem := { s.mem with src := Tab.put s.mem.src q ((Tab.getD s.mem.src q {}).dropLine g) }
    ec := { s.ec with engines := Tab.mapVal clear s.ec.engines } }

/-- MEM_CORRECTED_ERROR (R253): E-MEM-01, counted in MEM_CE_COUNT; a parity error in a stream read cache drops the line,
so that its next read misses and refetches it, with E-MEM-06. -/
def execMemCorrectedError (quarter : Nat) (site : MemSite) (s : State) : Host.Outcome State Fault Refusal :=
  if !s.alive || 4 ≤ quarter then .next s
  else
    let m := s.mem
    match site with
    | .stack =>
      .next (State.report { s with mem := { m with
        ceStack := Tab.put m.ceStack quarter (satInc (Tab.getD m.ceStack quarter 0)) } }
        { blk := .mem, nn := 1, quarter := some quarter, unit := .stack quarter })
    | .datum =>
      .next (State.report { s with mem := { m with
        ceDatum := Tab.put m.ceDatum quarter (satInc (Tab.getD m.ceDatum quarter 0)) } }
        { blk := .mem, nn := 1, quarter := some quarter })
    | .streamLine addr =>
      .next (if (Tab.find? (Tab.getD m.src quarter {}).lines (granule addr)).isNone then s
        else (s.dropStreamLine quarter (granule addr)).report { blk := .mem, nn := 6, quarter := some quarter })

/-- MEM_FATAL_ERROR (R253, Table 20.4): E-MEM-05, module-fatal: a stack failure (kind 0), or an
uncorrectable Datum store tag (1) or tally (3), each counted in MEM_UE_INFO (Table 6.16). -/
def execMemFatalError (quarter kind at_ : Nat) (s : State) : Host.Outcome State Fault Refusal :=
  .next (if !s.alive || 4 ≤ quarter || !(kind == 0 || kind == 1 || kind == 3) then s
    else (s.countUe quarter).report
      { blk := .mem, nn := 5, quarter := some quarter, unit := if kind = 0 then .stack quarter else .none,
        detail := if kind = 1 then [at_ % 2 ^ 32, at_ / 2 ^ 32, 1] else [0, 0, kind, if kind = 3 then at_ else 0] })

end Sys2Proof.Machine
end

