-- ==== Sys2Proof/Machine/Power.lean ====
section
/-!
DEFINITION. Machine/Power.lean: the input, the wake sequence, power failure, restart records, profiles and the power
limiter (chapter 17).
-/
namespace Sys2Proof.Machine

/-! ### The input (R585, R586, R716) -/

/-- VIN48 at some value from `lo` millivolts, below `lo + n`. -/
def State.vinIn (s : State) (lo n : Nat) : State :=
  State.takeFree { s with pins := { s.pins with vinMv := lo + Config.freeNat s.freeCount % n } }

/-- PWR_EN_RISE (R557, R586): SLOT_ID is sampled in OFF, and the module wakes where the input is good. -/
def execPwrEnRise (slotId : Nat) (s : State) : Host.Outcome State Fault Refusal :=
  if s.pins.pwrEn then .next s
  else
    let s := { s with pins := { s.pins with pwrEn := true, slotId := BitVec.ofNat 6 slotId } }
    let s := if s.sup.mstate = .off then { s with sup := { s.sup with slotSample := BitVec.ofNat 6 slotId } } else s
    .next s.tryWake

/-- INPUT_GOOD (R586, R587): VIN48 has been between 42 V and 60 V for 100 ms. -/
def execInputGood (slotId : Nat) (s : State) : Host.Outcome State Fault Refusal :=
  let s := s.vinIn 42000 18001
  .next (State.tryWake { s with pins := { s.pins with inputGood := true, slotId := BitVec.ofNat 6 slotId } })

/-! ### SHUTDOWN-A (Table 17.6) -/

/-- The restart record of a context (Table 17.7). -/
def State.restartRecord (s : State) (c : Nat) (seq : BitVec 32) : List Byte :=
  let x := s.ctx c
  let img := (s.ctxImage c).elim 0 fun i => i.id.toNat
  let name := (s.ctxTmpl c).elim 0 fun t => t.nameId
  let pins := (x.pendSpan.getD x.spanPin).toNat + bitAt 3 (x.pendPlace.getD x.placePin)
  let body := natLe 4 0x54535250 ++ natLe 2 c ++ natLe 1 x.slot.toNat ++ natLe 1 x.func ++ natLe 8 img ++ natLe 4 name ++
    natLe 2 x.feed.toNat ++ natLe 1 x.source.toNat ++ natLe 1 pins ++ natLe 8 x.seed.toNat ++
    natLe 8 (optNat 0xFFFFFFFFFFFFFFFF x.lastFrame) ++ natLe 4 x.periodUs.toNat ++
    natLe 4 (x.pendDeadline.getD x.deadlineUs).toNat ++ natLe 8 s.sup.shutEpoch.toNat ++ natLe 4 seq.toNat
  body ++ natLe 4 (crc32c body)

/-- Write one record for each context that is ADMITTED or SUSPENDED, in ascending order, in place of the previous set
(R602, R603). -/
def State.writeRestartRecords (s : State) : State :=
  let cs := Tab.keysWhere (fun _ x => x.st == .admitted || x.st == .suspended) s.hrd.ctxs
  { s with sup := { s.sup with
      rrWritten := true
      rr := { records := cs.map fun c => s.restartRecord c s.sup.shutCount, valid := true, seq := s.sup.shutCount } } }

/-- SHUTDOWN-A begins (R598): the Handler, where it runs, saves the state block (R686). -/
def State.enterShutdownA (s : State) (cause : ShutCause) : State :=
  let w := s.fb.work
  let w := { w with counts := w.counts.set 3 (w.counts.getD 3 0 + 1) }
  let s := { s with
    fb := { s.fb with work := w, pendingBlock := if s.hnd.running then some w else s.fb.pendingBlock }
    sup := { s.sup with
      left := s.sup.mstate, hotSwap := false, shutCause := cause, noCancel := cause == ShutCause.pwrEn || !s.pins.pwrEn
      shutCount := s.sup.shutCount + 1, shutEpoch := s.epoch } }
  let s := s.toState .shutdownA
  (s.report { blk := .sup, nn := if cause = ShutCause.overvoltage then 5 else 3 }).writeRestartRecords

/-- An input fault or a fall of PWR_EN (R587, R598, R607): SHUTDOWN-A where the rails are up, OFF from WAKE and HOLD. -/
def State.inputFault (s : State) (cause : ShutCause) : State :=
  match s.sup.mstate with
  | .wake | .hold => s.goOff
  | .boot | .ready | .run => s.enterShutdownA cause
  | _ => s

/-- PWR_EN_FALL (R598, R567, R607): the trip latch clears; a SHUTDOWN-A under way can no longer be cancelled. -/
def execPwrEnFall (s : State) : Host.Outcome State Fault Refusal :=
  if !s.pins.pwrEn then .next s
  else
    let s := { s with pins := { s.pins with pwrEn := false }
                      sup := { s.sup with tripLatch := false, noCancel := s.sup.noCancel || s.sup.mstate == ModState.shutdownA } }
    .next (s.inputFault .pwrEn)

/-- UNDERVOLTAGE_FAULT (R585): VIN48 has been below 38 V for 50 µs. -/
def execUndervoltageFault (s : State) : Host.Outcome State Fault Refusal :=
  let s := s.vinIn 0 38000
  .next (State.inputFault { s with pins := { s.pins with inputGood := false } } .undervoltage)

/-- OVERVOLTAGE_FAULT (R585): VIN48 above 63 V. -/
def execOvervoltageFault (s : State) : Host.Outcome State Fault Refusal :=
  let s := s.vinIn 63001 17000
  let s := { s with pins := { s.pins with inputGood := false }, sup := { s.sup with hotSwap := false } }
  .next (s.inputFault .overvoltage)

/-- RESTART_RECORD_TIMEOUT (R603): step 4 did not finish within 4 ms. How many records were written is open. -/
def execRestartRecordTimeout (s : State) : Host.Outcome State Fault Refusal :=
  if s.sup.mstate ≠ .shutdownA ∨ s.sup.rr.incomplete then .next s
  else
    let n := Config.freeNat s.freeCount % (s.sup.rr.records.length + 1)
    let s := { s with sup := { s.sup with rr := { s.sup.rr with records := s.sup.rr.records.take n, incomplete := true } } }
    .next (s.takeFree.report { blk := .sup, nn := 9 })

/-- The admission requests that waited for the end of SHUTDOWN-A are judged, oldest first (Table 17.6, step 2). -/
def State.judgeAsks (s : State) : State :=
  s.hrd.asks.foldl (fun t a => t.verdict [] a.1 a.2) { s with hrd := { s.hrd with asks := [] } }

/-- SHUTDOWN_A_CANCEL (R599): the module returns to the state it left; a module held by RESET_N begins BOOT where RESET_N
has risen meanwhile. -/
def execShutdownACancel (s : State) : Host.Outcome State Fault Refusal :=
  if s.sup.mstate ≠ .shutdownA ∨ s.sup.noCancel ∨ !s.pins.pwrEn then .next s
  else
    let s := s.vinIn 42000 18001
    let w := s.fb.work
    let s := { s with
      fb := { s.fb with work := { w with counts := w.counts.set 4 (w.counts.getD 4 0 + 1) } }
      sup := { s.sup with
        hotSwap := true, rrWritten := false, rr := { s.sup.rr with cancelled := true }
        dips := satInc s.sup.dips, dipCancelled := true } }
    let t := s.toState s.sup.left
    let t := State.smbusSettled { t with sup := { t.sup with heldInReset := t.sup.heldInReset && !t.pins.resetN } } t
    .next (((t.report { blk := .sup, nn := 4 }).dropAlert (2 ^ 1)).judgeAsks.settleRun)

/-- SHUTDOWN_A_EXPIRY (R601): SHUTDOWN-B begins; every frame not committed is lost with device memory. -/
def execShutdownAExpiry (s : State) : Host.Outcome State Fault Refusal :=
  if s.sup.mstate ≠ .shutdownA then .next s
  else
    let s := (s.toState .shutdownB).loseRails
    .next { s with sup := { s.sup with rrWritten := false, service := false, heldInReset := false
                                       profileBusy := false } }

/-- SHUTDOWN_B_DONE (R601): OFF; the module wakes at once where PWR_EN is high and the input is good. -/
def execShutdownBDone (s : State) : Host.Outcome State Fault Refusal :=
  .next (if s.sup.mstate = .shutdownB then s.goOff.tryWake else s)

/-- RESTART_RECORDS_CLEAR (R603, Table 17.12). -/
def execRestartRecordsClear (fn : Nat) (s : State) : Host.Outcome State Fault Refusal :=
  .next (if s.hostReach fn && fn == 0 then { s with sup := { s.sup with rr := { seq := s.sup.rr.seq } } } else s)

/-! ### The wake sequence (Table 17.2) -/

/-- E at the start of BOOT after a cold reset (R312): the replace cause of a small pool ends where 96 cores or more are
enabled; otherwise HRD_STATUS.SERVICE stands. -/
def State.bootPool (s : State) : State :=
  if s.poolCount < 96 then { s with hrd := { s.hrd with service := true } }
  else { s with fb := { s.fb with work := { s.fb.work with replace := s.fb.work.replace &&& 0xE } } }

/-- Step 8 (Table 17.2): BOOT after a cold reset, with SUP_WAKE loaded (Table 17.12). -/
def State.enterBoot (s : State) : State :=
  let s := { s with sup := { s.sup with
    wakeStep := 8, regFailedStep := BitVec.ofNat 4 s.sup.failedStep, regAttempts := BitVec.ofNat 3 s.sup.attempts
    regCause := BitVec.ofNat 8 s.sup.holdCause, regWakeMs := satNat 16 ((s.now - s.sup.wakeStart) / 1000000)
    unstrapped := s.sup.slotSample == 63 } }
  let s := (s.beginBoot true).bootPool
  let s := if s.sup.slotSample = 63 then s.report { blk := .sys, nn := 41 } else s
  if s.pins.resetN then s else s.warmReset false

/-- WAKE_STEP_COMPLETE (R588). -/
def execWakeStepComplete (s : State) : Host.Outcome State Fault Refusal :=
  if s.sup.mstate ≠ .wake ∨ s.sup.retryWait ∨ 7 < s.sup.wakeStep then .next s
  else if s.sup.wakeStep = 7 then .next s.enterBoot
  else .next { s with sup := { s.sup with
    wakeStep := s.sup.wakeStep + 1, standby := true, hotSwap := s.sup.hotSwap || s.sup.wakeStep == 1 } }

/-- WAKE_STEP_TIMEOUT (R589): the attempt fails at the step whose cause code it carries; the fourth failure is HOLD. -/
def execWakeStepTimeout (cause : Nat) (s : State) : Host.Outcome State Fault Refusal :=
  if s.sup.mstate ≠ .wake ∨ s.sup.retryWait ∨ cause ≠ s.sup.wakeStep ∨ cause = 0 ∨ 7 < cause then .next s
  else
    let s := { s with sup := { s.sup with failedStep := cause, attemptCause := cause, hotSwap := false } }
    let s := s.report { blk := .sup, nn := 1, detail := [cause, cause, s.sup.attempts] }
    if 4 ≤ s.sup.attempts then .next (s.enterHold cause)
    else .next { s with sup := { s.sup with retryWait := true } }

/-- WAKE_RETRY_TIMER (R589): a new attempt from step 1. -/
def execWakeRetryTimer (s : State) : Host.Outcome State Fault Refusal :=
  .next (if s.sup.mstate = .wake ∧ s.sup.retryWait then
    { s with sup := { s.sup with retryWait := false, wakeStep := 1, attempts := s.sup.attempts + 1 } } else s)

/-- VIN_MARGINAL_TIMEOUT (R716): E-SYS-44 once per episode. A value from 40 V to 60 V tells that VIN48 has stayed there for
1 s, which ends the episode. -/
def execVinMarginalTimeout (vinMv : Nat) (s : State) : Host.Outcome State Fault Refusal :=
  let s := { s with pins := { s.pins with vinMv := vinMv } }
  if 40000 ≤ vinMv ∧ vinMv ≤ 60000 then .next { s with sup := { s.sup with vinReported := false } }
  else if s.sup.mstate = .off ∨ s.sup.vinReported ∨ vinMv < 38000 ∨ 63000 < vinMv then .next s
  else .next (State.report { s with sup := { s.sup with vinReported := true } } { blk := .sys, nn := 44 })

/-! ### Profiles (R595, R597, R649) -/

/-- A locked write to a SUP_ field (E-SUP-07). -/
def State.supLocked (s : State) (fn off value : Nat) : State :=
  State.lockedRecord { s with sup := { s.sup with fieldLocked := true } } .sup 7 fn off value

/-- A strict template has an admitted context whose signature the profile would break (R338). -/
def State.strictRefuses (s : State) (profile : BitVec 2) : Bool :=
  let sig := State.numsig { s with sup := { s.sup with profile := profile } }
  sig != s.numsig && s.hrd.ctxs.any fun p => p.2.st != .free && (match s.ctxImage p.1 with
    | some i => (i.numOf p.2.tmpl).any fun n => n.strict && n.numsig != sig.toNat
    | none => false)

/-- Why a profile request is refused: BLOCK and CODE of SUP_PROFILE_STATUS. -/
def State.profileRefusal (s : State) (profile : BitVec 2) : Option (Nat × Nat) :=
  if profile = 3 ∨ profile = s.sup.profile then some (1, 6)
  else if s.strictRefuses profile then some (2, 31)
  else if s.pck.busy then some (3, 10)
  else if s.sup.mstate = .shutdownA then some (1, 6)
  else none

/-- Report a refused profile request. -/
def State.profileRefused (s : State) (fn : Nat) (r : Nat × Nat) : State :=
  let s := { s with sup := { s.sup with profileCode := BitVec.ofNat 8 r.2, profileBlock := BitVec.ofNat 2 r.1 } }
  if r.1 = 3 then s.pckReport 10 .none none none
  else s.report { blk := if r.1 = 2 then .sys else .sup, nn := r.2, func := some fn }

/-- PROFILE_CHANGE (R597): PROFILE is written and GO set; while a change runs PROFILE is locked and GO has no effect. -/
def execProfileChange (fn profile : Nat) (s : State) : Host.Outcome State Fault Refusal :=
  let p := BitVec.ofNat 2 profile
  if !s.hostReach fn || fn != 0 then .next s
  else if s.sup.profileBusy then
    .next (s.supLocked fn 0x3000008 (profile % 4 + 2 ^ 31))
  else
    let s := { s with sup := { s.sup with profileReq := p } }
    match s.profileRefusal p with
    | some r => .next (s.profileRefused fn r)
    | none => .next { s with sup := { s.sup with profileBusy := true, profileTarget := p, profileCode := 0, profileBlock := 0 } }

/-- Every core's THR brought down to the ceiling in force; a lower one stays (R649). `old` held before the change. -/
def State.capThrs (s old : State) : State :=
  (List.range 144).foldl (fun t u =>
    let x := old.thmUnit u
    t.setThmUnit u { x with thr := BitVec.ofNat 7 (min x.thr.toNat s.profileCeiling) }) s

/-- PROFILE_CHANGE_COMPLETE (R597, R354): ceiling, cap, tier and SYS_NUMSIG of the new profile are in force. -/
def execProfileChangeComplete (s : State) : Host.Outcome State Fault Refusal :=
  if !s.sup.mstate.powered || !s.sup.profileBusy then .next s
  else
    let t := { s with sup := { s.sup with profile := s.sup.profileTarget, profileBusy := false } }
    let t := if t.numsig = s.numsig then t else { t with sys := { numsigPrev := s.numsig, numsigTime := s.epoch } }
    .next (t.capThrs s)

/-! ### The power limiter (R596, R654) -/

/-- What input power is held within: the cap, or a lower thermal ceiling, in milliwatts. -/
def State.limitMw (s : State) : Nat := min (s.cap * 1000) (s.thm.ceilingMw.getD (s.cap * 1000))

/-- The clock of a core in 25 MHz units (R180, R596, R641, R647): 0.40 GHz for a spare or fenced core, in BOOT and in
SHUTDOWN-A. -/
def State.coreClock (s : State) (g : Nat) : Nat :=
  if !s.enabled g || s.fenced g then 16
  else match s.sup.mstate with
    | .ready | .run => min s.profileCeiling (min s.sup.limiter.toNat (s.thmUnit g).thr.toNat)
    | _ => 16

/-- POWER_LIMITER_STEP (R596): every core island's ceiling is lowered or raised together by 25 MHz, never below 0.40 GHz;
it is raised below 95% of the limit. -/
def execPowerLimiterStep (powerW : Nat) (s : State) : Host.Outcome State Fault Refusal :=
  if !s.sup.mstate.powered then .next s
  else
    let now := min s.sup.limiter.toNat s.profileCeiling
    let next :=
      if s.limitMw < powerW * 1000 then max 16 (now - 1)
      else if powerW * 100000 < s.limitMw * 95 then (if s.profileCeiling ≤ now + 1 then 64 else now + 1)
      else s.sup.limiter.toNat
    .next { s with sup := { s.sup with
      powerW := satNat 10 powerW, limiter := BitVec.ofNat 7 next
      capActive := s.sup.capActive && decide (next < s.profileCeiling) } }

/-- POWER_LIMIT_PERSIST (Table 17.10): the limiter has been below the profile ceiling for over 1 s. -/
def execPowerLimitPersist (s : State) : Host.Outcome State Fault Refusal :=
  if !s.sup.mstate.powered || s.sup.capActive || decide (s.profileCeiling ≤ s.sup.limiter.toNat) then .next s
  else .next (State.report { s with sup := { s.sup with capActive := true, capEvents := satInc s.sup.capEvents } }
    { blk := .sup, nn := 8 })

end Sys2Proof.Machine
end

