-- ==== Sys2Proof/Machine/RegMap.lean ====
section
/-!
DEFINITION. Machine/RegMap.lean: which BAR0 offsets hold a register and how wide it is (R718, R719, Table 22.2), and what
an access of some offset and width is (R12, R13, R483).
-/
namespace Sys2Proof.Machine

/-- The 32-bit and 64-bit registers of a block whose registers are not replicated, by relative offset. -/
def plainRegs (block : Nat) : List Nat × List Nat :=
  match block with
  | 0x0000000 => ([0x140, 0x200], [0x000, 0x100, 0x108, 0x110, 0x118, 0x120, 0x128, 0x130, 0x138])
  | 0x0100000 => ([0x000, 0x004, 0x008, 0x00C, 0x018, 0x01C, 0x3400, 0x3404], [0x010])
  | 0x0200000 => ([0x000, 0x004, 0x010, 0x014, 0x018, 0x01C, 0x038, 0x03C], [0x008, 0x020, 0x028, 0x030])
  | 0x0400000 => ([0x000, 0x004, 0x008, 0x00C, 0x028, 0x02C, 0x058, 0x05C, 0x060],
                  [0x010, 0x018, 0x020, 0x030, 0x038, 0x040, 0x048, 0x050, 0x068])
  | 0x0800000 => ([0x10000, 0x10008, 0x1000C], [])
  | 0x0C00000 => ([0x000, 0x004, 0x008, 0x00C, 0x010, 0x028], [0x018, 0x020])
  | 0x0E00000 => ([0x000, 0x004, 0x008, 0x00C, 0x010, 0x028], [0x018, 0x020])
  | 0x1000000 => ([0x100, 0x110, 0x114, 0x118, 0x128, 0x12C, 0x130, 0x140, 0x144, 0x180, 0x184, 0x188, 0x18C],
                  [0x108, 0x120, 0x148, 0x150, 0x158, 0x160, 0x168, 0x170, 0x178])
  | 0x1400000 => ([0x000, 0x004, 0x008, 0x00C, 0x040, 0x044, 0x048, 0x04C, 0x050, 0x054, 0x058, 0x05C],
                  [0x010, 0x018, 0x020, 0x028, 0x030, 0x038])
  | 0x1800000 => ([0x000, 0x004, 0x008, 0x00C, 0x010, 0x014, 0x020, 0x024, 0x028, 0x02C, 0x030, 0x034, 0x038, 0x03C, 0x040],
                  [0x018, 0x048])
  | 0x1C00000 => ([0x000, 0x004, 0x008, 0x018, 0x01C, 0x020, 0x024, 0x028, 0x02C], [0x010])
  | 0x2000000 => ([0x000, 0x004, 0x020, 0x024, 0x040, 0x044, 0x048, 0x04C],
                  [0x008, 0x010, 0x018, 0x028, 0x030, 0x038, 0x050])
  | 0x2400000 => ([0x000, 0x004, 0x010, 0x014, 0x018, 0x01C, 0x060, 0x064], [0x008])
  | 0x2C00000 => ([0x000, 0x004, 0x008, 0x00C, 0x010, 0x014, 0x018, 0x01C, 0x028], [0x020])
  | 0x3000000 => ([0x000, 0x004, 0x008, 0x00C, 0x010, 0x014, 0x018, 0x01C, 0x020, 0x024], [])
  | _ => ([], [])

/-- A replicated group: its first relative offset, how many copies, their stride, and the 32-bit and 64-bit registers of
one copy. -/
structure RegGroup where
  first : Nat
  count : Nat
  stride : Nat
  r32 : List Nat
  r64 : List Nat

/-- The replicated registers of a block (Table 22.2; the FAB_ registers of each quarter by R85). -/
def regGroups (block : Nat) : List RegGroup :=
  match block with
  | 0x0100000 => [⟨0x100, 32, 0x20, [8, 0xC, 0x10, 0x14], [0]⟩,
                  ⟨0x1000, 64, 0x40, [8, 0xC, 0x18, 0x1C, 0x20], [0, 0x10]⟩, ⟨0x3000, 32, 4, [0], []⟩, ⟨0x3100, 64, 4, [0], []⟩]
  | 0x0200000 => [⟨0x100, 16, 4, [0], []⟩]
  | 0x0800000 => [⟨0, 64, 0x100, [0, 4, 8, 0x18, 0x1C, 0x20, 0x24, 0x28], [0x10]⟩]
  | 0x1000000 => [⟨0, 2, 0x40, [0, 4, 0x10], [8, 0x18]⟩]
  | 0x1400000 => [⟨0x100, 8, 0x20, [0, 4, 8, 0xC, 0x18], [0x10]⟩]
  | 0x1C00000 => [⟨0x30, 8, 8, [], [0]⟩]
  | 0x2000000 => [⟨0x58, 4, 8, [], [0]⟩]
  | 0x2400000 => [⟨0x20, 4, 8, [], [0]⟩, ⟨0x40, 4, 8, [], [0]⟩]
  | 0x2800000 => [⟨0, 4, 0x10000, [0, 4, 8, 0xC, 0x10, 0x14, 0x18, 0x28], [0x20]⟩]
  | 0x3000000 => [⟨0x40, 8, 8, [], [0]⟩]
  | _ => []

/-- The block bases of Table 22.1. -/
def regBlocks : List Nat :=
  [0x0000000, 0x0100000, 0x0200000, 0x0400000, 0x0800000, 0x0C00000, 0x0E00000, 0x1000000, 0x1400000, 0x1800000, 0x1C00000,
   0x2000000, 0x2400000, 0x2800000, 0x2C00000, 0x3000000]

/-- The base of the block an offset lies in. -/
def blockOf (off : Nat) : Nat := (regBlocks.filter fun b => b ≤ off).foldl max 0

/-- The copy of a group and the offset in it, where a relative offset lies in the group. -/
def RegGroup.at_ (g : RegGroup) (rel : Nat) : Option (Nat × Nat) :=
  if g.first ≤ rel ∧ rel < g.first + g.count * g.stride then
    some ((rel - g.first) / g.stride, (rel - g.first) % g.stride) else none

/-- A register that starts at an offset, with whether it is 64 bits wide. -/
def regWidth (off : Nat) : Option Bool :=
  let b := blockOf off
  let rel := off - b
  let p := plainRegs b
  let hit (wide : Bool) : Bool :=
    (if wide then p.2 else p.1).contains rel ||
      (regGroups b).any fun g => (g.at_ rel).any fun x => (if wide then g.r64 else g.r32).contains x.2
  if hit true then some true else if hit false then some false else none

/-- The MSI-X table and the pending-bit array: 256 entries of 16 bytes, and 256 bits. -/
def inMsix (off n : Nat) : Bool :=
  decide (0x108000 ≤ off ∧ off + n ≤ 0x109000) || decide (0x109000 ≤ off ∧ off + n ≤ 0x109020)

/-- What an access reaches: a register, the MSI-X structures, nothing, or it is a bad access (R483). -/
inductive Access where
  | register | msix | nothing | bad
deriving DecidableEq, Repr

/-- An access of `n` bytes at a BAR0 offset. -/
def accessOf (off n : Nat) : Access :=
  if (n ≠ 4 ∧ n ≠ 8) ∨ off % n ≠ 0 then .bad
  else if inMsix off n then .msix
  else if n = 8 then
    (if regWidth off = some true then .register
     else if (regWidth off).isSome ∨ (regWidth (off + 4)).isSome then .bad else .nothing)
  else if regWidth off = some false then .register
  else if regWidth (off / 8 * 8) = some true then .bad
  else .nothing

end Sys2Proof.Machine
end

