-- ==== Sys2Proof/Machine/Thermal.lean ====
section
/-!
DEFINITION. Machine/Thermal.lean: readings, the forecaster, the fallback, the trip, fan demand, inlet derating, and the wear
ledger (chapter 19). Temperatures are in 1/16 °C, clocks in 25 MHz units.
-/
namespace Sys2Proof.Machine

/-! ### Thermal units (Table 19.1) -/

/-- Units 172 and 173 belong to no quarter. -/
def unitQuarter (u : Nat) : Option Nat := (UnitRef.thermal u).quarter

/-- Enabled, unfenced cores and the engine groups. -/
def State.throttleable (s : State) (u : Nat) : Bool :=
  (u < 144 && s.enabled u && !s.fenced u) || (144 ≤ u && u < 160)

def minThr (u : Nat) : Nat := if u < 144 then 16 else 24
def State.maxThr (s : State) (u : Nat) : Nat := if u < 144 then s.profileCeiling else 48
/-- A unit with no floor set has a floor equal to its minimum. -/
def State.floorOf (s : State) (u : Nat) : Nat := if (s.thmUnit u).floor_ = 0 then minThr u else (s.thmUnit u).floor_.toNat
def State.thrOf (s : State) (u : Nat) : Nat := (s.thmUnit u).thr.toNat
def State.modThm (s : State) (u : Nat) (g : ThmUnit → ThmUnit) : State := s.setThmUnit u (g (s.thmUnit u))
def State.setThr (s : State) (u thr : Nat) : State := s.modThm u fun x => { x with thr := BitVec.ofNat 7 thr }

/-- The event of a thermal code with Table 20.4's details. -/
def State.thmEv (s : State) (nn u : Nat) : Ev :=
  { blk := .thm, nn := nn, quarter := unitQuarter u, unit := .thermal u
    detail := [u, ofSigned 16 (s.thmUnit u).reading, ofSigned 16 (s.thmUnit u).forecast] }

/-! ### Readings (R641, R663) -/

/-- A sensor from −40 °C to 150 °C works. -/
def sensorWorks (t : Int) : Bool := -640 ≤ t && t ≤ 2400

/-- The sensor failures of a unit, each with its number for the once-per-reset report of R663: sensor i failed (i), a core's
two sensors more than 10 K apart (7), no sensor answers at all (6). -/
def sensorFailures (u : Nat) (ts : Sensors) : List Nat :=
  (if ts.isEmpty then [6] else []) ++ ((ts.zipIdx.take 6).filter fun p => !sensorWorks p.1).map (fun p => p.2) ++
    (if u < 144 ∧ 160 < (ts.getD 0 0 - ts.getD 1 (ts.getD 0 0)).natAbs then [7] else [])

/-- The highest working sensor. -/
def highestWorking : Sensors → Option Int
  | [] => none
  | t :: r => match highestWorking r with
    | none => if sensorWorks t then some t else none
    | some m => if sensorWorks t then some (max t m) else some m

/-- A unit's reading and whether no sensor of it works. Then a stack counts as 95 °C and the inlet as 55 °C; of other units
the spec states no reading. -/
def State.formReading (s : State) (u : Nat) (ts : Sensors) : Int × Bool :=
  match highestWorking ts with
  | some t => (t, false)
  | none => (if 160 ≤ u ∧ u < 164 then 1520 else if u = 172 then 880
      else toSigned 16 (Config.freeNat s.freeCount % 65536), true)

/-- One sensor failure of a unit is reported once per cold reset (R663). -/
def State.sensorFailed (s : State) (u : Nat) (i : Nat) : State :=
  if s.thm.failReported.contains (u * 8 + i) then s
  else State.report { s with thm := { s.thm with
    sensorFail := true, failReported := (u * 8 + i) :: s.thm.failReported } } (s.thmEv 4 u)

/-- One unit's reading is refreshed. A throttleable unit with no working sensor has its THR at its minimum, and each failure
is reported once per cold reset (R663). -/
def State.readUnit (s : State) (u : Nat) (ts : Sensors) : State :=
  let r := s.formReading u ts
  let fails := sensorFailures u ts
  let s := if r.2 then s.takeFree else s
  let s := s.modThm u fun x => { x with reading := r.1, sensorFail := !fails.isEmpty, blind := r.2 }
  let s := if r.2 && s.throttleable u then s.setThr u (minThr u) else s
  fails.foldl (fun t i => t.sensorFailed u i) s

/-- Inlet air above 55 °C is reported until it is 54 °C or below (R655): the pending cause is bit 7 of ERL_ALERT. -/
def State.checkInlet (s : State) : State :=
  let t := (s.thmUnit 172).reading
  if 880 < t ∧ !s.thm.inletHigh then
    State.report { s with thm := { s.thm with inletHigh := true } } (s.thmEv 5 172)
  else if t ≤ 864 ∧ (s.thm.inletHigh ∨ s.erl.alert.getLsbD 7) then
    State.dropAlert { s with thm := { s.thm with inletHigh := false } } (2 ^ 7)
  else s

/-- A memory stack above 85 °C is reported once per episode (Table 19.5). -/
def State.checkStack (s : State) (q : Nat) : State :=
  let hot : Bool := 1360 < (s.thmUnit (160 + q)).reading
  if hot && !s.thm.stackHot.contains q then
    State.report { s with thm := { s.thm with stackHot := q :: s.thm.stackHot } } (s.thmEv 7 (160 + q))
  else if hot then s
  else { s with thm := { s.thm with stackHot := s.thm.stackHot.filter fun k => k != q } }

/-- Refresh the readings of some units from the sensors of all. -/
def State.refresh (s : State) (us : List Nat) (sensors : List Sensors) : State :=
  let s := us.foldl (fun t u => t.readUnit u (sensors.getD u [])) s
  let s := if us.contains 172 then s.checkInlet else s
  ([0, 1, 2, 3].filter fun q => us.contains (160 + q)).foldl (fun t q => t.checkStack q) s

/-! ### The forecaster (R643 to R648) -/

/-- Thermal bias of a quarter, in 1/16 K. -/
def State.biasOf (s : State) (q : Option Nat) : Int :=
  match q with | some q => (nfld s.thm.bias.toNat (4 * q) 4 * 16 : Nat) | none => 0

/-- *L* in 1/16 °C. -/
def State.limit16 (s : State) : Int := (s.thm.limit.toNat * 16 : Nat)

/-- A unit's headroom (R644). -/
def State.headroomOf (s : State) (u : Nat) : Int :=
  (if u < 160 then s.limit16 else if u < 164 then 1520 else 1760) - (s.thmUnit u).forecast

/-- The unit of a list with the least value; the earliest of equals. -/
def leastUnit (f : Nat → Int) : List Nat → Option Nat
  | [] => none
  | u :: r => match leastUnit f r with
    | none => some u
    | some v => if f v < f u then some v else some u

/-- The unit with the greatest value; the earliest of equals. -/
def greatestUnit (f : Nat → Int) (us : List Nat) : Option Nat := leastUnit (fun u => -f u) us

def State.forecastOf (s : State) (u : Nat) : Int := (s.thmUnit u).forecast

/-- A forecaster lowering, counted in THROTTLES. -/
def State.lowerOne (s : State) (u : Nat) : State :=
  State.setThr { s with thm := { s.thm with throttles := satInc s.thm.throttles } } u (s.thrOf u - 1)

/-- FLOOR_BREACH: reported and counted once per episode (R648). -/
def State.breach (s : State) (u : Nat) : State :=
  let s := s.lowerOne u
  if (s.thmUnit u).breached then s
  else
    let s := s.modThm u fun x => { x with breached := true }
    State.report { s with thm := { s.thm with breaches := satInc s.thm.breaches } } (s.thmEv 2 u)

/-- The units of a quarter, in order. -/
def thermalUnits (q : Option Nat) : List Nat := (List.range 172).filter fun u => unitQuarter u == q

/-- lower(u) of R646. -/
def State.lower (s : State) (u : Nat) : State :=
  let thr := s.thrOf u
  let floor := s.floorOf u
  if floor < thr ∧ minThr u < thr then s.lowerOne u
  else if thr = floor ∧ minThr u < floor ∧ s.limit16 + 32 < s.forecastOf u then s.breach u
  else
    match greatestUnit s.forecastOf ((thermalUnits (unitQuarter u)).filter fun w =>
        w != u && s.throttleable w && decide (s.floorOf w < s.thrOf w ∧ minThr w < s.thrOf w)) with
    | some w => s.lowerOne w
    | none => s

/-- A raise by 25 MHz; an episode of a broken floor ends where THR is back at it (R648). -/
def State.raiseThr (s : State) (u : Nat) : State :=
  let s := s.setThr u (s.thrOf u + 1)
  if (s.thmUnit u).breached && decide (s.floorOf u ≤ s.thrOf u) then
    let s := s.modThm u fun x => { x with breached := false }
    if s.thm.units.any fun p => p.2.breached then s else s.dropAlert (2 ^ 5)
  else s

/-- The throttle decision of one step (R646). -/
def State.decide_ (s : State) : State :=
  match leastUnit s.headroomOf (List.range 172) with
  | none => s
  | some u =>
    let h := s.headroomOf u
    let s := { s with thm := { s.thm with hot := BitVec.ofNat 8 u, headroom := BitVec.ofInt 16 h } }
    if h < 0 then
      (if s.throttleable u then s.lower u
       else match greatestUnit s.forecastOf ((thermalUnits (unitQuarter u)).filter s.throttleable) with
        | some v => s.lower v
        | none => s)
    else if 48 ≤ h then
      (match greatestUnit s.headroomOf ((List.range 160).filter fun t =>
          s.throttleable t && !(s.thmUnit t).blind && decide (s.thrOf t < s.maxThr t)) with
        | some t => s.raiseThr t
        | none => s)
    else s

/-- The highest reading among a quarter's cores and engine groups (R656). -/
def State.hotSpot (s : State) (q : Nat) : Int :=
  (((List.range 160).filter fun u => unitQuarter u == some q).map fun u => (s.thmUnit u).reading).foldl max (-32768)

/-- One more step's value of a channel in the present second. -/
def State.addSample (s : State) (c : Nat) (v : Int) : State :=
  let x := Tab.getD s.thm.channels c {}
  { s with thm := { s.thm with channels := Tab.put s.thm.channels c { x with sum := x.sum + v, n := x.n + 1 } } }

/-- FORECASTER_STEP (R643, R646): readings and effective forecasts are published and at most one throttle decision is made. -/
def execForecasterStep (sensors : List Sensors) (forecasts : List Int) (s : State) : Host.Outcome State Fault Refusal :=
  if !s.alive || !s.thm.forecaster then .next s
  else
    let s := s.refresh (List.range 174) sensors
    let s := (List.range 172).foldl (fun t u =>
      t.modThm u fun x => { x with forecast := forecasts.getD u 0 + t.biasOf (unitQuarter u) }) s
    let s := s.decide_
    let s := [0, 1, 2, 3].foldl (fun t q => t.addSample q (t.hotSpot q)) s
    .next (s.addSample 4 (s.thmUnit 173).reading)

/-! ### The fallback and the trip (R651, R652) -/

/-- The fallback acts: the forecaster does not run, and the core rails are past wake step 3. -/
def State.fallbackActs (s : State) : Bool :=
  !s.thm.forecaster && (s.sup.mstate.powered ||
    (s.sup.mstate == .wake && decide (3 < s.sup.wakeStep) && !s.sup.retryWait))

/-- FALLBACK_STEP (R651): each throttleable unit of the quarter above 105 °C goes down by 25 MHz, to its minimum at most;
floors are ignored, and E-THM-03 is reported once per episode. -/
def execFallbackStep (quarter : Nat) (sensors : List Sensors) (s : State) : Host.Outcome State Fault Refusal :=
  if !s.fallbackActs then .next s
  else
    let us := thermalUnits (some quarter)
    let s := s.refresh (us ++ if quarter = 0 then [172, 173] else []) sensors
    let hit := us.filter fun u => s.throttleable u && decide (1680 < (s.thmUnit u).reading ∧ minThr u < s.thrOf u)
    let s := hit.foldl (fun t u => t.setThr u (t.thrOf u - 1)) s
    match hit with
    | [] => .next s
    | u :: _ =>
      if s.thm.fallbackEpisode.contains quarter then .next s
      else .next (State.report { s with thm := { s.thm with
        fallback := true, fallbackEpisode := quarter :: s.thm.fallbackEpisode } } (s.thmEv 3 u))

/-- The comparators are armed from wake step 3 until the standby supply is lost. -/
def State.tripArmed (s : State) : Bool :=
  s.sup.standby && (s.sup.mstate.powered || s.sup.mstate == .hold || s.sup.mstate == .shutdownB ||
    (s.sup.mstate == .wake && decide (3 < s.sup.wakeStep)))

/-- The units of a quarter that have comparators: its cores, engine groups and stack. -/
def tripUnits (q : Nat) : List Nat := (thermalUnits (some q)).filter fun u => u < 164

/-- THERMAL_TRIP (R652): the latch is set, and E-THM-01 takes the module to HOLD with cause 0x10. Which unit of the quarter
tripped is open. -/
def execThermalTrip (quarter : Nat) (s : State) : Host.Outcome State Fault Refusal :=
  if !s.tripArmed then .next s
  else
    let us := tripUnits quarter
    let u := us.getD (Config.freeNat s.freeCount % us.length) 0
    .next (State.report { s.takeFree with sup := { s.takeFree.sup with tripLatch := true } } (s.thmEv 1 u))

/-! ### Fan demand and derating (R653, R654) -/

def clampDemand (d : Int) : BitVec 7 := BitVec.ofNat 7 (max 30 (min 100 d)).toNat

/-- The larger of two demands. -/
def maxDemand (a b : BitVec 7) : BitVec 7 := if a.toNat < b.toNat then b else a

/-- The demand as driven: it rises at once and falls by 2 points in a second, which is 0.2 points in 100 ms. -/
def Thm.followDemand (t : Thm) (d : BitVec 7) : Thm :=
  if t.fan.toNat ≤ d.toNat then { t with fan := d, fanTarget := d, fanTenths := 0 }
  else if 8 ≤ t.fanTenths then { t with fan := t.fan - 1, fanTarget := d, fanTenths := t.fanTenths - 8 }
  else { t with fanTarget := d, fanTenths := t.fanTenths + 2 }

/-- FAN_DEMAND_UPDATE (R653). -/
def execFanDemandUpdate (s : State) : Host.Outcome State Fault Refusal :=
  if !s.alive || !s.thm.forecaster then .next s
  else
    let hottest := ((List.range 160).map s.forecastOf).foldl max (-32768)
    let dFc := clampDemand (30 + 7 * (hottest / 16 - ((s.thm.limit.toNat : Int) - 10)))
    let dInlet := clampDemand (30 + 7 * ((s.thmUnit 172).reading - 560) / 16)
    let dBase := if (s.thmUnit 173).blind then 100 else clampDemand (30 + 7 * ((s.thmUnit 173).reading - 1120) / 16)
    let t := { s.thm with dFc := dFc, dInlet := dInlet, dBase := dBase }
    .next { s with thm := t.followDemand (maxDemand dFc (maxDemand dInlet dBase)) }

/-- The thermal ceiling in milliwatts at an inlet reading (R654). -/
def ceilingMw (cap : Nat) (t : Int) : Nat := cap * 1000 * (max 640 (min 1600 (1600 - 3 * (t - 720)))).toNat / 1600

/-- THERMAL_CEILING_UPDATE (R654). -/
def execThermalCeilingUpdate (s : State) : Host.Outcome State Fault Refusal :=
  .next (if s.alive && s.hnd.running then
    { s with thm := { s.thm with ceilingMw := some (ceilingMw s.cap (s.thmUnit 172).reading) } } else s)

/-! ### Cycles and the life estimate (R656 to R659) -/

/-- The range bin of a full cycle; none below 10 K (Table 19.3). -/
def cycleBin (x : Int) : Option Nat :=
  if x < 160 then none else if x < 320 then some 0 else if x < 640 then some 1 else if x < 960 then some 2 else some 3

/-- The band of a mean, from the sum of the two reversals. -/
def cycleBand (sum : Int) : Nat := if sum < 1600 then 0 else if sum < 2240 then 1 else if sum < 2880 then 2 else 3

/-- Tenths of a ppm of rated life per full cycle, by bin and band (Table 19.3). -/
def cycleWeights : List Nat := [6, 10, 16, 25, 60, 100, 160, 250, 300, 500, 800, 1250, 1200, 2000, 3200, 5000]

/-- The four-point method on a residue held newest first: the residue left, and the cycles counted as range and sum. -/
def fourPoint : Nat → List Int → List (Int × Int) → List Int × List (Int × Int)
  | 0, s, found => (s, found)
  | fuel + 1, s, found =>
    match s with
    | d :: c :: b :: a :: r =>
      let x : Int := (b - c).natAbs
      if x ≤ (a - b).natAbs ∧ x ≤ (c - d).natAbs then fourPoint fuel (d :: a :: r) ((x, b + c) :: found) else (s, found)
    | _ => (s, found)

/-- One counter up by one, at most all ones of 32 bits. -/
def bump (l : List Nat) (i : Nat) : List Nat := l.set i (min 0xFFFFFFFF (l.getD i 0 + 1))

/-- A confirmed reversal of a channel enters the residue; full cycles of 10 K and more are counted, and a residue of more
than 16 drops its two oldest (R657, R684). -/
def StateBlock.reversal (w : StateBlock) (c : Nat) (v : Int) : StateBlock :=
  let old := w.residue.getD c []
  let r := fourPoint 16 (v :: old.reverse) []
  let left := r.1.reverse
  { w with
    residue := w.residue.set c (if 16 < left.length then left.drop 2 else left)
    cycles := r.2.foldl (fun l x => match cycleBin x.1 with
      | some b => bump l (16 * c + 4 * b + cycleBand x.2)
      | none => l) w.cycles }

/-- The detector takes one second's mean: the reversal it confirms, where the series has moved 2 K the other way (R656). -/
def Channel.take (x : Channel) (v : Int) : Option Int × Channel :=
  if !x.begun then (none, { x with begun := true, extreme := v })
  else match x.rising with
    | none => if 32 ≤ (v - x.extreme).natAbs then (some x.extreme, { x with rising := some (x.extreme < v), extreme := v })
        else (none, x)
    | some true => if x.extreme < v then (none, { x with extreme := v })
        else if 32 ≤ x.extreme - v then (some x.extreme, { x with rising := some false, extreme := v }) else (none, x)
    | some false => if v < x.extreme then (none, { x with extreme := v })
        else if 32 ≤ v - x.extreme then (some x.extreme, { x with rising := some true, extreme := v }) else (none, x)

/-- The life used in ppm: the hour term and the largest cycle term (R659). -/
def StateBlock.life (w : StateBlock) : Nat :=
  let hours := (List.range 4).foldl (fun n b => n + w.hours.getD b 0 * [8, 12, 24, 48].getD b 0) 0
  let term (c : Nat) : Nat := (List.range 16).foldl (fun n i =>
    n + w.cycles.getD (16 * c + i) 0 * cycleWeights.getD i 0 * (if c = 4 then 2 else 1)) 0
  hours + ((List.range 5).map term).foldl max 0 / 10

/-- The life estimate is brought up to date; at 1,000 permille E-THM-06 is reported, once for the module's life. -/
def State.updateLife (s : State) : State :=
  let life := s.fb.work.life
  let s := { s with fb := { s.fb with work := { s.fb.work with lifePpm := life } } }
  if 1000000 ≤ life ∧ !s.thm.lifeEnd then
    State.report { s with thm := { s.thm with lifeEnd := true } } { blk := .thm, nn := 6 }
  else s

/-- A channel's second ends: its mean goes to the detector. -/
def State.sampleChannel (s : State) (c : Nat) : State :=
  let x := Tab.getD s.thm.channels c {}
  if x.n = 0 then s
  else
    let y := { x with sum := 0, n := 0 }.take (x.sum / (x.n : Int))
    let s := { s with thm := { s.thm with channels := Tab.put s.thm.channels c y.2 } }
    match y.1 with
    | some v => { s with fb := { s.fb with work := s.fb.work.reversal c v } }
    | none => s

/-- The highest of the four quarters' means of the present second, where each has a step. -/
def State.hotMean (s : State) : Option Int :=
  [0, 1, 2, 3].foldl (fun (m : Option Int) q =>
    let x := Tab.getD s.thm.channels q {}
    if x.n = 0 then m else some (match m with | some v => max v (x.sum / (x.n : Int)) | none => x.sum / (x.n : Int))) none

/-- CYCLE_SAMPLE (R656, R657): one second of each channel. -/
def execCycleSample (s : State) : Host.Outcome State Fault Refusal :=
  if !s.alive || !s.thm.forecaster then .next s
  else
    let s := match s.hotMean with
      | some v => { s with thm := { s.thm with hourSum := s.thm.hourSum + v, hourN := s.thm.hourN + 1 } }
      | none => s
    .next (([0, 1, 2, 3, 4].foldl (fun t c => t.sampleChannel c) s).updateLife)

/-- HOUR_BAND_UPDATE (R658): an hour with at least 30 minutes of samples adds one to the band of its mean. -/
def execHourBandUpdate (s : State) : Host.Outcome State Fault Refusal :=
  if !s.alive || !s.hnd.running then .next s
  else
    let n : Int := s.thm.hourN
    let sum := s.thm.hourSum
    let band := if sum ≤ 1360 * n then 0 else if sum ≤ 1520 * n then 1 else if sum ≤ 1680 * n then 2 else 3
    let t := { s with thm := { s.thm with hourSum := 0, hourN := 0 } }
    if s.thm.hourN < 1800 then .next t
    else .next (State.updateLife { t with fb := { t.fb with work := { t.fb.work with hours := bump t.fb.work.hours band } } })

end Sys2Proof.Machine
end

