-- ==== Sys2Proof/Machine/Registers.lean ====
section
/-!
DEFINITION. Machine/Registers.lean: BAR0 writes to every register of Table 22.2, field by field by its access and its change
class (R12 to R18, R128, R129, R718 to R720), and bad accesses (R483). A write to a register that another command of the
table also names runs that command. Any write that reaches a class L field while its block runs is ignored for that field
and recorded (assumption log).
-/
namespace Sys2Proof.Machine

/-- The state a command leads to, for a register write that starts it. -/
def ran (s : State) (o : Host.Outcome State Fault Refusal) : State :=
  match o with
  | .next t => t
  | _ => s

/-- A value held between two bounds. -/
def clampNat (lo hi v : Nat) : Nat := max lo (min hi v)

/-! ### SYS (chapters 9, 16) -/

def State.writeSys (s : State) (fn rel : Nat) (v : DWord) : State :=
  let g := (s.fn fn).rng
  let put (x : RngFn) : State := s.modFn fn fun f => { f with rng := x }
  let lock : State := s.rngLocked fn rel v.toNat
  match rel with
  | 0x118 => if g.busy then lock else put { g with key := v }
  | 0x120 => if g.busy then lock else put { g with ctrLo := v }
  | 0x128 => if g.busy then lock else put { g with ctrHi := v }
  | 0x140 =>
    if bitOf v 0 then ran s (execRngCompute fn (fld v 0 32) s)
    else if g.busy then lock
    else put { g with seedMode := bitOf v 1, fieldLocked := g.fieldLocked && !bitOf v 3 }
  | 0x200 => if fn = 0 ∧ bitOf v 20 then { s with sup := { s.sup with readbackFault := false } } else s
  | _ => s

/-! ### HST (chapter 14) -/

def State.modHst (s : State) (fn : Nat) (g : HstFn → HstFn) : State := s.modFn fn fun f => { f with hst := g f.hst }

/-- An output ring runs while any context bound to it is not FREE (R507). -/
def State.oqRuns (s : State) (fn ring : Nat) : Bool :=
  s.hrd.ctxs.any fun p => p.2.st != .free && p.2.func == fn && p.2.rings.contains (some ring)

/-- One of the four registers of a submission ring. -/
def State.writeSq (s : State) (fn ring sub off : Nat) (v : DWord) : State :=
  let q := s.sq fn ring
  match sub with
  | 0 => if q.runs then s.hstLocked fn off v.toNat
    else s.setSq fn ring { q with host := bitOf v 0, addr := fld v 6 58 }
  | 8 => ran s (execSqBind fn ring (fld v 0 32) s)
  | 0x14 => if bitOf v 1 then ran s (execSqDrop fn ring s) else if bitOf v 0 then ran s (execSqResume fn ring s) else s
  | _ => s

/-- One of the registers of an output ring. -/
def State.writeOq (s : State) (fn ring sub off : Nat) (v : DWord) : State :=
  let o := s.oq fn ring
  let lock : State := s.hstLocked fn off v.toNat
  match sub with
  | 0 => if s.oqRuns fn ring then lock else s.setOq fn ring { o with host := bitOf v 0, addr := fld v 6 58 }
  | 8 => if s.oqRuns fn ring then lock
    else s.setOq fn ring { o with log2 := BitVec.ofNat 5 (clampNat 6 24 (nfld v.toNat 0 5)) }
  | 0x10 => if s.oqRuns fn ring then lock else s.setOq fn ring { o with wbHost := bitOf v 0, wbAddr := fld v 3 61 }
  | 0x18 => s.setOq fn ring { o with
      vec := fld v 0 8, en := bitOf v 8, coalUs := fld v 9 10, count := if fld v 19 8 = 0 then 1 else fld v 19 8 }
  | 0x1C => s.setOq fn ring { o with drainLate := o.drainLate && !bitOf v 0 }
  | _ => s

def State.writeHst (s : State) (fn rel : Nat) (v : DWord) : State :=
  let h := (s.fn fn).hst
  match rel with
  | 0x004 => s.modHst fn fun h => { h with
      fieldLocked := h.fieldLocked && !bitOf v 0, drainLate := h.drainLate && !bitOf v 1, dropsSeen := h.dropsSeen && !bitOf v 2 }
  | 0x008 => if bitOf v 0 then ran s (execWarmResetRequest fn s) else s
  | 0x010 => ran s (execBar2BaseWrite fn v s)
  | 0x018 => s.modHst fn fun h => { h with errVec := fld v 0 8, errEn := bitOf v 8 }
  | 0x3400 => s.modHst fn fun h => { h with orbCtx := fld v 0 12, orbRing := fld v 12 3 }
  | 0x3404 =>
    let c := h.orbCtx.toNat
    if (s.ctx c).st ≠ .free ∧ (s.ctx c).func = fn then s.hstLocked fn 0x103404 v.toNat
    else s.modHst fn fun h => { h with bindings := Tab.put h.bindings (c * 8 + h.orbRing.toNat) (fld v 0 6, bitOf v 6) }
  | _ =>
    if 0x100 ≤ rel ∧ rel < 0x500 then s.writeSq fn ((rel - 0x100) / 0x20) (rel % 0x20) (0x100000 + rel) v
    else if 0x1000 ≤ rel ∧ rel < 0x2000 then s.writeOq fn ((rel - 0x1000) / 0x40) (rel % 0x40) (0x100000 + rel) v
    else if 0x3000 ≤ rel ∧ rel < 0x3080 then ran s (execSqDoorbell fn ((rel - 0x3000) / 4) (fld v 0 32) s)
    else if 0x3100 ≤ rel ∧ rel < 0x3200 then ran s (execOqCidxWrite fn ((rel - 0x3100) / 4) (fld v 0 32) s)
    else s

/-- A 32-bit write into the MSI-X table: a vector unmasked while its pending bit is set is sent (PCIe Base 5.0). The
pending-bit array is read-only. -/
def State.writeMsix (s : State) (fn off : Nat) (v : Word) : State :=
  if 0x109000 ≤ off then s
  else
    let i := (off - 0x108000) / 16
    let e := Tab.getD (s.fn fn).hst.vectors i {}
    let e : Vector := match off % 16 / 4 with
      | 0 => { e with addr := e.addr.extractLsb' 32 32 ++ (v &&& 0xFFFFFFFC) }
      | 1 => { e with addr := v ++ e.addr.extractLsb' 0 32 }
      | 2 => { e with data := v }
      | _ => { e with masked := v.getLsbD 0 }
    let send : Bool := e.pendingBit && !e.masked && s.hst.linkUp
    let e := if send then { e with pendingBit := false } else e
    let s := s.modHst fn fun h => { h with vectors := Tab.put h.vectors i e }
    s.emitIf send (.msix fn i e.addr e.data)

/-! ### SVY (chapter 3) -/

def State.modSvy (s : State) (fn : Nat) (g : SvyFn → SvyFn) : State := s.modFn fn fun f => { f with svy := g f.svy }

def State.writeSvy (s : State) (fn rel : Nat) (v : DWord) : State :=
  let busy := (s.fn fn).svy.busy
  let lock : State := s.svyLocked fn (0x200000 + rel) v.toNat
  match rel with
  | 0x004 => { s with svy := { s.svy with
      fieldLocked := s.svy.fieldLocked && !bitOf v 0, routeFault := s.svy.routeFault && !bitOf v 2
      migrateSkip := s.svy.migrateSkip && !bitOf v 3 } }
  | 0x008 => if busy then lock else s.modSvy fn fun g => { g with addr := fld v 6 58 }
  | 0x010 => if busy then lock else s.modSvy fn fun g => { g with len := fld v 0 25 }
  | 0x014 => if bitOf v 31 then s.svyGo fn (nfld v.toNat 0 4) (nfld v.toNat 4 2) v.toNat else if busy then lock
    else s.modSvy fn fun g => { g with slot := fld v 0 4, op := fld v 4 2 }
  | 0x018 => s.modSvy fn fun g => { g with done := g.done && !bitOf v 1 }
  | 0x01C => s.modSvy fn fun g => { g with sel := fld v 0 4 }
  | _ =>
    if 0x100 ≤ rel ∧ rel < 0x140 ∧ fn = 0 then
      let n := (rel - 0x100) / 4
      if (s.slot n).state ≠ .empty then lock else s.setSlot n { s.slot n with owner := fld v 0 4 }
    else s

/-! ### HRD (chapter 8) -/

def State.modHrd (s : State) (fn : Nat) (g : HrdFn → HrdFn) : State := s.modFn fn fun f => { f with hrd := g f.hrd }

/-- A write to HRD_CTX_CFG, HRD_CTX_TIME or HRD_CTX_SEED: of a FREE context it goes to the function's own copy; of one that
the function admitted its class L fields are locked and its class S fields wait for the next frame; of another function's
it is ignored (R286, R303, R324). -/
def State.writeCtx (s : State) (fn off : Nat) (v : DWord) : State :=
  let c := (s.fn fn).hrd.ctxSel.toNat
  let r := s.ctxRegs fn c
  let x := s.ctx c
  if x.st = .free then
    match off with
    | 0x400030 => s.setCtxRegs fn c { r with
        slot := fld v 0 4, template := fld v 4 8, source := fld v 12 2, feed := fld v 14 12, spanPin := fld v 26 3
        placePin := bitOf v 29 }
    | 0x400038 => s.setCtxRegs fn c { r with
        periodUs := BitVec.ofNat 32 (clampNat 1000 10000000 (nfld v.toNat 0 32)), deadlineUs := fld v 32 32 }
    | _ => s.setCtxRegs fn c { r with seed := v }
  else if x.func ≠ fn then s
  else
    let s := match off with
      | 0x400030 =>
        let pin := nfld v.toNat 26 3
        let ok : Bool := (s.ctxTmpl c).any fun t => s.pinValid t pin
        s.modCtx c fun y => { y with
          pendSpan := if ok then some (BitVec.ofNat 3 pin) else y.pendSpan, pendPlace := some (bitOf v 29) }
      | 0x400038 => s.modCtx c fun y => { y with pendDeadline := some (fld v 32 32) }
      | _ => s
    s.hrdLocked fn (some c) off v.toNat

def State.writeHrd (s : State) (fn rel : Nat) (v : DWord) : State :=
  let heapRuns : Bool := s.hrd.ctxs.any fun p => p.2.st != .free
  match rel with
  | 0x004 => { s with hrd := { s.hrd with
      fieldLocked := s.hrd.fieldLocked && !bitOf v 0, late := s.hrd.late && !bitOf v 3
      pinBroken := s.hrd.pinBroken && !bitOf v 4 } }
  | 0x008 => if fn ≠ 0 then s else { s with hrd := { s.hrd with
      widenEn := bitOf v 0, steerMargin := if fld v 1 4 = 0 then 1 else fld v 1 4 } }
  | 0x018 => if fn ≠ 0 then s else if heapRuns then s.hrdLocked fn none 0x400018 v.toNat
    else { s with hrd := { s.hrd with heapBase := fld v 12 52 } }
  | 0x020 => if fn ≠ 0 then s else if heapRuns then s.hrdLocked fn none 0x400020 v.toNat
    else { s with hrd := { s.hrd with heapLen := fld v 12 52 } }
  | 0x028 => s.modHrd fn fun g => { g with ctxSel := fld v 0 12 }
  | 0x02C =>
    if !bitOf v 31 then s.modHrd fn fun g => { g with op := fld v 0 2 }
    else match nfld v.toNat 0 2 with
      | 1 => ran s (execContextAdmit ⟨fn, []⟩ s)
      | 2 => ran s (execContextEndAfterFrame fn s)
      | 3 => ran s (execContextEndNow fn s)
      | _ => s.modHrd fn fun g => { g with op := 0 }
  | 0x030 | 0x038 | 0x040 => s.writeCtx fn (0x400000 + rel) v
  | 0x058 => s.modHrd fn fun g => { g with fenceSel := fld v 0 8 }
  | 0x05C =>
    let s := if bitOf v 0 then ran s (execDriverFence fn s) else s
    if bitOf v 1 then ran s (execUnfenceRequest fn s) else s
  | _ => s

/-! ### RTV (chapter 7) -/

/-- A unit of a kind bound to a place has commands queued. -/
def State.unitsQueue (s : State) (kind place : Nat) : Bool :=
  s.hrd.ctxs.any fun p => match p.2.running with
    | some (_, r) => r.units.any fun u => u.kind == kind && u.place == place && !u.queue.isEmpty
    | none => false

/-- A channel runs while any command of it is started or queued. -/
def State.chanRuns (s : State) (ch : Nat) : Bool :=
  !(s.chan ch).started.isEmpty || !(s.chan ch).driverQ.isEmpty || s.unitsQueue 3 ch

/-- A locked write to a channel's fields (E-RTV-10, R270), which LAST_ERR then holds (Table 7.10). -/
def State.chanLocked (s : State) (fn ch off value : Nat) : State :=
  (s.modChan ch fun x => { x with fieldLocked := true, lastErr := 10 }).lockedRecord .rtv 10 fn off value

/-- One of a channel's registers: a function writes those of driver-mode channels it owns, the physical function every
RTV_CH_CFG (R285). -/
def State.writeChan (s : State) (fn ch sub : Nat) (v : DWord) : State :=
  let x := s.chan ch
  let off := 0x800000 + 0x100 * ch + sub
  if !(s.ownsChan fn ch || (fn == 0 && sub == 0)) then s
  else
    match sub with
    | 0x00 => if s.chanRuns ch then s.chanLocked fn ch off v.toNat
      else s.setChan ch { x with mode := if fld v 0 2 = 3 then 0 else fld v 0 2, func := fld v 2 4 }
    | 0x04 => s.setChan ch { x with fieldLocked := x.fieldLocked && !bitOf v 9 }
    | 0x08 => if bitOf v 1 then ran s (execChannelDrop fn ch s)
      else if bitOf v 0 then ran s (execChannelResume fn ch s) else s
    | 0x10 => if s.chanRuns ch then s.chanLocked fn ch off v.toNat
      else s.setChan ch { x with crecHost := bitOf v 0, crecAddr := fld v 6 58 }
    | 0x18 => if s.chanRuns ch then s.chanLocked fn ch off v.toNat
      else s.setChan ch { x with
        crecLog2 := BitVec.ofNat 5 (clampNat 4 16 (nfld v.toNat 0 5)), head := 0, tail := 0, phase := true }
    | 0x20 => ran s (execCrecTailWrite fn ch (fld v 0 32) s)
    | _ => s

def State.writeRtv (s : State) (fn rel : Nat) (v : DWord) : State :=
  if rel < 0x4000 then s.writeChan fn (rel / 0x100) (rel % 0x100) v
  else match rel with
    | 0x10008 => s.modFn fn fun g => { g with tallySel := fld v 0 12 }
    | 0x1000C => ran s (execTallyValueWrite fn (fld v 0 32) s)
    | _ => s

/-! ### EC and DCE (chapters 10, 12) -/

def State.writeEc (s : State) (fn rel : Nat) (v : DWord) : State :=
  let e := (s.fn fn).ecSel.toNat
  match rel with
  | 0x004 => { s with ec := { s.ec with
      fieldLocked := s.ec.fieldLocked && !bitOf v 0, checkFail := s.ec.checkFail && !bitOf v 1
      malformed := s.ec.malformed && !bitOf v 2 } }
  | 0x008 => s.modFn fn fun g => { g with ecSel := fld v 0 4 }
  | 0x00C =>
    if fn ≠ 0 then s
    else if !(s.ecEngine e).started.isEmpty || s.unitsQueue 1 e then
      State.lockedRecord { s with ec := { s.ec with fieldLocked := true } } .ec 8 fn 0xC0000C v.toNat
    else s.setEcEngine e { s.ecEngine e with offline := bitOf v 0 }
  | _ => s

def State.writeDce (s : State) (fn rel : Nat) (v : DWord) : State :=
  let e := (s.fn fn).dceSel.toNat
  match rel with
  | 0x004 => { s with dce := { s.dce with
      fieldLocked := s.dce.fieldLocked && !bitOf v 0, checkFail := s.dce.checkFail && !bitOf v 1 } }
  | 0x008 => s.modFn fn fun g => { g with dceSel := fld v 0 3 }
  | 0x00C =>
    if fn ≠ 0 then s
    else if !(s.engineCmds e).isEmpty || s.unitsQueue 2 e then
      State.lockedRecord { s with dce := { s.dce with fieldLocked := true } } .dce 1 fn 0xE0000C v.toNat
    else s.setDceEngine e { s.dceEngine e with offline := bitOf v 0 }
  | _ => s

/-! ### ING (chapter 13) -/

/-- One of a port's registers; only the physical function writes them. -/
def State.writePort (s : State) (fn port sub : Nat) (v : DWord) : State :=
  let p := s.port port
  let off := 0x1000000 + 0x40 * port + sub
  if fn ≠ 0 then s
  else
    match sub with
    | 0x00 =>
      if bitOf v 0 then ran s (execPortEnable fn port (fld v 0 32) s)
      else if p.en then
        let s := s.portLocked fn port off v.toNat
        s.setPort port { s.port port with en := false, link := false }
      else s.setPort port (p.withCtrl v.toNat)
    | 0x04 => s.setPort port { p with fieldLocked := p.fieldLocked && !bitOf v 1 }
    | 0x08 => if p.en then s.portLocked fn port off v.toNat else s.setPort port { p with mac := fld v 0 48 }
    | 0x10 => s.setPort port { p with weights := (List.range 8).map fun i => if fld v (4 * i) 4 = 0 then 1 else fld v (4 * i) 4 }
    | _ => s

/-- A locked write to an exception-ring or host-feed register (E-ING-03, R128): FIELD_LOCKED of both Gate ports, the block's
status registers (DESIGN CHOICE, log 25: Table 13.8 gives those rings no status of their own). -/
def State.ingLocked (s : State) (fn off value : Nat) : State :=
  let mark (t : State) (p : Nat) : State := t.setPort p { t.port p with fieldLocked := true }
  (mark (mark s 0) 1).lockedRecord .ing 3 fn off value

/-- The exception ring runs while an exception entry is pending (Table 13.8). -/
def State.excRuns (s : State) : Bool := s.ing.excHead != s.ing.excTail

def State.writeRings (s : State) (fn rel : Nat) (v : DWord) : State :=
  let h := (s.fn fn).feed
  let feedRuns : Bool := h.head != h.tail
  let log2 : BitVec 5 := BitVec.ofNat 5 (clampNat 4 12 (nfld v.toNat 0 5))
  let lock : State := s.ingLocked fn (0x1000000 + rel) v.toNat
  match rel with
  | 0x108 => if fn ≠ 0 then s else if s.excRuns then lock else { s with ing := { s.ing with excAddr := fld v 6 58 } }
  | 0x110 => if fn ≠ 0 then s else if s.excRuns then lock else { s with ing := { s.ing with excLog2 := log2 } }
  | 0x118 => ran s (execExcTailWrite fn (fld v 0 32) s)
  | 0x120 => if feedRuns then lock else s.modFn fn fun g => { g with feed := { h with host := bitOf v 0, addr := fld v 6 58 } }
  | 0x128 => if feedRuns then lock else s.modFn fn fun g => { g with feed := { h with log2 := log2 } }
  | 0x130 => ran s (execHostFeedDoorbell fn (fld v 0 32) s)
  | _ => s

/-- A stream's other registers, as a write stores them (Table 13.9). -/
def Stream.withField (x : Stream) (rel : Nat) (v : DWord) : Stream :=
  match rel with
  | 0x148 => { x with
      port := fld v 0 2, ipv6 := bitOf v 2, codec := fld v 3 2, ssrcEn := bitOf v 5, pt := fld v 6 7, udpPort := fld v 13 16
      ssrc := fld v 32 32 }
  | 0x150 => { x with daddrLo := v }
  | 0x158 => { x with daddrHi := v }
  | 0x160 => { x with
      maxW := fld v 0 13, maxH := fld v 13 12, rateX10 := fld v 25 10, refSlots := fld v 35 5
      jitterMs := if 200 < nfld v.toNat 40 8 then 200 else fld v 40 8
      closeMs := if fld v 48 8 = 0 then 1 else fld v 48 8, depth10 := bitOf v 56 }
  | 0x168 => { x with bufBase := fld v 12 52 }
  | 0x170 => { x with inputOff := fld v 16 32, gapMax := fld v 48 16 }
  | _ => x

/-- A write to the stream that ING_STRM_SEL names, by the function that admitted its context (R479). -/
def State.writeStream (s : State) (fn rel : Nat) (v : DWord) : State :=
  let n := (s.fn fn).strmSel.toNat
  let x := s.stream n
  let c := s.ctx x.ctx.toNat
  if rel = 0x144 then
    (if bitOf v 0 then ran s (execStreamEnable fn (fld v 0 32) s) else ran s (execStreamDisable fn (fld v 0 32) s))
  else if !(c.st != .free && c.func == fn) then s
  else
    let s := if rel = 0x170 ∧ bitOf v 2 then s.modStream n fun y => { y with fieldLocked := false } else s
    if x.enable then s.streamLocked fn n (0x1000000 + rel) v.toNat else s.modStream n fun y => y.withField rel v

def State.writeIng (s : State) (fn rel : Nat) (v : DWord) : State :=
  if rel < 0x80 then s.writePort fn (rel / 0x40) (rel % 0x40) v
  else if rel = 0x140 then s.modFn fn fun g => { g with strmSel := fld v 0 12 }
  else if rel < 0x140 then s.writeRings fn rel v
  else if rel ∈ [0x144, 0x148, 0x150, 0x158, 0x160, 0x168, 0x170] then s.writeStream fn rel v
  else s

/-! ### PCK (chapter 15) -/

/-- PCK_JOB_CFG of the selected job: locked while the context CTX names is not FREE (Table 15.9). -/
def State.writeJob (s : State) (fn : Nat) (v : DWord) : State :=
  let j := s.pck.jobSel.toNat
  let x := s.job j
  if (s.ctx x.ctx.toNat).st != .free then s.pckLocked fn 0x1400054 v.toNat
  else s.setJob j { ctx := fld v 0 12, template := fld v 12 8, valid := bitOf v 20 }

/-- PCK_EPOCH_CFG: SRC, and then LOAD (R521). A change of SRC begins locking, or free run. -/
def State.writeEpochCfg (s : State) (fn : Nat) (v : DWord) : State :=
  if s.pck.busy then s.pckLocked fn epochCfgOff v.toNat
  else
    let s := if bitOf v 0 = s.pck.srcExternal then s
      else { s with pck := { s.pck with
        srcExternal := bitOf v 0
        epoch := { s.pck.epoch with ext := if bitOf v 0 then .locking else .freeRun, ppsRun := 0 } } }
    if bitOf v 1 then ran s (execEpochLoadRequest fn s) else s

def State.writePck (s : State) (fn rel : Nat) (v : DWord) : State :=
  let lock : State := s.pckLocked fn (0x1400000 + rel) v.toNat
  let set (p : Pck) : State := if s.pck.busy then lock else { s with pck := p }
  if fn ≠ 0 then s
  else match rel with
    | 0x004 => { s with pck := { s.pck with fieldLocked := s.pck.fieldLocked && !bitOf v 5 } }
    | 0x008 =>
      let s := if bitOf v 0 then ran s (execPackForm fn s) else s
      if bitOf v 1 then ran s (execPackLeave fn s) else s
    | 0x00C => set { s.pck with formTimeout := BitVec.ofNat 10 (clampNat 1 600 (nfld v.toNat 0 10)) }
    | 0x010 => set { s.pck with slot := fld v 0 4, shape := fld v 4 16, member := fld v 20 11 }
    | 0x018 => set { s.pck with packId := v }
    | 0x020 => set { s.pck with admitAddr := fld v 6 58 }
    | 0x038 => set { s.pck with epochSet := v }
    | 0x040 => s.writeEpochCfg fn v
    | 0x050 => { s with pck := { s.pck with jobSel := fld v 0 8 } }
    | 0x054 => s.writeJob fn v
    | _ =>
      if 0x100 ≤ rel ∧ rel < 0x200 then
        let p := (rel - 0x100) / 0x20
        match rel % 0x20 with
        | 0x00 => if s.pck.busy then lock
          else s.modLink p fun x => { x with en := bitOf v 0, link := x.link && bitOf v 0 }
        | 0x08 => if s.pck.busy then lock else s.modLink p fun x => { x with asym := fld v 0 32 }
        | _ => s
      else s

/-! ### THM (chapter 19) -/

def State.writeThm (s : State) (fn rel : Nat) (v : DWord) : State :=
  let u := (s.fn fn).unitSel.toNat
  match rel with
  | 0x004 => { s with thm := { s.thm with fallback := s.thm.fallback && !bitOf v 2 } }
  | 0x008 => if fn ≠ 0 then s else { s with thm := { s.thm with limit := BitVec.ofNat 7 (clampNat 90 102 (nfld v.toNat 0 7)) } }
  | 0x00C => if fn ≠ 0 then s else { s with thm := { s.thm with bias := fld v 0 16 } }
  | 0x010 => s.modFn fn fun g => { g with unitSel := BitVec.ofNat 8 (min 173 (nfld v.toNat 0 8)) }
  | 0x014 =>
    if fn ≠ 0 ∨ !s.throttleable u then s
    else
      let f := nfld v.toNat 0 7
      s.modThm u fun x => { x with floor_ := if f = 0 then 0 else BitVec.ofNat 7 (clampNat (minThr u) (s.maxThr u) f) }
  | 0x030 => s.modFn fn fun g => { g with cycleSel := BitVec.ofNat 7 (nfld v.toNat 3 4 * 8 + min 4 (nfld v.toNat 0 3)) }
  | 0x03C => s.modFn fn fun g => { g with hoursSel := fld v 0 2 }
  | _ => s

/-! ### ERL, CAD and HND (chapters 18, 20) -/

def State.writeErl (s : State) (fn rel : Nat) (v : DWord) : State :=
  let g := (s.fn fn).ring
  match rel with
  | 0x004 => s.modFn fn fun x => { x with ring := { g with
      fieldLocked := g.fieldLocked && !bitOf v 0, overflow := g.overflow && !bitOf v 1 } }
  | 0x008 => ran s (execAlertClear fn (fld v 0 32) s)
  | 0x010 => if g.en then s.erlLocked fn 0x1C00010 v.toNat
    else s.modFn fn fun x => { x with ring := { g with host := bitOf v 0, addr := fld v 6 58 } }
  | 0x018 => ran s (execErrorRingEnable fn (fld v 0 32) s)
  | 0x020 => ran s (execErlRingTailWrite fn (fld v 0 32) s)
  | 0x02C => s.modFn fn fun x => { x with histSel := fld v 0 8 }
  | _ => s

/-- A CAD_ register: the two selectors are writable, any other write is a violation (R618, R640). -/
def State.writeCad (s : State) (fn rel : Nat) (v : DWord) : State :=
  match rel with
  | 0x020 => s.modFn fn fun g => { g with entrySel := fld v 0 9 }
  | 0x040 => s.modFn fn fun g => { g with keySel := fld v 0 3 }
  | _ => s.cadViolation (some fn) (0x2000000 + rel) v.toNat

def State.writeHnd (s : State) (fn rel : Nat) (v : DWord) : State :=
  let m := (s.fn fn).mailbox
  let lock : State := s.hndLocked fn (0x2400000 + rel) v.toNat
  let put (m : Mailbox) : State := s.modFn fn fun g => { g with mailbox := m }
  match rel with
  | 0x004 => { s with hnd := { s.hnd with fieldLocked := s.hnd.fieldLocked && !bitOf v 2 } }
  | 0x010 => if bitOf v 0 then ran s (execHandlerResetRequest fn s) else s
  | 0x014 => if bitOf v 31 then s.mailboxGo fn (nfld v.toNat 0 8) else if m.busy then lock else put { m with code := fld v 0 8 }
  | 0x018 => put { m with done := m.done && !bitOf v 1 }
  | 0x01C => put { m with vec := fld v 0 8, vecEn := bitOf v 8 }
  | _ => if 0x20 ≤ rel ∧ rel < 0x40 then (if m.busy then lock else put { m with args := m.args.set ((rel - 0x20) / 8) v }) else s

/-! ### FAB, MEM and SUP (chapters 2, 6, 17) -/

def State.writeFab (s : State) (fn q sub : Nat) (v : DWord) : State :=
  match sub with
  | 0x004 => s.modQuarter q fun k => { k with
      fieldLocked := k.fieldLocked && !bitOf v 0, auditFail := k.auditFail && !bitOf v 2, stall := k.stall && !bitOf v 3
      xingParity := k.xingParity && !bitOf v 4 }
  | 0x008 => if fn ≠ 0 then s else s.modQuarter q fun k => { k with periodMs := BitVec.ofNat 10 (clampNat 1 1000 (nfld v.toNat 0 10)) }
  | 0x00C =>
    let t := nfld v.toNat 0 14
    if fn ≠ 0 then s else s.modQuarter q fun k => { k with stallMs := if t = 0 then 0 else BitVec.ofNat 14 (clampNat 10 10000 t) }
  | 0x010 =>
    if fn ≠ 0 then s
    else if bitOf v 31 then ran s (execAuditRequest fn q (nfld v.toNat 0 12) s)
    else if (s.quarter q).driverBusy then s.fabLocked fn q (fabAuditReqOff q) v.toNat
    else s.modQuarter q fun k => { k with reqRoute := fld v 0 12 }
  | 0x018 => s.modFn fn fun g => { g with fabSel := Tab.put g.fabSel q (fld v 0 12) }
  | _ => s

def State.writeMem (s : State) (fn rel : Nat) (v : DWord) : State :=
  match rel with
  | 0x004 => { s with mem := { s.mem with ue := s.mem.ue && !bitOf v 1 } }
  | 0x008 => if bitOf v 0 then ran s (execMemInvalRequest fn s) else s
  | 0x00C => if fn ≠ 0 then s else { s with mem := { s.mem with scrubHours := BitVec.ofNat 8 (clampNat 1 168 (nfld v.toNat 0 8)) } }
  | _ => s

def State.writeSup (s : State) (fn rel : Nat) (v : DWord) : State :=
  match rel with
  | 0x004 => { s with sup := { s.sup with
      fieldLocked := s.sup.fieldLocked && !bitOf v 5, dipCancelled := s.sup.dipCancelled && !bitOf v 6 } }
  | 0x008 =>
    if bitOf v 31 then ran s (execProfileChange fn (nfld v.toNat 0 2) s)
    else if fn ≠ 0 then s
    else if s.sup.profileBusy then s.supLocked fn 0x3000008 v.toNat
    else { s with sup := { s.sup with profileReq := fld v 0 2 } }
  | 0x020 => s.modFn fn fun g => { g with rrSel := fld v 0 12 }
  | 0x024 => if bitOf v 0 then ran s (execRestartRecordsClear fn s) else s
  | _ => s

/-! ### The commands -/

/-- A write to the register at a BAR0 offset (Table 22.1). -/
def State.writeReg (s : State) (fn off : Nat) (v : DWord) : State :=
  let b := blockOf off
  let rel := off - b
  match b with
  | 0x0000000 => s.writeSys fn rel v
  | 0x0100000 => s.writeHst fn rel v
  | 0x0200000 => s.writeSvy fn rel v
  | 0x0400000 => s.writeHrd fn rel v
  | 0x0800000 => s.writeRtv fn rel v
  | 0x0C00000 => s.writeEc fn rel v
  | 0x0E00000 => s.writeDce fn rel v
  | 0x1000000 => s.writeIng fn rel v
  | 0x1400000 => s.writePck fn rel v
  | 0x1800000 => s.writeThm fn rel v
  | 0x1C00000 => s.writeErl fn rel v
  | 0x2000000 => s.writeCad fn rel v
  | 0x2400000 => s.writeHnd fn rel v
  | 0x2800000 => s.writeFab fn (rel / 0x10000) (rel % 0x10000) v
  | 0x2C00000 => s.writeMem fn rel v
  | 0x3000000 => s.writeSup fn rel v
  | _ => s

/-- REGISTER_WRITE (R12 to R18, R483): a 64-bit write where `wide`, else a 32-bit write of the value's low word. -/
def execRegisterWrite (fn off : Nat) (wide : Bool) (value : DWord) (s : State) : Host.Outcome State Fault Refusal :=
  let v : DWord := if wide then value else (fld value 0 32).setWidth 64
  if !s.hostReach fn then .next s
  else match accessOf off (if wide then 8 else 4) with
    | .bad => .next (s.accessError fn)
    | .nothing => .next s
    | .msix =>
      let t := s.writeMsix fn off (fld v 0 32)
      .next (if wide then t.writeMsix fn (off + 4) (fld v 32 32) else t)
    | .register => .next (s.writeReg fn off v)

/-- BAD_ACCESS (R483): counted in HST_ACC_ERR with E-HST-01; a read returns all ones. -/
def execBadAccess (fn off size : Nat) (write : Bool) (s : State) : Host.Outcome State Fault Refusal :=
  if !s.hostReach fn || accessOf off size != .bad then .next s
  else .next ((s.accessError fn).emitIf (!write) (.readOnes fn))

/-- CAD_REGISTER_WRITE (R618): a BAR0 write to a CAD_ register other than the two selectors. -/
def execCadRegisterWrite (fn off : Nat) (wide : Bool) (value : DWord) (s : State) : Host.Outcome State Fault Refusal :=
  if !s.hostReach fn || blockOf off != 0x2000000 || off == 0x2000020 || off == 0x2000040 ||
      accessOf off (if wide then 8 else 4) != .register then .next s
  else .next (s.cadViolation (some fn) off value.toNat)

end Sys2Proof.Machine
end

