-- ==== Sys2Proof/Machine/Dispatch.lean ====
section
/-!
DEFINITION. Machine/Dispatch.lean: one arm per command, a direct call of its meaning.
-/
namespace Sys2Proof.Machine
open Sys2Proof

def exec (i : Instr) (s : State) : Host.Outcome State Fault Refusal :=
  match i with
  | .registerWrite fn off wide value => Sys2Proof.Machine.execRegisterWrite fn off wide value s
  | .badAccess fn off size write => Sys2Proof.Machine.execBadAccess fn off size write s
  | .routeSend ctx unit port src len => Sys2Proof.Machine.execRouteSend ctx unit port src len s
  | .blockedSendProceed route => Sys2Proof.Machine.execBlockedSendProceed route s
  | .messageArrive route seq msg => Sys2Proof.Machine.execMessageArrive route seq msg s
  | .routeRead ctx unit port => Sys2Proof.Machine.execRouteRead ctx unit port s
  | .blockedReadProceed route => Sys2Proof.Machine.execBlockedReadProceed route s
  | .slotFree route => Sys2Proof.Machine.execSlotFree route s
  | .leashReceive route => Sys2Proof.Machine.execLeashReceive route s
  | .auditPeriodTick quarter => Sys2Proof.Machine.execAuditPeriodTick quarter s
  | .auditRequest fn quarter route => Sys2Proof.Machine.execAuditRequest fn quarter route s
  | .auditDrainDone drain => Sys2Proof.Machine.execAuditDrainDone drain s
  | .auditDrainTimeout drain => Sys2Proof.Machine.execAuditDrainTimeout drain s
  | .stallDetected ctx => Sys2Proof.Machine.execStallDetected ctx s
  | .crossingParityError route leash => Sys2Proof.Machine.execCrossingParityError route leash s
  | .routeReclaimDone route => Sys2Proof.Machine.execRouteReclaimDone route s
  | .loadRequest fn slot => Sys2Proof.Machine.execLoadRequest fn slot s
  | .replaceRequest fn slot => Sys2Proof.Machine.execReplaceRequest fn slot s
  | .unloadRequest fn slot => Sys2Proof.Machine.execUnloadRequest fn slot s
  | .invalidSurveyOp fn slot => Sys2Proof.Machine.execInvalidSurveyOp fn slot s
  | .loadStart => Sys2Proof.Machine.execLoadStart s
  | .slotCommit ue => Sys2Proof.Machine.execSlotCommit ue s
  | .loadRefused ue => Sys2Proof.Machine.execLoadRefused ue s
  | .gridOp ctx unit args => Sys2Proof.Machine.execGridOp ctx unit args s
  | .exportPartial ctx unit acc dst => Sys2Proof.Machine.execExportPartial ctx unit acc dst s
  | .mergePartial ctx unit acc src => Sys2Proof.Machine.execMergePartial ctx unit acc src s
  | .vectorOp ctx unit args => Sys2Proof.Machine.execVectorOp ctx unit args s
  | .functionUnitEval ctx unit f fmt n src outFmt dst => Sys2Proof.Machine.execFunctionUnitEval ctx unit f fmt n src outFmt dst s
  | .rowReduce ctx unit args => Sys2Proof.Machine.execRowReduce ctx unit args s
  | .softMaximum ctx unit args => Sys2Proof.Machine.execSoftMaximum ctx unit args s
  | .normalisation ctx unit args norm => Sys2Proof.Machine.execNormalisation ctx unit args norm s
  | .rowPartialEmit ctx unit args emit => Sys2Proof.Machine.execRowPartialEmit ctx unit args emit s
  | .rowPartialMerge ctx unit a b dst => Sys2Proof.Machine.execRowPartialMerge ctx unit a b dst s
  | .reachLoad ctx unit addr len isVolatile ue => Sys2Proof.Machine.execReachLoad ctx unit addr len isVolatile ue s
  | .reachLoadReturn ctx unit ue => Sys2Proof.Machine.execReachLoadReturn ctx unit ue s
  | .tallyWait ctx unit tally target => Sys2Proof.Machine.execTallyWait ctx unit tally target s
  | .tallyWaitRelease ctx unit => Sys2Proof.Machine.execTallyWaitRelease ctx unit s
  | .unitEnd ctx unit => Sys2Proof.Machine.execUnitEnd ctx unit s
  | .coreEccCorrected core => Sys2Proof.Machine.execCoreEccCorrected core s
  | .coreCacheParityError core addr => Sys2Proof.Machine.execCoreCacheParityError core addr s
  | .coreFatalError core => Sys2Proof.Machine.execCoreFatalError core s
  | .fenceCancelDone core => Sys2Proof.Machine.execFenceCancelDone core s
  | .coreWatchdogExpiry core => Sys2Proof.Machine.execCoreWatchdogExpiry core s
  | .driverFence fn => Sys2Proof.Machine.execDriverFence fn s
  | .unfenceRequest fn => Sys2Proof.Machine.execUnfenceRequest fn s
  | .extendedTestDone core pass => Sys2Proof.Machine.execExtendedTestDone core pass s
  | .contextAdmit ask => Sys2Proof.Machine.execContextAdmit ask s
  | .contextEndAfterFrame fn => Sys2Proof.Machine.execContextEndAfterFrame fn s
  | .contextEndNow fn => Sys2Proof.Machine.execContextEndNow fn s
  | .contextFreed ctx => Sys2Proof.Machine.execContextFreed ctx s
  | .frameArrive ctx => Sys2Proof.Machine.execFrameArrive ctx s
  | .frameDispatch ctx placement => Sys2Proof.Machine.execFrameDispatch ctx placement s
  | .frameCommit args => Sys2Proof.Machine.execFrameCommit args s
  | .rngCompute fn value => Sys2Proof.Machine.execRngCompute fn value s
  | .rngComplete fn => Sys2Proof.Machine.execRngComplete fn s
  | .copy chan start => Sys2Proof.Machine.execCopy chan start s
  | .copy2d chan start => Sys2Proof.Machine.execCopy2d chan start s
  | .gather chan start index => Sys2Proof.Machine.execGather chan start index s
  | .fill chan start => Sys2Proof.Machine.execFill chan start s
  | .gateSend chan start => Sys2Proof.Machine.execGateSend chan start s
  | .peerPut chan start => Sys2Proof.Machine.execPeerPut chan start s
  | .peerGet chan start => Sys2Proof.Machine.execPeerGet chan start s
  | .dictCompress chan start => Sys2Proof.Machine.execDictCompress chan start s
  | .dictExpand chan start => Sys2Proof.Machine.execDictExpand chan start s
  | .rtvCommandComplete chan tag => Sys2Proof.Machine.execRtvCommandComplete chan tag s
  | .recordRingRelease chan => Sys2Proof.Machine.execRecordRingRelease chan s
  | .rtvCommandFail chan tag code => Sys2Proof.Machine.execRtvCommandFail chan tag code s
  | .channelResume fn chan => Sys2Proof.Machine.execChannelResume fn chan s
  | .channelDrop fn chan => Sys2Proof.Machine.execChannelDrop fn chan s
  | .tallyValueWrite fn value => Sys2Proof.Machine.execTallyValueWrite fn value s
  | .channelFatalError chan => Sys2Proof.Machine.execChannelFatalError chan s
  | .crecTailWrite fn chan value => Sys2Proof.Machine.execCrecTailWrite fn chan value s
  | .peerPutArrive member job addr tally put => Sys2Proof.Machine.execPeerPutArrive member job addr tally put s
  | .peerGetArrive member job addr len ue => Sys2Proof.Machine.execPeerGetArrive member job addr len ue s
  | .peerReportReceive chan tag ok data => Sys2Proof.Machine.execPeerReportReceive chan tag ok data s
  | .peerReportTimeout chan tag => Sys2Proof.Machine.execPeerReportTimeout chan tag s
  | .encode engine ctx unit ue => Sys2Proof.Machine.execEncode engine ctx unit ue s
  | .decode engine ctx unit ue => Sys2Proof.Machine.execDecode engine ctx unit ue s
  | .ecCommandComplete engine serial => Sys2Proof.Machine.execEcCommandComplete engine serial s
  | .ecEngineFatal engine => Sys2Proof.Machine.execEcEngineFatal engine s
  | .dceEngineFatal engine => Sys2Proof.Machine.execDceEngineFatal engine s
  | .memInvalRequest fn => Sys2Proof.Machine.execMemInvalRequest fn s
  | .memInvalDone => Sys2Proof.Machine.execMemInvalDone s
  | .patrolScrub addr => Sys2Proof.Machine.execPatrolScrub addr s
  | .memCorrectedError quarter site => Sys2Proof.Machine.execMemCorrectedError quarter site s
  | .memFatalError quarter kind at_ => Sys2Proof.Machine.execMemFatalError quarter kind at_ s
  | .gateFrameReceive port bytes => Sys2Proof.Machine.execGateFrameReceive port bytes s
  | .auCloseTimeout stream => Sys2Proof.Machine.execAuCloseTimeout stream s
  | .auRelease stream => Sys2Proof.Machine.execAuRelease stream s
  | .pictureDecodeStart start => Sys2Proof.Machine.execPictureDecodeStart start s
  | .pictureWritten decoder => Sys2Proof.Machine.execPictureWritten decoder s
  | .decoderFatalError decoder => Sys2Proof.Machine.execDecoderFatalError decoder s
  | .streamEnable fn value => Sys2Proof.Machine.execStreamEnable fn value s
  | .streamDisable fn value => Sys2Proof.Machine.execStreamDisable fn value s
  | .portEnable fn port value => Sys2Proof.Machine.execPortEnable fn port value s
  | .gateLinkUp port => Sys2Proof.Machine.execGateLinkUp port s
  | .gateLinkDown port => Sys2Proof.Machine.execGateLinkDown port s
  | .hostFeedDoorbell fn value => Sys2Proof.Machine.execHostFeedDoorbell fn value s
  | .hostFeedDescriptor fn bytes payload readOk payloadOk => Sys2Proof.Machine.execHostFeedDescriptor fn bytes payload readOk payloadOk s
  | .excTailWrite fn value => Sys2Proof.Machine.execExcTailWrite fn value s
  | .bar2Read fn off len ue => Sys2Proof.Machine.execBar2Read fn off len ue s
  | .bar2Write fn off data ue => Sys2Proof.Machine.execBar2Write fn off data ue s
  | .bar2BaseWrite fn value => Sys2Proof.Machine.execBar2BaseWrite fn value s
  | .sqBind fn ring value => Sys2Proof.Machine.execSqBind fn ring value s
  | .sqDoorbell fn ring value => Sys2Proof.Machine.execSqDoorbell fn ring value s
  | .sqEntryFetch fn ring bytes ok => Sys2Proof.Machine.execSqEntryFetch fn ring bytes ok s
  | .frameSubmission fn ring bytes ok => Sys2Proof.Machine.execFrameSubmission fn ring bytes ok s
  | .sqResume fn ring => Sys2Proof.Machine.execSqResume fn ring s
  | .sqDrop fn ring => Sys2Proof.Machine.execSqDrop fn ring s
  | .waitingEntryPlaced fn ring => Sys2Proof.Machine.execWaitingEntryPlaced fn ring s
  | .oqCidxWrite fn ring value => Sys2Proof.Machine.execOqCidxWrite fn ring value s
  | .oqIrqCoalesceExpiry fn ring => Sys2Proof.Machine.execOqIrqCoalesceExpiry fn ring s
  | .drainBoundExpiry fn ring => Sys2Proof.Machine.execDrainBoundExpiry fn ring s
  | .functionLevelReset fn => Sys2Proof.Machine.execFunctionLevelReset fn s
  | .vfEnableChange numVfs enable => Sys2Proof.Machine.execVfEnableChange numVfs enable s
  | .perstAssert => Sys2Proof.Machine.execPerstAssert s
  | .perstRelease => Sys2Proof.Machine.execPerstRelease s
  | .pcieLinkUp speed width => Sys2Proof.Machine.execPcieLinkUp speed width s
  | .pcieLinkDown => Sys2Proof.Machine.execPcieLinkDown s
  | .endpointFatalError => Sys2Proof.Machine.execEndpointFatalError s
  | .warmResetRequest fn => Sys2Proof.Machine.execWarmResetRequest fn s
  | .packForm fn => Sys2Proof.Machine.execPackForm fn s
  | .packLeave fn => Sys2Proof.Machine.execPackLeave fn s
  | .traverseLinkUp port moduleOk => Sys2Proof.Machine.execTraverseLinkUp port moduleOk s
  | .linkGreetingReceive port moduleId packId member asym rttNs => Sys2Proof.Machine.execLinkGreetingReceive port moduleId packId member asym rttNs s
  | .fingerprintReceive port print delay differs => Sys2Proof.Machine.execFingerprintReceive port print delay differs s
  | .formedReceive port lead epoch => Sys2Proof.Machine.execFormedReceive port lead epoch s
  | .refusedReceive port member => Sys2Proof.Machine.execRefusedReceive port member s
  | .formTimeoutExpiry => Sys2Proof.Machine.execFormTimeoutExpiry s
  | .calibrationRoundStart port => Sys2Proof.Machine.execCalibrationRoundStart port s
  | .probeSend port => Sys2Proof.Machine.execProbeSend port s
  | .probeReceive port seq turnaround => Sys2Proof.Machine.execProbeReceive port seq turnaround s
  | .probeReplyReceive port seq => Sys2Proof.Machine.execProbeReplyReceive port seq s
  | .probeTimestampsReceive port seq t1 t4 => Sys2Proof.Machine.execProbeTimestampsReceive port seq t1 t4 s
  | .syntonisationLoss => Sys2Proof.Machine.execSyntonisationLoss s
  | .rateAnnounceReceive port ppb effective => Sys2Proof.Machine.execRateAnnounceReceive port ppb effective s
  | .rateChangeApply => Sys2Proof.Machine.execRateChangeApply s
  | .epochLoadRequest fn => Sys2Proof.Machine.execEpochLoadRequest fn s
  | .epochPpsEdge => Sys2Proof.Machine.execEpochPpsEdge s
  | .externalSourceTimeout => Sys2Proof.Machine.execExternalSourceTimeout s
  | .whistleArrive port job frame digest epochOk differs members => Sys2Proof.Machine.execWhistleArrive port job frame digest epochOk differs members s
  | .whistleRelease port job frame time => Sys2Proof.Machine.execWhistleRelease port job frame time s
  | .whistleReleaseTime job => Sys2Proof.Machine.execWhistleReleaseTime job s
  | .whistleAbort port job frame code => Sys2Proof.Machine.execWhistleAbort port job frame code s
  | .barrierTimeout job => Sys2Proof.Machine.execBarrierTimeout job s
  | .arriveTimeout job => Sys2Proof.Machine.execArriveTimeout job s
  | .whistleFail port job frame code => Sys2Proof.Machine.execWhistleFail port job frame code s
  | .failTimeout job => Sys2Proof.Machine.execFailTimeout job s
  | .flitReceive port seq payload crcOk => Sys2Proof.Machine.execFlitReceive port seq payload crcOk s
  | .replayRequestReceive port seq => Sys2Proof.Machine.execReplayRequestReceive port seq s
  | .fecLockLossTimeout port => Sys2Proof.Machine.execFecLockLossTimeout port s
  | .retrainDone port ok => Sys2Proof.Machine.execRetrainDone port ok s
  | .traverseLinkDown port => Sys2Proof.Machine.execTraverseLinkDown port s
  | .portStateFatal port => Sys2Proof.Machine.execPortStateFatal port s
  | .pwrEnRise slotId => Sys2Proof.Machine.execPwrEnRise slotId s
  | .pwrEnFall => Sys2Proof.Machine.execPwrEnFall s
  | .undervoltageFault => Sys2Proof.Machine.execUndervoltageFault s
  | .overvoltageFault => Sys2Proof.Machine.execOvervoltageFault s
  | .restartRecordTimeout => Sys2Proof.Machine.execRestartRecordTimeout s
  | .shutdownACancel => Sys2Proof.Machine.execShutdownACancel s
  | .shutdownAExpiry => Sys2Proof.Machine.execShutdownAExpiry s
  | .shutdownBDone => Sys2Proof.Machine.execShutdownBDone s
  | .wakeStepComplete => Sys2Proof.Machine.execWakeStepComplete s
  | .wakeStepTimeout cause => Sys2Proof.Machine.execWakeStepTimeout cause s
  | .wakeRetryTimer => Sys2Proof.Machine.execWakeRetryTimer s
  | .statusState => Sys2Proof.Machine.execStatusState s
  | .statusCause => Sys2Proof.Machine.execStatusCause s
  | .statusWakeInfo => Sys2Proof.Machine.execStatusWakeInfo s
  | .statusSlot => Sys2Proof.Machine.execStatusSlot s
  | .statusVin => Sys2Proof.Machine.execStatusVin s
  | .statusIdent => Sys2Proof.Machine.execStatusIdent s
  | .statusRrCount => Sys2Proof.Machine.execStatusRrCount s
  | .retry data => Sys2Proof.Machine.execRetry data s
  | .alertResponse => Sys2Proof.Machine.execAlertResponse s
  | .smbusClockTimeout => Sys2Proof.Machine.execSmbusClockTimeout s
  | .profileChange fn profile => Sys2Proof.Machine.execProfileChange fn profile s
  | .profileChangeComplete => Sys2Proof.Machine.execProfileChangeComplete s
  | .powerLimiterStep powerW => Sys2Proof.Machine.execPowerLimiterStep powerW s
  | .powerLimitPersist => Sys2Proof.Machine.execPowerLimitPersist s
  | .restartRecordsClear fn => Sys2Proof.Machine.execRestartRecordsClear fn s
  | .vinMarginalTimeout vinMv => Sys2Proof.Machine.execVinMarginalTimeout vinMv s
  | .resetNAssert => Sys2Proof.Machine.execResetNAssert s
  | .resetNRelease => Sys2Proof.Machine.execResetNRelease s
  | .slotIdRecheck slotId => Sys2Proof.Machine.execSlotIdRecheck slotId s
  | .readbackCheck mismatch => Sys2Proof.Machine.execReadbackCheck mismatch s
  | .tapInstructionLoad code => Sys2Proof.Machine.execTapInstructionLoad code s
  | .fbRead index => Sys2Proof.Machine.execFbRead index s
  | .selfTestComplete kind index pass => Sys2Proof.Machine.execSelfTestComplete kind index pass s
  | .zeroFillDone => Sys2Proof.Machine.execZeroFillDone s
  | .firmwareCheckDone => Sys2Proof.Machine.execFirmwareCheckDone s
  | .bootWindowTimeout => Sys2Proof.Machine.execBootWindowTimeout s
  | .bootComplete => Sys2Proof.Machine.execBootComplete s
  | .cadRegisterWrite fn off wide value => Sys2Proof.Machine.execCadRegisterWrite fn off wide value s
  | .cadPortWrite value => Sys2Proof.Machine.execCadPortWrite value s
  | .policyInstall bytes => Sys2Proof.Machine.execPolicyInstall bytes s
  | .firmwareUpdate bytes => Sys2Proof.Machine.execFirmwareUpdate bytes s
  | .firmwareActivate => Sys2Proof.Machine.execFirmwareActivate s
  | .forecasterStep sensors forecasts => Sys2Proof.Machine.execForecasterStep sensors forecasts s
  | .fallbackStep quarter sensors => Sys2Proof.Machine.execFallbackStep quarter sensors s
  | .thermalTrip quarter => Sys2Proof.Machine.execThermalTrip quarter s
  | .fanDemandUpdate => Sys2Proof.Machine.execFanDemandUpdate s
  | .thermalCeilingUpdate => Sys2Proof.Machine.execThermalCeilingUpdate s
  | .cycleSample => Sys2Proof.Machine.execCycleSample s
  | .hourBandUpdate => Sys2Proof.Machine.execHourBandUpdate s
  | .fieldBookPeriodicWrite failed => Sys2Proof.Machine.execFieldBookPeriodicWrite failed s
  | .fieldBookAppend failed => Sys2Proof.Machine.execFieldBookAppend failed s
  | .alertClear fn value => Sys2Proof.Machine.execAlertClear fn value s
  | .errorRingEnable fn value => Sys2Proof.Machine.execErrorRingEnable fn value s
  | .erlRingTailWrite fn value => Sys2Proof.Machine.execErlRingTailWrite fn value s
  | .handlerWatchdogExpiry => Sys2Proof.Machine.execHandlerWatchdogExpiry s
  | .handlerResetRequest fn => Sys2Proof.Machine.execHandlerResetRequest fn s
  | .handlerReturn => Sys2Proof.Machine.execHandlerReturn s
  | .handlerReturnTimeout => Sys2Proof.Machine.execHandlerReturnTimeout s
  | .fbCopy fn => Sys2Proof.Machine.execFbCopy fn s
  | .fbExport fn => Sys2Proof.Machine.execFbExport fn s
  | .note fn => Sys2Proof.Machine.execNote fn s
  | .mailboxComplete fn => Sys2Proof.Machine.execMailboxComplete fn s
  | .mctpSetEndpointId smbus body => Sys2Proof.Machine.execMctpSetEndpointId smbus body s
  | .mctpGetEndpointId smbus body => Sys2Proof.Machine.execMctpGetEndpointId smbus body s
  | .mctpGetEndpointUuid smbus body => Sys2Proof.Machine.execMctpGetEndpointUuid smbus body s
  | .mctpGetVersionSupport smbus body => Sys2Proof.Machine.execMctpGetVersionSupport smbus body s
  | .mctpGetMessageTypeSupport smbus body => Sys2Proof.Machine.execMctpGetMessageTypeSupport smbus body s
  | .mctpPacketError => Sys2Proof.Machine.execMctpPacketError s
  | .getTid smbus body => Sys2Proof.Machine.execGetTid smbus body s
  | .setTid smbus body => Sys2Proof.Machine.execSetTid smbus body s
  | .getPldmVersion smbus body => Sys2Proof.Machine.execGetPldmVersion smbus body s
  | .getPldmTypes smbus body => Sys2Proof.Machine.execGetPldmTypes smbus body s
  | .getPldmCommands smbus body => Sys2Proof.Machine.execGetPldmCommands smbus body s
  | .pdrRepositoryCommand smbus body => Sys2Proof.Machine.execPdrRepositoryCommand smbus body s
  | .getSensorReading smbus body => Sys2Proof.Machine.execGetSensorReading smbus body s
  | .getStateSensorReadings smbus body => Sys2Proof.Machine.execGetStateSensorReadings smbus body s
  | .setStateEffecterStates smbus body => Sys2Proof.Machine.execSetStateEffecterStates smbus body s
  | .setEventReceiver smbus body => Sys2Proof.Machine.execSetEventReceiver smbus body s
  | .platformEventAck id => Sys2Proof.Machine.execPlatformEventAck id s
  | .platformEventRetry id => Sys2Proof.Machine.execPlatformEventRetry id s
  | .inputGood slotId => Sys2Proof.Machine.execInputGood slotId s
  | .quarterFatalError unit => Sys2Proof.Machine.execQuarterFatalError unit s
  | .syntonisationLock => Sys2Proof.Machine.execSyntonisationLock s

end Sys2Proof.Machine
end

