-- ==== Sys2Proof/Machine/Mesh.lean ====
section
/-!
DEFINITION. Machine/Mesh.lean: how messages travel inside the module: the mesh of a quarter, its attachment points, the
bridges between quarters, and the order in which an arbiter grants requests (R50, R56, R67, R70). A path and its grants
take time and never change what a message holds or the order on its route (R48), so no command rests on them.
-/
namespace Sys2Proof.Machine

/-- A switch of a quarter's mesh: column and row. -/
structure Switch where
  col : Nat
  row : Nat
deriving DecidableEq, Repr

/-- What attaches to a switch: a local core, an engine group of the quarter, or the bridge to another quarter. -/
inductive MeshBlock where
  | core (i : Nat) | entropy | dictionary | decoder | retrievers | bridge (xor : Nat)
deriving DecidableEq, Repr

/-- The switch of a block (R50, Table 2.14). -/
def MeshBlock.switch : MeshBlock → Switch
  | .core i => ⟨i % 6, i / 6⟩
  | .entropy => ⟨0, 0⟩
  | .dictionary => ⟨5, 0⟩
  | .decoder => ⟨0, 5⟩
  | .retrievers => ⟨5, 5⟩
  | .bridge x => if x = 1 then ⟨2, 0⟩ else if x = 2 then ⟨3, 0⟩ else ⟨2, 5⟩

/-- The bridge of a quarter that joins it to another (Table 2.14): quarter q XOR 1, 2 or 3. -/
def bridgeTo (q r : Nat) : MeshBlock := .bridge (Nat.xor q r)

/-- The numbers passed on the way from one to another, the first left out. -/
def between (a b : Nat) : List Nat :=
  if a ≤ b then (List.range (b - a)).map fun i => a + 1 + i else (List.range (a - b)).map fun i => a - 1 - i

/-- The switches a message passes after the first: along the row, then along the column (R50). -/
def meshPath (a b : Switch) : List Switch :=
  ((between a.col b.col).map fun c => ⟨c, a.row⟩) ++ ((between a.row b.row).map fun r => ⟨b.col, r⟩)

/-- Hops within a quarter, counted between switches. -/
def meshHops (a b : Switch) : Nat := (meshPath a b).length

/-- Hops of a message from a block of quarter `q` to the switch of the core of quarter `r` that holds the Kennel: the way to
the bridge, 1 for the bridge, and the way from the bridge (R56). -/
def messageHops (q : Nat) (sender : MeshBlock) (r : Nat) (kennelCore : Nat) : Nat :=
  if q = r then meshHops sender.switch (MeshBlock.core kennelCore).switch
  else meshHops sender.switch (bridgeTo q r).switch + 1 + meshHops (bridgeTo r q).switch (MeshBlock.core kennelCore).switch

/-- The bounds of R56 on an uncontended message of `g` granules over `h` hops: fabric cycles and receiving-core cycles, at
least and at most; a message between quarters adds the crossing at the bridge. -/
def messageCycles (h g : Nat) (sameQuarter : Bool) : (Nat × Nat) × (Nat × Nat) :=
  ((2 + h + g - 1 + (if sameQuarter then 0 else 2), 2), (4 + h + g - 1 + (if sameQuarter then 0 else 4), 4))

/-! ### Arbiters (R67, R70) -/

/-- A request at an arbiter: its age (smaller is older), and whether its next hop has a hop credit. -/
structure Request where
  age : Nat
  credit : Bool
deriving DecidableEq, Repr

def oldestOf : List Request → Option Request
  | [] => none
  | x :: r =>
    match oldestOf r with
    | some y => if y.age < x.age then some y else some x
    | none => some x

/-- The bypass limit of R67 (FAB_CAPS.BYPASS_LIMIT). -/
def bypassLimit : Nat := 16

/-- What an arbiter grants: the oldest request where it has a credit; else, while it has been bypassed fewer than 16 times,
the oldest of the others that has one; else nothing. -/
def arbiterGrant (rs : List Request) (bypassed : Nat) : Option Request :=
  match oldestOf rs with
  | none => none
  | some o =>
    if o.credit then some o
    else if bypassed < bypassLimit then oldestOf (rs.filter fun x => x.credit) else none

/-- How often the oldest request has been bypassed after a grant. -/
def bypassAfter (rs : List Request) (bypassed : Nat) : Nat :=
  match oldestOf rs, arbiterGrant rs bypassed with
  | some o, some g => if g = o then 0 else bypassed + 1
  | _, _ => bypassed

end Sys2Proof.Machine
end

