-- ==== Sys2Proof/Machine/RegRead.lean ====
section
/-!
DEFINITION. Machine/RegRead.lean: what a BAR0 read of every register of Table 22.2 returns (R12 to R17, R483, R718 to R720).
A read changes nothing. A field that its table does not list is reserved and reads 0; W1S and WO fields read 0 but for a GO
that its table lets read 1; a class S field reads as last written (R17). A function reads its own copy of the registers of
Table 22.4.
-/
namespace Sys2Proof.Machine

/-- A register's value from its fields, each at its lowest bit; what no field covers is reserved and reads 0 (R14). -/
def regWord (fields : List (Nat × Nat)) : DWord := BitVec.ofNat 64 (fields.foldl (fun n f => n + f.2 * 2 ^ f.1) 0)

/-- A ring's or an image's address register: HOST in bit 0, an address in units of 2^lo. -/
def addrWord (lo : Nat) (host : Bool) (addr : Nat) : DWord := regWord [(0, host.toNat), (lo, addr)]

/-! ### SYS (Tables 9.3, 9.10 to 9.12, 16.9 and 21.8) -/

/-- SYS_BOARD (Table 16.9). -/
def State.boardWord (s : State) : DWord :=
  regWord [(0, s.sup.slotSample.toNat), (6, s.sup.unstrapped.toNat), (7, s.sup.slotChanged.toNat), (8, s.pins.pwrEn.toNat),
    (9, s.pins.resetN.toNat), (10, s.pins.perstN.toNat), (11, s.pins.epoch10m.toNat),
    (12, (s.pins.lastPps.any fun t => decide (s.now ≤ t + 2000000000)).toNat), (16, s.pgOut.toNat), (17, s.alertOut.toNat),
    (18, s.sup.tripLatch.toNat), (19, s.sup.service.toNat), (20, s.sup.readbackFault.toNat), (24, s.fanOut.toNat)]

def State.readSys (s : State) (fn rel : Nat) : DWord :=
  let g := (s.fn fn).rng
  match rel with
  | 0x000 => regWord [(0, 0x4734), (16, s.fuses.stepping), (20, s.fuses.grade), (32, s.fuses.grade / 4)]
  | 0x100 => s.numsig
  | 0x108 => s.sys.numsigPrev
  | 0x110 => s.sys.numsigTime
  | 0x118 => g.key
  | 0x120 => g.ctrLo
  | 0x128 => g.ctrHi
  | 0x130 => g.outLo
  | 0x138 => g.outHi
  | 0x140 => regWord [(0, g.busy.toNat), (1, g.seedMode.toNat), (2, g.busy.toNat), (3, g.fieldLocked.toNat)]
  | 0x200 => s.boardWord
  | _ => 0

/-! ### HST (Table 14.9) -/

def SqKind.code : SqKind → Nat
  | .disabled => 0 | .command => 1 | .frame => 2

def Sq.readReg (q : Sq) (sub : Nat) : DWord :=
  match sub with
  | 0x00 => addrWord 6 q.host q.addr.toNat
  | 0x08 => regWord [(0, q.log2.toNat), (4, q.kind.code), (6, q.channel.toNat)]
  | 0x0C => regWord [(0, q.head.toNat)]
  | 0x10 => regWord [(0, q.halted.toNat), (8, q.code.toNat)]
  | _ => 0

def Oq.readReg (o : Oq) (sub : Nat) : DWord :=
  match sub with
  | 0x00 => addrWord 6 o.host o.addr.toNat
  | 0x08 => regWord [(0, o.log2.toNat)]
  | 0x0C => regWord [(0, o.pidx.toNat)]
  | 0x10 => addrWord 3 o.wbHost o.wbAddr.toNat
  | 0x18 => regWord [(0, o.vec.toNat), (8, o.en.toNat), (9, o.coalUs.toNat), (19, o.count.toNat)]
  | 0x1C => regWord [(0, o.drainLate.toNat), (1, (!o.waiting.isEmpty).toNat)]
  | 0x20 => regWord [(0, o.drops.toNat)]
  | _ => 0

def State.readHst (s : State) (fn rel : Nat) : DWord :=
  let h := (s.fn fn).hst
  match rel with
  | 0x000 => regWord [(0, 15), (4, 32), (10, 64)]
  | 0x004 => regWord [(0, h.fieldLocked.toNat), (1, h.drainLate.toNat), (2, h.dropsSeen.toNat), (3, s.hst.linkDegraded.toNat)]
  | 0x00C => regWord [(0, s.hst.speed.toNat), (4, s.hst.width.toNat)]
  | 0x010 => regWord [(30, h.bar2Base.toNat)]
  | 0x018 => regWord [(0, h.errVec.toNat), (8, h.errEn.toNat)]
  | 0x01C => regWord [(0, h.accErr.toNat)]
  | 0x3400 => regWord [(0, h.orbCtx.toNat), (12, h.orbRing.toNat)]
  | 0x3404 =>
    let b := Tab.getD h.bindings (h.orbCtx.toNat * 8 + h.orbRing.toNat) (0, false)
    regWord [(0, b.1.toNat), (6, b.2.toNat)]
  | _ =>
    if 0x100 ≤ rel ∧ rel < 0x500 then (s.sq fn ((rel - 0x100) / 0x20)).readReg (rel % 0x20)
    else if 0x1000 ≤ rel ∧ rel < 0x2000 then (s.oq fn ((rel - 0x1000) / 0x40)).readReg (rel % 0x40)
    else if 0x3000 ≤ rel ∧ rel < 0x3080 then regWord [(0, (s.sq fn ((rel - 0x3000) / 4)).tail.toNat)]
    else if 0x3100 ≤ rel ∧ rel < 0x3200 then regWord [(0, (s.oq fn ((rel - 0x3100) / 4)).cidx.toNat)]
    else 0

/-- A 32-bit read of the MSI-X table or of the pending-bit array (PCIe Base 5.0). -/
def State.readMsix (s : State) (fn off : Nat) : Word :=
  let v := (s.fn fn).hst.vectors
  if 0x109000 ≤ off then
    BitVec.ofNat 32 ((List.range 32).foldl (fun n i =>
      n + bitAt i (Tab.getD v ((off - 0x109000) * 8 + i) {}).pendingBit) 0)
  else
    let e : Vector := Tab.getD v ((off - 0x108000) / 16) {}
    match off % 16 / 4 with
    | 0 => e.addr.extractLsb' 0 32
    | 1 => e.addr.extractLsb' 32 32
    | 2 => e.data
    | _ => BitVec.ofNat 32 e.masked.toNat

/-! ### SVY (Tables 3.22 to 3.33) -/

def SlotState.code : SlotState → Nat
  | .empty => 0 | .loading => 1 | .loaded => 2 | .unloading => 3

/-- NUMSIG_MATCH (R111): every non-zero NUMSIG of the current image equals SYS_NUMSIG; 0 where no image is current. -/
def State.numsigMatch (s : State) (slot : Nat) : Bool :=
  (s.slot slot).current.any fun l => l.image.nums.all fun n => n.numsig == 0 || n.numsig == s.numsig.toNat

/-- Instances running on an image of a slot. -/
def State.instancesOn (s : State) (slot : Nat) (l : Option Loaded) : Nat :=
  match l with
  | some l => s.usersOf slot l.gen
  | none => 0

def State.readSvy (s : State) (fn rel : Nat) : DWord :=
  let g := (s.fn fn).svy
  let x := s.slot g.sel.toNat
  match rel with
  | 0x000 => regWord [(0, 16), (5, 16), (16, 1), (20, 0)]
  | 0x004 => regWord [(0, s.svy.fieldLocked.toNat), (1, s.svy.running.isSome.toNat), (2, s.svy.routeFault.toNat),
      (3, s.svy.migrateSkip.toNat)]
  | 0x008 => regWord [(6, g.addr.toNat)]
  | 0x010 => regWord [(0, g.len.toNat)]
  | 0x014 => regWord [(0, g.slot.toNat), (4, g.op.toNat), (31, g.busy.toNat)]
  | 0x018 => regWord [(0, g.busy.toNat), (1, g.done.toNat), (8, g.code.toNat), (16, g.section_.toNat)]
  | 0x01C => regWord [(0, g.sel.toNat)]
  | 0x020 => regWord [(0, x.state.code), (3, x.retained.isSome.toNat), (4, (x.current.any fun l => l.image.signed).toNat),
      (5, (s.numsigMatch g.sel.toNat).toNat), (6, (x.current.any fun l => l.image.packBound).toNat),
      (8, s.instancesOn g.sel.toNat x.current), (32, s.instancesOn g.sel.toNat x.retained)]
  | 0x028 => (x.current.map fun l => l.image.id).getD 0
  | 0x030 => (x.retained.map fun l => l.image.id).getD 0
  | 0x038 => regWord [(0, s.svy.migrated.toNat), (16, s.svy.routeFaults.toNat)]
  | 0x03C => regWord [(0, g.record.toNat)]
  | _ => if 0x100 ≤ rel ∧ rel < 0x140 then regWord [(0, (s.slot ((rel - 0x100) / 4)).owner.toNat)] else 0

/-! ### HRD (Tables 8.5 to 8.8) -/

def CtxState.code : CtxState → Nat
  | .free => 0 | .admitted => 1 | .suspended => 2 | .ending => 3

/-- HRD_CTX_CFG, HRD_CTX_TIME and HRD_CTX_SEED as a function reads them: of a context it admitted, the context's own, a
class S field as last written (R17); else its own copy of what it has written (R720). -/
def State.ctxShown (s : State) (fn c : Nat) : CtxRegs :=
  if s.ownsCtx fn c then
    let x := s.ctx c
    { slot := x.slot, template := x.template, source := x.source, feed := x.feed, spanPin := x.pendSpan.getD x.spanPin
      placePin := x.pendPlace.getD x.placePin, periodUs := x.periodUs, deadlineUs := x.pendDeadline.getD x.deadlineUs
      seed := x.seed }
  else s.ctxRegs fn c

/-- HRD_CTX_STATUS (Table 8.7): a context that another function admitted is FREE to this one (R286, R720). -/
def State.ctxStatusWord (s : State) (fn c : Nat) : DWord :=
  let t := s.ctxStat fn c
  let own := s.ownsCtx fn c
  regWord [(0, if own then (s.ctx c).st.code else 0), (2, t.busy.toNat), (8, t.code.toNat), (16, t.lastK % 8),
    (19, t.lastFlags % 32), (24, if own then (s.ctx c).held.length % 8 else 0), (32, t.frameNo.toNat)]

/-- HRD_FENCE_STATE of a core (Table 8.8). -/
def State.fenceWord (s : State) (core : Nat) : DWord :=
  let k := s.core core
  regWord [(0, if k.underTest then 3 else if k.fence.isSome then 1 else if s.enabled core then 0 else 2),
    (2, match k.fence with | some c => c.code | none => 0)]

def State.readHrd (s : State) (fn rel : Nat) : DWord :=
  let g := (s.fn fn).hrd
  let c := g.ctxSel.toNat
  let r := s.ctxShown fn c
  match rel with
  | 0x000 => regWord [(0, 4096), (13, 4), (16, 92), (23, 4)]
  | 0x004 => regWord [(0, s.hrd.fieldLocked.toNat), (1, s.overload.toNat), (2, s.hrd.service.toNat), (3, s.hrd.late.toNat),
      (4, s.hrd.pinBroken.toNat)]
  | 0x008 => regWord [(0, s.hrd.widenEn.toNat), (1, s.hrd.steerMargin.toNat)]
  | 0x00C => regWord [(0, s.poolCount), (8, ((List.range 144).filter fun k => s.enabled k && s.fenced k).length),
      (16, s.fuses.grade)]
  | 0x010 => regWord [(0, min s.declaredLoad (2 ^ 20 - 1)), (32, s.admitLimit)]
  | 0x018 => regWord [(12, s.hrd.heapBase.toNat)]
  | 0x020 => regWord [(12, s.hrd.heapLen.toNat)]
  | 0x028 => regWord [(0, c)]
  | 0x02C => regWord [(0, g.op.toNat), (31, (s.goBusy fn).toNat)]
  | 0x030 => regWord [(0, r.slot.toNat), (4, r.template.toNat), (12, r.source.toNat), (14, r.feed.toNat),
      (26, r.spanPin.toNat), (29, r.placePin.toNat)]
  | 0x038 => regWord [(0, r.periodUs.toNat), (32, r.deadlineUs.toNat)]
  | 0x040 => r.seed
  | 0x048 => s.ctxStatusWord fn c
  | 0x050 => if s.ownsCtx fn c then BitVec.ofNat 64 (s.ctx c).base else 0
  | 0x058 => regWord [(0, g.fenceSel.toNat)]
  | 0x060 => s.fenceWord g.fenceSel.toNat
  | 0x068 => regWord [(0, s.hrd.lateCount.toNat), (16, s.hrd.restartCount.toNat), (32, s.hrd.lostCount.toNat)]
  | _ => 0

/-! ### RTV (Tables 7.10 to 7.15) -/

/-- WAITING of RTV_CH_STATUS: the driver-mode head command is held by its head wait, its ORDERED flag or a full record
ring. -/
def State.chanWaiting (s : State) (ch : Nat) : Bool :=
  let x := s.chan ch
  let i : Issuer := .driver x.func.toNat
  x.mode == 2 && match x.driverQ with
    | [] => false
    | d :: _ => s.waits i d || (d.ordered && x.busyFor i) || (x.recordFull && x.started.any fun k => k.heldRecord)

def State.readChan (s : State) (ch sub : Nat) : DWord :=
  let x := s.chan ch
  match sub with
  | 0x00 => regWord [(0, x.mode.toNat), (2, x.func.toNat)]
  | 0x04 => regWord [(0, x.tagsUsed), (7, x.halted.toNat), (8, (s.chanWaiting ch).toNat), (9, x.fieldLocked.toNat),
      (10, x.disabled.toNat), (16, x.lastErr.toNat)]
  | 0x10 => addrWord 6 x.crecHost x.crecAddr.toNat
  | 0x18 => regWord [(0, x.crecLog2.toNat)]
  | 0x1C => regWord [(0, x.head.toNat)]
  | 0x20 => regWord [(0, x.tail.toNat)]
  | 0x24 => regWord [(0, x.done.toNat)]
  | 0x28 => regWord [(0, x.failed.toNat)]
  | _ => 0

def State.readRtv (s : State) (fn rel : Nat) : DWord :=
  let sel := (s.fn fn).tallySel.toNat
  match rel with
  | 0x10000 => regWord [(0, 64), (7, 64)]
  | 0x10008 => regWord [(0, sel)]
  | 0x1000C => regWord [(0, (s.tally (tallyKey (sel / 1024) (sel % 1024))).toNat)]
  | _ => if rel < 0x4000 then s.readChan (rel / 0x100) (rel % 0x100) else 0

/-! ### EC and DCE (Tables 10.10, 10.11 and 12.9) -/

/-- STATE of an engine: 3 disabled, 1 running, 2 offline, 0 idle. -/
def engineState (disabled runs offline : Bool) : Nat := if disabled then 3 else if runs then 1 else if offline then 2 else 0

def State.readEc (s : State) (fn rel : Nat) : DWord :=
  let n := (s.fn fn).ecSel.toNat
  let e := s.ecEngine n
  match rel with
  | 0x000 => regWord [(0, 16), (5, 4), (8, 64), (15, 4)]
  | 0x004 => regWord [(0, s.ec.fieldLocked.toNat), (1, s.ec.checkFail.toNat), (2, s.ec.malformed.toNat),
      (3, ((List.range 16).any fun k => (s.ecEngine k).disabled).toNat)]
  | 0x008 => regWord [(0, n)]
  | 0x00C => regWord [(0, e.offline.toNat)]
  | 0x010 => regWord [(0, engineState e.disabled (!e.started.isEmpty || s.unitsQueue 1 n) e.offline),
      (2, e.started.length), (7, e.sets.length)]
  | 0x018 => e.symbols
  | 0x020 => regWord [(0, e.tiles.toNat), (32, e.escTiles.toNat), (48, e.fallbackTiles.toNat)]
  | 0x028 => regWord [(0, s.ec.checkFails.toNat), (16, s.ec.malformedCount.toNat)]
  | _ => 0

def State.readDce (s : State) (fn rel : Nat) : DWord :=
  let n := (s.fn fn).dceSel.toNat
  let e := s.dceEngine n
  match rel with
  | 0x000 => regWord [(0, 8), (4, 9), (9, 16), (14, 23)]
  | 0x004 => regWord [(0, s.dce.fieldLocked.toNat), (1, s.dce.checkFail.toNat),
      (2, ((List.range 8).any fun k => (s.dceEngine k).disabled).toNat)]
  | 0x008 => regWord [(0, n)]
  | 0x00C => regWord [(0, e.offline.toNat)]
  | 0x010 => regWord [(0, engineState e.disabled (!(s.engineCmds n).isEmpty || s.unitsQueue 2 n) e.offline),
      (2, (s.engineCmds n).length)]
  | 0x018 => e.bytesIn
  | 0x020 => e.bytesOut
  | 0x028 => regWord [(0, s.dce.checkFails.toNat), (16, s.dce.engineFatal.toNat)]
  | _ => 0

/-! ### ING (Tables 13.8 and 13.9) -/

def Port.readReg (p : Port) (sub : Nat) : DWord :=
  match sub with
  | 0x00 => regWord [(0, p.en.toNat), (1, p.vlanEn.toNat), (2, p.vid.toNat)]
  | 0x04 => regWord [(0, p.link.toNat), (1, p.fieldLocked.toNat)]
  | 0x08 => regWord [(0, p.mac.toNat)]
  | 0x10 => regWord (p.weights.zipIdx.map fun w => (4 * w.2, w.1.toNat))
  | 0x18 => regWord [(0, p.filtered.toNat), (32, p.excDrops.toNat)]
  | _ => 0

def Stream.readReg (x : Stream) (rel : Nat) : DWord :=
  match rel with
  | 0x144 => regWord [(0, x.enable.toNat), (1, x.dec.toNat), (4, x.ctx.toNat), (16, x.jitMib.toNat)]
  | 0x148 => regWord [(0, x.port.toNat), (2, x.ipv6.toNat), (3, x.codec.toNat), (5, x.ssrcEn.toNat), (6, x.pt.toNat),
      (13, x.udpPort.toNat), (32, x.ssrc.toNat)]
  | 0x150 => x.daddrLo
  | 0x158 => x.daddrHi
  | 0x160 => regWord [(0, x.maxW.toNat), (13, x.maxH.toNat), (25, x.rateX10.toNat), (35, x.refSlots.toNat),
      (40, x.jitterMs.toNat), (48, x.closeMs.toNat), (56, x.depth10.toNat)]
  | 0x168 => regWord [(12, x.bufBase.toNat)]
  | 0x170 => regWord [(0, x.decUsed.toNat), (2, x.fieldLocked.toNat), (8, x.code.toNat), (16, x.inputOff.toNat),
      (48, x.gapMax.toNat)]
  | 0x178 => regWord [(0, x.latePkt.toNat), (16, x.lostFrames.toNat), (32, x.malformed.toNat), (48, x.dup.toNat)]
  | _ => 0

/-- A stream's registers as a function reads them: a function reads only the streams whose contexts it admitted, and what
another reads is not stated (R479), a free value. -/
def State.readStream (s : State) (fn rel : Nat) : DWord :=
  let n := (s.fn fn).strmSel.toNat
  if s.ownsCtx fn (s.stream n).ctx.toNat then (s.stream n).readReg rel else Config.hiddenRead fn n rel

def State.readIng (s : State) (fn rel : Nat) : DWord :=
  let h := (s.fn fn).feed
  match rel with
  | 0x100 => regWord [(0, 4096), (13, 64)]
  | 0x108 => regWord [(6, s.ing.excAddr.toNat)]
  | 0x110 => regWord [(0, s.ing.excLog2.toNat)]
  | 0x114 => regWord [(0, s.ing.excHead.toNat)]
  | 0x118 => regWord [(0, s.ing.excTail.toNat)]
  | 0x120 => addrWord 6 h.host h.addr.toNat
  | 0x128 => regWord [(0, h.log2.toNat)]
  | 0x12C => regWord [(0, h.head.toNat)]
  | 0x130 => regWord [(0, h.tail.toNat)]
  | 0x140 => regWord [(0, (s.fn fn).strmSel.toNat)]
  | _ =>
    if rel < 0x80 then (s.port (rel / 0x40)).readReg (rel % 0x40)
    else if 0x144 ≤ rel ∧ rel ≤ 0x178 then s.readStream fn rel
    else if 0x180 ≤ rel ∧ rel < 0x190 then regWord [(0, s.decDemand ((rel - 0x180) / 4) / 1000 % 2 ^ 32)]
    else 0

/-! ### PCK (Tables 15.9 and 15.10) -/

def PackState.code : PackState → Nat
  | .idle => 0 | .forming => 1 | .formed => 2 | .failed => 3
def ExtState.code : ExtState → Nat
  | .freeRun => 0 | .locking => 1 | .locked => 2 | .holdover => 3

/-- STATE of PCK_JOB_STATUS. -/
def Job.stateCode (x : Job) : Nat := if x.ended then 3 else if x.running then 2 else if x.valid then 1 else 0

/-- The registers of a Traverse port. -/
def State.readTraverse (s : State) (port sub : Nat) : DWord :=
  let x := s.link port
  match sub with
  | 0x00 => regWord [(0, x.en.toNat)]
  | 0x04 => regWord [(0, x.link.toNat), (1, x.moduleOk.toNat), (2, s.pck.role s.pck.me port),
      (4, (s.pck.neighbour s.pck.me port).getD 0)]
  | 0x08 => regWord [(0, x.asym.toNat)]
  | 0x0C => regWord [(0, x.offset.toNat)]
  | 0x10 => x.rtt
  | 0x18 => regWord [(0, x.replays.toNat), (16, x.retrains.toNat)]
  | _ => 0

/-- MASTER and DEPTH are those of a FORMING or FORMED Pack's member, and 0 outside (their reset value). -/
def State.pckStatusWord (s : State) : DWord :=
  let p := s.pck
  regWord [(0, p.state.code), (3, (p.busy && p.isMaster).toNat), (4, p.skewFault.toNat), (5, p.fieldLocked.toNat),
    (8, p.code.toNat), (16, if p.busy then p.depthOf p.me else 0)]

def State.readPck (s : State) (rel : Nat) : DWord :=
  let p := s.pck
  let j := s.job p.jobSel.toNat
  match rel with
  | 0x000 => regWord [(0, 8), (4, 2048), (16, 256), (25, 20)]
  | 0x004 => s.pckStatusWord
  | 0x00C => regWord [(0, p.formTimeout.toNat)]
  | 0x010 => regWord [(0, p.slot.toNat), (4, p.shape.toNat), (20, p.member.toNat)]
  | 0x018 => p.packId
  | 0x020 => regWord [(6, p.admitAddr.toNat)]
  | 0x028 => s.fuses.moduleId
  | 0x030 => s.epoch
  | 0x038 => p.epochSet
  | 0x040 => regWord [(0, p.srcExternal.toNat)]
  | 0x044 => regWord [(0, p.epoch.ext.code), (2, p.followsParent.toNat), (3, p.epoch.syntLock.toNat),
      (16, p.epoch.extOffset.toNat)]
  | 0x048 => regWord [(0, if p.state = .formed then p.lead.toNat else 0)]
  | 0x04C => regWord [(0, p.failCode.toNat), (8, p.failMember.toNat), (20, p.failPort.toNat)]
  | 0x050 => regWord [(0, p.jobSel.toNat)]
  | 0x054 => regWord [(0, j.ctx.toNat), (12, j.template.toNat), (20, j.valid.toNat)]
  | 0x058 => regWord [(0, j.stateCode), (8, j.code.toNat), (16, j.frame.toNat)]
  | 0x05C => regWord [(0, p.aborts.toNat), (16, p.linkDowns.toNat)]
  | _ => if 0x100 ≤ rel ∧ rel < 0x200 then s.readTraverse ((rel - 0x100) / 0x20) (rel % 0x20) else 0

/-! ### THM (Table 19.7) -/

/-- THM_UNIT_STATE of a unit. CLOCK is 0 for a unit that is not throttleable; an engine group runs at the lower of 1.20 GHz
and its THR (R647). -/
def State.unitStateWord (s : State) (u : Nat) : DWord :=
  let x := s.thmUnit u
  let thr := s.throttleable u
  regWord [(0, ofSigned 16 x.reading), (16, ofSigned 16 x.forecast),
    (32, if !thr then 0 else if u < 144 then s.coreClock u else min 48 x.thr.toNat), (40, x.thr.toNat), (48, thr.toNat),
    (49, (decide (s.floorOf u = s.thrOf u ∧ minThr u < s.floorOf u ∧ s.forecastOf u ≤ s.limit16 + 32)).toNat),
    (50, x.breached.toNat), (51, x.sensorFail.toNat), (52, (decide (u < 144) && s.hotCore u).toNat)]

def State.readThm (s : State) (fn rel : Nat) : DWord :=
  let g := s.fn fn
  let t := s.thm
  let w := s.fb.work
  let cycle := g.cycleSel.toNat
  match rel with
  | 0x000 => regWord [(0, 174), (8, 102), (15, 90)]
  | 0x004 => regWord [(0, t.forecaster.toNat), (1, (t.units.any fun p => p.2.breached).toNat), (2, t.fallback.toNat),
      (3, t.sensorFail.toNat), (4, (s.erl.alert.getLsbD 7).toNat), (5, t.lifeEnd.toNat)]
  | 0x008 => regWord [(0, t.limit.toNat)]
  | 0x00C => regWord [(0, t.bias.toNat)]
  | 0x010 => regWord [(0, g.unitSel.toNat)]
  | 0x014 => regWord [(0, (s.thmUnit g.unitSel.toNat).floor_.toNat)]
  | 0x018 => s.unitStateWord g.unitSel.toNat
  | 0x020 => regWord [(0, t.hot.toNat), (16, t.headroom.toNat)]
  | 0x024 => regWord [(0, s.fanOut.toNat), (8, t.dFc.toNat), (16, t.dInlet.toNat), (24, t.dBase.toNat)]
  | 0x028 => regWord [(0, ofSigned 16 (s.thmUnit 172).reading), (16, ofSigned 16 (s.thmUnit 173).reading)]
  | 0x02C => regWord [(0, s.limitMw / 1000), (10, (decide (s.limitMw < s.cap * 1000)).toNat)]
  | 0x030 => regWord [(0, cycle)]
  | 0x034 => regWord [(0, w.cycles.getD (16 * (cycle % 8) + 4 * (cycle / 8 % 4) + cycle / 32) 0)]
  | 0x038 => regWord [(0, min 2047 (w.lifePpm / 1000))]
  | 0x03C => regWord [(0, g.hoursSel.toNat)]
  | 0x040 => regWord [(0, w.hours.getD g.hoursSel.toNat 0)]
  | 0x048 => regWord [(0, t.throttles.toNat), (16, t.breaches.toNat), (32, t.fallbacks.toNat)]
  | _ => 0

/-! ### ERL, CAD and HND (Tables 18.10 and 20.15) -/

/-- Bytes 8i to 8i + 7 of the history record that a function selects; a virtual function reads 0 (R699). -/
def State.histWord (s : State) (fn i : Nat) : DWord :=
  if fn ≠ 0 then 0
  else match s.erl.history[(s.fn fn).histSel.toNat]? with
    | some r => BitVec.ofNat 64 (leAt (r.bytes r.overflow) (8 * i) 8)
    | none => 0

def State.readErl (s : State) (fn rel : Nat) : DWord :=
  let g := (s.fn fn).ring
  match rel with
  | 0x000 => regWord [(0, 256), (9, 14)]
  | 0x004 => regWord [(0, g.fieldLocked.toNat), (1, g.overflow.toNat)]
  | 0x008 => regWord [(0, s.erl.alert.toNat)]
  | 0x010 => addrWord 6 g.host g.addr.toNat
  | 0x018 => regWord [(0, g.log2.toNat), (4, g.en.toNat)]
  | 0x01C => regWord [(0, g.head.toNat)]
  | 0x020 => regWord [(0, g.tail.toNat)]
  | 0x024 => regWord [(0, g.drops.toNat)]
  | 0x028 => regWord [(0, s.erl.seq.toNat)]
  | 0x02C => regWord [(0, (s.fn fn).histSel.toNat)]
  | _ => if 0x30 ≤ rel ∧ rel < 0x70 then s.histWord fn ((rel - 0x30) / 8) else 0

def State.readCad (s : State) (fn rel : Nat) : DWord :=
  let c := s.cad
  let e : CadEntry := (c.entries[(s.fn fn).entrySel.toNat]?).getD ⟨0, 0, 0, 0, 0, 0, 0, 0⟩
  let k := c.keys[(s.fn fn).keySel.toNat]?
  match rel with
  | 0x000 => regWord [(0, c.locked.toNat), (1, c.windowOpen.toNat), (2, (c.entries.all fun x => x.pages == 0).toNat),
      (3, (c.ownerShown.any fun b => b != 0).toNat), (4, c.allowUnsigned.toNat), (5, c.diag.toNat), (6, c.source.toNat),
      (8, c.fwBank.toNat), (9, c.fwFallback.toNat), (16, s.fuses.svFloor.toNat)]
  | 0x004 => regWord [(0, c.seq.toNat)]
  | 0x008 => BitVec.ofNat 64 (leAt c.ownerShown 0 8)
  | 0x010 => c.policyId
  | 0x018 => regWord [(0, c.staged.isSome.toNat), (32, (c.staged.map fun p => p.seq.toNat).getD 0)]
  | 0x020 => regWord [(0, (s.fn fn).entrySel.toNat)]
  | 0x024 => regWord [(0, e.sysR.toNat), (8, e.sysW.toNat)]
  | 0x028 => regWord [(0, e.base.toNat), (32, e.pages.toNat)]
  | 0x030 => regWord [(0, e.hostR.toNat), (16, e.hostW.toNat), (32, e.ctxR.toNat), (48, e.ctxW.toNat)]
  | 0x038 => (k.map fun x => x.id).getD 0
  | 0x040 => regWord [(0, (s.fn fn).keySel.toNat)]
  | 0x044 => regWord [(0, (k.map fun x => x.mask.toNat).getD 0)]
  | 0x048 => regWord [(0, c.denyCount.toNat)]
  | 0x04C => regWord [(0, c.violCount.toNat)]
  | 0x050 => regWord [(0, c.lastPage.toNat), (32, c.lastClass.toNat), (40, c.lastWrite.toNat)]
  | _ => if 0x58 ≤ rel ∧ rel < 0x78 then c.packIds.getD ((rel - 0x58) / 8) 0 else 0

def State.readHnd (s : State) (fn rel : Nat) : DWord :=
  let m := (s.fn fn).mailbox
  let h := s.hnd
  match rel with
  | 0x000 => BitVec.ofNat 64 s.fwVersion
  | 0x004 => regWord [(0, h.running.toNat), (1, h.held.toNat), (2, h.fieldLocked.toNat), (8, h.watchdogs.toNat),
      (16, h.resets.toNat)]
  | 0x008 => s.firmware.buildId
  | 0x014 => regWord [(0, m.code.toNat), (31, m.busy.toNat)]
  | 0x018 => regWord [(0, m.busy.toNat), (1, m.done.toNat), (8, m.result.toNat)]
  | 0x01C => regWord [(0, m.vec.toNat), (8, m.vecEn.toNat)]
  | 0x060 => regWord [(0, h.updState.toNat), (3, (decide (h.updTransport = .vdm)).toNat), (4, h.updPolicy.toNat),
      (8, h.updLast.toNat)]
  | 0x064 => regWord [(0, h.eidSmbus.toNat), (8, h.eidPcie.toNat), (16, h.tid.toNat), (24, h.pktErrors.toNat)]
  | _ =>
    if 0x20 ≤ rel ∧ rel < 0x40 then m.args.getD ((rel - 0x20) / 8) 0
    else if 0x40 ≤ rel ∧ rel < 0x60 then m.rsp.getD ((rel - 0x40) / 8) 0
    else 0

/-! ### FAB, MEM and SUP (Tables 2.5 to 2.13, 6.10 to 6.16 and 17.12) -/

/-- OPEN_INST: running instances with open access (R72) whose core units lie in a quarter. -/
def State.openInstances (s : State) (q : Nat) : Nat :=
  (s.hrd.ctxs.filter fun p =>
    (s.ctx p.1).running.any fun r =>
      (r.2.units.any fun u => u.kind == 0 && coreQuarter u.place == q) &&
        (s.imageOf (s.ctx p.1).slot.toNat r.2.gen).any fun l =>
          l.image.opens.any fun o => o.template == (s.ctx p.1).tmpl && o.variant == r.2.k).length

/-- FAB_ROUTE_STATE of a route ID in a quarter's register set: 0 where the ID is of another quarter or names no route
(R86). -/
def State.routeStateWord (s : State) (q id : Nat) : DWord :=
  match (if routeQuarter id = q then s.route? id else none) with
  | none => 0
  | some x => regWord [(0, x.leash), (9, x.occ.length), (18, x.cap), (27, 1), (28, x.frozen.toNat), (29, x.reclaiming.toNat),
      (32, x.ctx)]

def State.readFab (s : State) (fn q sub : Nat) : DWord :=
  let k := s.quarter q
  let sel := (Tab.getD (s.fn fn).fabSel q 0).toNat
  match sub with
  | 0x000 => regWord [(0, bypassLimit), (5, 1024), (16, 256)]
  | 0x004 => regWord [(0, k.fieldLocked.toNat), (1, k.driverBusy.toNat), (2, k.auditFail.toNat), (3, k.stall.toNat),
      (4, k.xingParity.toNat), (16, s.openInstances q)]
  | 0x008 => regWord [(0, k.periodMs.toNat)]
  | 0x00C => regWord [(0, k.stallMs.toNat)]
  | 0x010 => regWord [(0, k.reqRoute.toNat), (31, k.driverBusy.toNat)]
  | 0x014 => regWord [(0, k.resRoute.toNat), (12, k.resCode.toNat), (16, k.resSum.toNat)]
  | 0x018 => regWord [(0, sel)]
  | 0x020 => s.routeStateWord q sel
  | 0x028 => regWord [(0, k.parityErrs.toNat), (16, k.auditErrs.toNat)]
  | _ => 0

def State.readMem (s : State) (rel : Nat) : DWord :=
  let m := s.mem
  match rel with
  | 0x000 => regWord [(0, 4), (5, 24), (13, 8), (17, 2), (21, 1024)]
  | 0x004 => regWord [(0, m.invalBusy.toNat), (1, m.ue.toNat), (2, (!m.poison.isEmpty).toNat), (3, m.zeroFillDone.toNat)]
  | 0x008 => regWord [(0, m.invalBusy.toNat)]
  | 0x00C => regWord [(0, m.scrubHours.toNat)]
  | 0x020 => regWord [(6, m.ueAddr.toNat)]
  | 0x028 => regWord [(0, m.ueSource.toNat), (2, m.ueQuarter.toNat), (16, m.ueCount.toNat)]
  | _ =>
    if 0x10 ≤ rel ∧ rel < 0x20 then
      regWord [(0, (Tab.getD m.ceStack ((rel - 0x10) / 4) 0).toNat), (16, (Tab.getD m.ceDatum ((rel - 0x10) / 4) 0).toNat)]
    else 0

def State.readSup (s : State) (fn rel : Nat) : DWord :=
  let u := s.sup
  match rel with
  | 0x000 => regWord [(0, 600), (10, 480), (20, 340)]
  | 0x004 => regWord [(0, u.mstate.code), (4, (decide (u.limiter.toNat < s.profileCeiling)).toNat), (5, u.fieldLocked.toNat),
      (6, u.dipCancelled.toNat), (8, u.lastReset.toNat)]
  | 0x008 => regWord [(0, u.profileReq.toNat), (31, u.profileBusy.toNat)]
  | 0x00C => regWord [(0, u.profile.toNat), (2, u.profileBusy.toNat), (8, u.profileCode.toNat), (16, u.profileBlock.toNat)]
  | 0x010 => regWord [(0, min s.pins.vinMv 65535), (16, u.powerW.toNat)]
  | 0x014 => regWord [(0, u.regFailedStep.toNat), (4, u.regAttempts.toNat), (8, u.regCause.toNat), (16, u.regWakeMs.toNat)]
  | 0x018 => regWord [(0, u.dips.toNat), (16, u.capEvents.toNat)]
  | 0x01C => regWord [(0, u.rr.records.length), (13, u.rr.valid.toNat), (14, u.rr.cancelled.toNat),
      (15, u.rr.incomplete.toNat), (16, u.rr.seq.toNat % 65536)]
  | 0x020 => regWord [(0, (s.fn fn).rrSel.toNat)]
  | _ =>
    if 0x40 ≤ rel ∧ rel < 0x80 then
      match u.rr.records[(s.fn fn).rrSel.toNat]? with
      | some r => BitVec.ofNat 64 (leAt r (8 * ((rel - 0x40) / 8)) 8)
      | none => 0
    else 0

/-! ### A read -/

/-- The register at a BAR0 offset, as a function reads it. -/
def State.readReg (s : State) (fn off : Nat) : DWord :=
  let b := blockOf off
  let rel := off - b
  match b with
  | 0x0000000 => s.readSys fn rel
  | 0x0100000 => s.readHst fn rel
  | 0x0200000 => s.readSvy fn rel
  | 0x0400000 => s.readHrd fn rel
  | 0x0800000 => s.readRtv fn rel
  | 0x0C00000 => s.readEc fn rel
  | 0x0E00000 => s.readDce fn rel
  | 0x1000000 => s.readIng fn rel
  | 0x1400000 => s.readPck rel
  | 0x1800000 => s.readThm fn rel
  | 0x1C00000 => s.readErl fn rel
  | 0x2000000 => s.readCad fn rel
  | 0x2400000 => s.readHnd fn rel
  | 0x2800000 => s.readFab fn (rel / 0x10000) (rel % 0x10000)
  | 0x2C00000 => s.readMem rel
  | 0x3000000 => s.readSup fn rel
  | _ => 0

/-- What a BAR0 read of `n` bytes returns: the register there, 0 where no register lies, all ones for a bad access, which
BAD_ACCESS also counts (R13, R483, R718). -/
def State.readBar0 (s : State) (fn off n : Nat) : DWord :=
  match accessOf off n with
  | .bad => BitVec.allOnes 64
  | .nothing => 0
  | .msix => if n = 8 then s.readMsix fn (off + 4) ++ s.readMsix fn off else (s.readMsix fn off).setWidth 64
  | .register => s.readReg fn off

end Sys2Proof.Machine
end

