-- ==== Sys2Proof/Safety.lean ====
section
/-!
DEFINITION. Safety.lean: what a safe step is, and the words in which claims say what a command leaves alone.
-/
namespace Sys2Proof

/-- The step from a state goes on: it ends in a next state, not in a fault or a refusal. -/
def StepsOn (s : Machine.State) : Prop := ∃ t, Machine.step s = .next t

/-- `n` steps from a state all go on. -/
def SafeFor : Nat → Machine.State → Prop
  | 0, _ => True
  | n + 1, s => ∃ t, Machine.step s = .next t ∧ SafeFor n t

/-- The parts of the module's state: one for each field of State. -/
inductive Part where
  | pending | now | freeCount | out | fuses | pins | sup | erl | fb | hnd | cad | mem | fab | svy | hrd | rtv | sys | ec
  | dce | ing | hst | pck | thm | fns
deriving DecidableEq, Repr

/-- Two states agree on a part. -/
def Part.same (s t : Machine.State) : Part → Prop
  | .pending => t.pending = s.pending
  | .now => t.now = s.now
  | .freeCount => t.freeCount = s.freeCount
  | .out => t.out = s.out
  | .fuses => t.fuses = s.fuses
  | .pins => t.pins = s.pins
  | .sup => t.sup = s.sup
  | .erl => t.erl = s.erl
  | .fb => t.fb = s.fb
  | .hnd => t.hnd = s.hnd
  | .cad => t.cad = s.cad
  | .mem => t.mem = s.mem
  | .fab => t.fab = s.fab
  | .svy => t.svy = s.svy
  | .hrd => t.hrd = s.hrd
  | .rtv => t.rtv = s.rtv
  | .sys => t.sys = s.sys
  | .ec => t.ec = s.ec
  | .dce => t.dce = s.dce
  | .ing => t.ing = s.ing
  | .hst => t.hst = s.hst
  | .pck => t.pck = s.pck
  | .thm => t.thm = s.thm
  | .fns => t.fns = s.fns

/-- Everything outside the named parts is as before. -/
def Keeps (changed : List Part) (s t : Machine.State) : Prop := ∀ p, p ∉ changed → p.same s t

/-- What a report of an error code may change: the record store and its limits, the Field book's share, platform events,
alerts with SERVICE_N's latch, the Cadastre's denial counts, log rings and what is sent. -/
def reportParts : List Part := [.erl, .fb, .hnd, .sup, .cad, .fns, .mem, .out]

/-- No log ring that is enabled lies in device memory: a report then writes no byte of it. -/
def ringsAtHost (s : Machine.State) : Bool := s.fns.all fun p => !p.2.ring.en || p.2.ring.host

/-- The rate limiter remembers the pair of a code and a unit (R674). -/
def limited (s : Machine.State) (e : Machine.Err) (u : Machine.UnitRef) : Bool :=
  s.erl.rate.any fun x => x.err == e && x.unit == u

/-- The newest error record is the next in sequence and carries a code, class, unit and details. Asked where every ring
that is enabled lies in host memory (a ring in device memory may raise records of its own) and the pair of code and unit
is not under the rate limit. -/
def Records (s t : Machine.State) (e : Machine.Err) (c : Machine.ErrClass) (u : Machine.UnitRef) (d : List Nat) : Prop :=
  ringsAtHost s = true → limited s e u = false →
    ∃ r, t.erl.history.head? = some r ∧ r.seq = s.erl.seq + 1 ∧ r.err = e ∧ r.cls = c ∧ r.unit = u ∧ r.detail = d ∧
      r.suppressed = 0

end Sys2Proof
end

