-- ==== Sys2Proof/Certificates/Slice0/Obligations.lean ====
section
/-!
DEFINITION. Certificates/Slice0/Obligations.lean: the statements made of the model, each a proposition named for what it
says. `Keeps ps s t` is the frame: every part of the state outside `ps` is as before. `Records` is the error record a
report leaves (Safety.lean).
-/
open Sys2Proof Sys2Proof.Machine

/-- Tile memory takes the bytes `d` at an address (memory being in its canonical form), and nothing else of memory changes. -/
def WritesTile (s t : State) (a : Nat) (d : List Byte) : Prop :=
  t.mem = { s.mem with tile := t.mem.tile } ∧
    (s.mem.wf = true → readBytes t.mem.tile a d.length = d) ∧
    ∀ b, b < a ∨ a + d.length ≤ b → readByte t.mem.tile b = readByte s.mem.tile b

/-- One route is as said, and every other as before. -/
def ChangesRoute (s t : State) (rid : Nat) (x : Route) : Prop :=
  t.route? rid = some x ∧ ∀ k, k ≠ rid → t.route? k = s.route? k

/-! ### Fabric (chapter 2) -/

/-- The sum of R51's counters of a route: Leashes held, in flight, occupied and returning. -/
def routeBooks (x : Route) : Nat := x.leash + x.flight.length + x.occ.length + x.back

/-- A route after its sender has sent a message: one Leash less, and the message in flight behind those already there, or on
its way over a link. -/
def afterSend (x : Route) (d : List Byte) : Route :=
  { x with
    leash := x.leash - 1, nextSeq := x.nextSeq + 1, waitSend := none
    flight := if x.crossesLink then x.flight else x.flight ++ [{ seq := x.nextSeq, data := d }] }

/-- The parts a send changes beside the unit: the route, and on a route to a Pack peer the link. -/
def sendParts (x : Route) : List Part := if x.crossesLink then [.fab, .hrd, .out, .pck] else [.fab, .hrd]

/-- R45, R75, R513: a send, at once or after its wait, spends one Leash and puts its message in flight behind those already
there, or on the link towards its peer where that link's channel is clear; while the sender holds no Leash, the unit
waits on that route and the route's books stand. -/
def Obligations.SendSpendsOneLeashOrBlocks : Prop :=
  ∀ (s : State) (c u port len : Nat) (src : Src) (f : Frame) (r : FrameRun) (y : UnitRun) (rid : Nat) (x : Route),
    s.issuer? c u = some (f, r, y) → s.routeFrom r u port = some (rid, x) → y.inOrder (.send x.index) = true →
    0 < len → len ≤ x.slotSize →
    (x.canSend = true →
      ∃ t, exec (.routeSend c u port src len) s = .next t ∧ ChangesRoute s t rid (afterSend x (s.operand y src len)) ∧
        (∀ p, x.crossesLink = true → s.pck.portTowards (s.pck.atOffset x.peer) = some p →
          (s.link p).clear (s.pck.channel false p) = true →
          t.out = s.out ++ [.routeOverLink p (s.pck.channel false p) rid x.nextSeq (s.operand y src len)]) ∧
        Keeps (.freeCount :: sendParts x) s t) ∧
    (x.canSend = false →
      ∃ t, exec (.routeSend c u port src len) s = .next t ∧
        ChangesRoute s t rid { x with waitSend := some (s.operand y src len), waitSince := s.now } ∧
        Keeps [.fab, .hrd, .freeCount] s t)

/-- A route after the next message in order has landed in its slot. -/
def afterLanding (x : Route) (flight : List Msg) (len now : Nat) : Route :=
  { x with
    flight := flight, nextArrive := x.nextArrive + 1, occ := x.occ ++ [{ seq := x.nextArrive, len := len, landed := now }] }

/-- R44, R46, R54, R65: the next message in order stands whole in its slot in the tile memory of the Kennel's core, and a
duplicate or a message ahead of its turn changes nothing; a read at a consumer port takes the bytes of the oldest unread
message's slot, at once or after a wait. -/
def Obligations.MessagesOccupySlotsInOrder : Prop :=
  (∀ (s : State) (rid seq : Nat) (msg : List Byte) (x : Route), s.route? rid = some x → s.alive = true →
    (seq ≠ x.nextArrive → exec (.messageArrive rid seq msg) s = .next s) ∧
    (∀ (m : Msg) (rest : List Msg), x.flight = m :: rest → m.seq = seq → seq = x.nextArrive → x.reclaiming = false →
      x.crossesLink = false → x.leash + x.occ.length < x.cap →
      ∃ t, exec (.messageArrive rid seq msg) s = .next t ∧
        ChangesRoute s t rid (afterLanding x rest m.data.length s.now) ∧ WritesTile s t (x.slotAddr seq) m.data ∧
        Keeps [.fab, .mem] s t) ∧
    (seq = x.nextArrive → x.reclaiming = false → x.crossesLink = true → x.occ.length < x.cap →
      ((s.ctx x.ctx).running).isSome = true →
      ∃ t, exec (.messageArrive rid seq msg) s = .next t ∧
        ChangesRoute s t rid (afterLanding x x.flight msg.length s.now) ∧ WritesTile s t (x.slotAddr seq) msg ∧
        Keeps [.fab, .mem] s t)) ∧
  (∀ (s : State) (c u port : Nat) (f : Frame) (r : FrameRun) (y : UnitRun) (rid : Nat) (x : Route),
    s.issuer? c u = some (f, r, y) → s.routeTo r u port = some (rid, x) → y.inOrder (.read x.index) = true →
    (∀ m, x.occ[x.readCnt]? = some m →
      ∃ t, exec (.routeRead c u port) s = .next t ∧
        ChangesRoute s t rid { x with readCnt := x.readCnt + 1, waitRead := false } ∧
        (t.unitRun c u).map (fun z => z.msg) = some (s.slotBytes x m) ∧ Keeps [.fab, .hrd, .rtv] s t) ∧
    (x.occ[x.readCnt]? = none →
      ∃ t, exec (.routeRead c u port) s = .next t ∧ ChangesRoute s t rid { x with waitRead := true } ∧
        Keeps [.fab, .hrd] s t))

/-- R46, R75: a unit that waits to send proceeds with the message it waits with once a Leash is held, and one that waits to
read proceeds with the oldest unread message. -/
def BlockedUnitsProceed : Prop :=
  ∀ (s : State) (rid : Nat) (x : Route), s.route? rid = some x →
    (∀ (d : List Byte) (f : Frame) (r : FrameRun) (y : UnitRun), x.waitSend = some d →
      s.waiter? x.ctx x.prodUnit = some (f, r, y) → x.canSend = true →
      ∃ t, exec (.blockedSendProceed rid) s = .next t ∧ ChangesRoute s t rid (afterSend x d) ∧ Keeps (sendParts x) s t) ∧
    (∀ (m : Kept) (f : Frame) (r : FrameRun) (y : UnitRun), x.waitRead = true →
      s.waiter? x.ctx x.consUnit = some (f, r, y) → x.occ[x.readCnt]? = some m →
      ∃ t, exec (.blockedReadProceed rid) s = .next t ∧
        ChangesRoute s t rid { x with readCnt := x.readCnt + 1, waitRead := false } ∧ Keeps [.fab, .hrd, .rtv] s t)

/-- R49, R61: the consumer frees its oldest read slot and the Leash returns: on the same module through the returning count
to the sender, on a link as a message towards the sender; while an audit freezes the route the free is held back. -/
def FreedSlotsReturnLeashes : Prop :=
  ∀ (s : State) (rid : Nat) (x : Route), s.route? rid = some x → s.alive = true → x.reclaiming = false →
    (x.heldFrees < x.readCnt → ((s.ctx x.ctx).running).isSome = true →
      (x.frozen = true →
        ∃ t, exec (.slotFree rid) s = .next t ∧ ChangesRoute s t rid { x with heldFrees := x.heldFrees + 1 } ∧
          Keeps [.fab] s t) ∧
      (x.frozen = false → x.crossesLink = false →
        ∃ t, exec (.slotFree rid) s = .next t ∧
          ChangesRoute s t rid { x with occ := x.occ.drop 1, readCnt := x.readCnt - 1, back := x.back + 1 } ∧
          Keeps [.fab] s t) ∧
      (x.frozen = false → x.crossesLink = true →
        ∃ t, exec (.slotFree rid) s = .next t ∧
          ChangesRoute s t rid { x with occ := x.occ.drop 1, readCnt := x.readCnt - 1 } ∧
          (∀ p, s.pck.portTowards (s.pck.atOffset (s.pck.size - x.peer % s.pck.size)) = some p →
            (s.link p).clear (s.pck.channel true p) = true →
            t.out = s.out ++ [.leashOverLink p (s.pck.channel true p) rid]) ∧
          Keeps [.fab, .out, .pck] s t)) ∧
    (x.crossesLink = false → 0 < x.back → x.leash + 1 + x.occ.length ≤ x.cap →
      ∃ t, exec (.leashReceive rid) s = .next t ∧
        ChangesRoute s t rid { x with back := x.back - 1, leash := x.leash + 1 } ∧ Keeps [.fab] s t) ∧
    (x.crossesLink = true → x.leash < x.cap →
      ∃ t, exec (.leashReceive rid) s = .next t ∧ ChangesRoute s t rid { x with leash := x.leash + 1 } ∧ Keeps [.fab] s t)

/-- R46, R49, R61, R75: blocked sends and reads proceed, and freed slots return their Leashes. -/
def Obligations.BlockedSendsReadsAndSlotsProceed : Prop := BlockedUnitsProceed ∧ FreedSlotsReturnLeashes

/-- R51: a route with both ends in one module, whose read slots are among the occupied ones, keeps the sum of its four
counters over a send, an arrival, a freed slot and a returned Leash, those that an audit's failure meets included. -/
def Obligations.ConservationOverMovements : Prop :=
  ∀ (s t : State) (rid : Nat) (x y : Route) (i : Instr), s.route? rid = some x → x.crossesLink = false →
    x.readCnt ≤ x.occ.length →
    (i = .blockedSendProceed rid ∨ (∃ seq msg, i = .messageArrive rid seq msg) ∨ i = .slotFree rid ∨ i = .leashReceive rid) →
    exec i s = .next t → t.route? rid = some y → routeBooks y = routeBooks x

/-- R62, R63, R86: a period tick freezes the next route of the quarter's round robin, and waits its turn while an audit runs
there; the driver's request starts an audit of the route it names once none runs or is due, shows result 3 for a route the
quarter does not hold, and is locked while one is under way. -/
def AuditsStart : Prop :=
  ∀ (s : State), s.alive = true →
    (∀ (q rid : Nat) (x : Route), (s.quarter q).audit = none → s.robinNext q = some rid → s.route? rid = some x →
      ∃ t, exec (.auditPeriodTick q) s = .next t ∧ ChangesRoute s t rid { x with frozen := true, reclaimAudit := false } ∧
        t.quarter q = { s.quarter q with audit := some { route := rid, driver := false }, robin := rid } ∧ Keeps [.fab] s t) ∧
    (∀ (q : Nat), ((s.quarter q).audit.isSome = true ∨ s.robinNext q = none) → exec (.auditPeriodTick q) s = .next s) ∧
    (∀ (q rid : Nat), s.hostReach 0 = true → (s.quarter q).driverBusy = false → (s.route? rid = none ∨ routeQuarter rid ≠ q) →
      ∃ t, exec (.auditRequest 0 q rid) s = .next t ∧ (t.quarter q).resRoute = BitVec.ofNat 12 rid ∧
        (t.quarter q).resCode = 3 ∧ (t.quarter q).resSum = 0 ∧ (t.quarter q).driverBusy = false ∧
        t.fab.routes = s.fab.routes ∧ Keeps [.fab] s t) ∧
    (∀ (q rid : Nat) (x : Route), s.hostReach 0 = true → (s.quarter q).driverBusy = false → s.route? rid = some x →
      routeQuarter rid = q → q < 4 →
      (∃ t, exec (.auditRequest 0 q rid) s = .next t ∧ (t.quarter q).driverBusy = true ∧
        (t.quarter q).reqRoute.toNat = rid ∧ Keeps [.fab] s t) ∧
      ((s.quarter q).audit = none → x.reclaiming = false → (s.fab.routes.all fun p => !s.auditDue p.2) = true →
        ∃ t, exec (.auditRequest 0 q rid) s = .next t ∧
          ChangesRoute s t rid { x with frozen := true, reclaimAudit := false } ∧
          (t.quarter q).audit = some { route := rid, driver := true } ∧ Keeps [.fab] s t)) ∧
    (∀ (q rid : Nat), s.hostReach 0 = true → (s.quarter q).driverBusy = true →
      ∃ t, exec (.auditRequest 0 q rid) s = .next t ∧ t.fab.routes = s.fab.routes ∧
        t.quarter q = { s.quarter q with fieldLocked := true } ∧
        Records s t ⟨.fab, 5⟩ .reportOnly .none [fabAuditReqOff q, (2 ^ 31 + rid) % 2 ^ 32] ∧ Keeps (.fab :: reportParts) s t)

/-- R61, R64 to R66: an audit whose route is not drained waits; a drained one with L + O = C releases the route, the frees the
freeze held back happening now, and gives the driver result 0; one that compares otherwise, or whose drain does not end,
sets AUDIT_FAIL, counts an audit error, gives the driver result 1 or 2 and ends the instance. -/
def AuditsEnd : Prop :=
  ∀ (s : State) (q l : Nat) (a : Audit) (x : Route), s.alive = true → (s.quarter q).audit = some a →
    s.route? a.route = some x → routeQuarter a.route = q →
    (s.drained x = false → exec (.auditDrainDone ⟨q, l⟩) s = .next s) ∧
    (s.drained x = true → x.auditLeash l + x.occ.length = x.cap → (s.fab.routes.all fun p => !s.auditDue p.2) = true →
      (a.driver = true ∨ (s.quarter q).driverBusy = false) →
      ∃ t, exec (.auditDrainDone ⟨q, l⟩) s = .next t ∧
        ChangesRoute s t a.route { x with
          frozen := false, heldFrees := 0, occ := x.occ.drop x.heldFrees, readCnt := x.readCnt - x.heldFrees
          back := if x.crossesLink then x.back else x.back + x.heldFrees
          endAudited := x.endAudited || (s.ctx x.ctx).over } ∧
        (t.quarter q).audit = none ∧ (t.quarter q).driverBusy = false ∧ (t.quarter q).auditErrs = (s.quarter q).auditErrs ∧
        (a.driver = true → (t.quarter q).resCode = 0 ∧ (t.quarter q).resRoute = BitVec.ofNat 12 a.route ∧
          (t.quarter q).resSum = BitVec.ofNat 9 x.cap) ∧
        Keeps (if x.crossesLink then [.fab, .out, .pck] else [.fab]) s t) ∧
    (s.drained x = true → x.auditLeash l + x.occ.length ≠ x.cap →
      ∃ t, exec (.auditDrainDone ⟨q, l⟩) s = .next t ∧ (t.quarter q).auditFail = true ∧
        (t.quarter q).auditErrs = satInc (s.quarter q).auditErrs ∧
        (a.driver = true → (t.quarter q).resCode = 1 ∧ (t.quarter q).resSum = BitVec.ofNat 9 (x.auditLeash l + x.occ.length)) ∧
        ((s.ctx x.ctx).st ≠ .free → (t.ctx x.ctx).st = .ending)) ∧
    ((x.crossesLink = true ∨ s.drained x = false) →
      ∃ t, exec (.auditDrainTimeout ⟨q, l⟩) s = .next t ∧ (t.quarter q).auditFail = true ∧
        (t.quarter q).auditErrs = satInc (s.quarter q).auditErrs ∧
        (a.driver = true → (t.quarter q).resCode = 2 ∧ (t.quarter q).resSum = 0) ∧
        ((s.ctx x.ctx).st ≠ .free → (t.ctx x.ctx).st = .ending))

/-- R61 to R66, R86: audits start by the period and by request, freeze their route, compare its books, and release it. -/
def Obligations.AuditsFreezeCompareRelease : Prop := AuditsStart ∧ AuditsEnd

/-- R50, R67, R79, R80, R81: a stall is reported once, naming the route; a parity error of a message granule sets the
quarter's bit and count and restarts the frame, one of a Leash token ends the instance; reclamation ends with the route
free of its mark; two cores of one mesh are as many hops apart as their columns and rows; an arbiter grants only a request
with a credit, and after 16 bypasses only the oldest. -/
def Obligations.FabricFaultsAreContained : Prop :=
  (∀ (s : State), s.alive = true →
    (∀ (c : Nat) (f : Frame) (r : FrameRun), (s.ctx c).running = some (f, r) → s.fab.stalled.contains c = false →
      (∀ q, (s.quarter q).stallMs ≠ 0) →
      ∃ t, exec (.stallDetected c) s = .next t ∧ t.fab.stalled = c :: s.fab.stalled ∧ t.fab.routes = s.fab.routes ∧
        (∀ rid, s.stalledRoute c = some rid → (t.quarter (routeQuarter rid)).stall = true ∧
          Records s t ⟨.fab, 3⟩ (Err.cls ⟨.fab, 3⟩) (.route rid) [rid, (s.quarter (routeQuarter rid)).stallMs.toNat]) ∧
        exec (.stallDetected c) t = .next t ∧ Keeps (.fab :: reportParts) s t) ∧
    (∀ (rid : Nat) (leash : Bool) (x : Route), s.route? rid = some x →
      (x.crossesLink = true ∨ if leash then x.back ≠ 0 else x.flight ≠ []) →
      ∃ t, exec (.crossingParityError rid leash) s = .next t ∧ (t.quarter (routeQuarter rid)).xingParity = true ∧
        (t.quarter (routeQuarter rid)).parityErrs = satInc (s.quarter (routeQuarter rid)).parityErrs ∧
        (leash = true → (s.ctx x.ctx).st ≠ .free → (t.ctx x.ctx).st = .ending)) ∧
    (∀ (rid : Nat) (x : Route), s.route? rid = some x → x.reclaiming = true →
      ∃ t, exec (.routeReclaimDone rid) s = .next t ∧ (t.route? rid).map (fun y => y.reclaiming) = some false ∧
        Keeps [.fab] s t)) ∧
  (∀ (q i j : Nat), i < 36 → j < 36 →
    messageHops q (.core i) q j = (i % 6 - j % 6) + (j % 6 - i % 6) + (i / 6 - j / 6) + (j / 6 - i / 6)) ∧
  (∀ (rs : List Request) (bypassed : Nat) (g : Request), arbiterGrant rs bypassed = some g →
    g ∈ rs ∧ g.credit = true ∧ (16 ≤ bypassed → ∀ r ∈ rs, g.age ≤ r.age))

/-! ### BAR0 and the host interface (chapters 1, 14, 22) -/

/-- R12, R13, R483, R718: a write to a register runs; one to an offset that holds none does nothing, and a read there returns
0; a bad access is counted in HST_ACC_ERR, and a bad read returns all ones. -/
def Obligations.AccessesByTheirTarget : Prop :=
  ∀ (s : State) (fn off : Nat), s.hostReach fn = true →
    (∀ (size : Nat), (accessOf off size = .nothing → s.readBar0 fn off size = 0) ∧
      (accessOf off size = .bad → s.readBar0 fn off size = BitVec.allOnes 64) ∧
      (accessOf off size = .register → s.readBar0 fn off size = s.readReg fn off)) ∧
    (∀ (wide : Bool) (v : DWord), accessOf off (if wide then 8 else 4) = .nothing →
      exec (.registerWrite fn off wide v) s = .next s) ∧
    (∀ (wide : Bool) (v : DWord), accessOf off (if wide then 8 else 4) = .register →
      ∃ t, exec (.registerWrite fn off wide v) s = .next t ∧
        t = s.writeReg fn off (if wide then v else (v.extractLsb' 0 32).setWidth 64)) ∧
    (∀ (wide : Bool) (v : DWord), accessOf off (if wide then 8 else 4) = .bad →
      ∃ t, exec (.registerWrite fn off wide v) s = .next t ∧
        (t.fn fn).hst.accErr = satInc (s.fn fn).hst.accErr ∧ Records s t ⟨.hst, 1⟩ .reportOnly .none [] ∧
        Keeps reportParts s t) ∧
    (∀ (size : Nat) (write : Bool), accessOf off size = .bad →
      ∃ t, exec (.badAccess fn off size write) s = .next t ∧
        (t.fn fn).hst.accErr = satInc (s.fn fn).hst.accErr ∧ Records s t ⟨.hst, 1⟩ .reportOnly .none [] ∧
        (write = false → t.out.getLast? = some (.readOnes fn)) ∧ Keeps reportParts s t)

/-- R14 to R17, R128 and the register tables: fields of one register of each access and change class, as written and as read
back. HST_ERR_VEC is stored whole and its reserved bits read 0; HRD_STATUS clears where a 1 is written; a class L field,
HRD_HEAP_BASE, is stored while no context exists, and while one does it is ignored, recorded and reads as before; a class
S field, the span pin of an admitted context, reads as last written while the value in force stands; FAB_AUDIT_PERIOD
goes to the nearer bound; a virtual function's write to a field of the physical function changes nothing; a 4-byte write
of a 64-bit register is a bad access. -/
def Obligations.RegisterFieldsByAccessAndClass : Prop :=
  ∀ (s : State) (fn : Nat) (v : DWord), s.hostReach fn = true →
    (∃ t, exec (.registerWrite fn 0x100018 false v) s = .next t ∧ (t.fn fn).hst.errVec = v.extractLsb' 0 8 ∧
      (t.fn fn).hst.errEn = v.getLsbD 8 ∧ t.readReg fn 0x100018 = (v.extractLsb' 0 9).setWidth 64 ∧ Keeps [.fns] s t) ∧
    (∃ t, exec (.registerWrite fn 0x400004 false v) s = .next t ∧
      t.hrd.fieldLocked = (s.hrd.fieldLocked && !v.getLsbD 0) ∧ t.hrd.late = (s.hrd.late && !v.getLsbD 3) ∧
      t.hrd.pinBroken = (s.hrd.pinBroken && !v.getLsbD 4) ∧ t.hrd.service = s.hrd.service ∧ Keeps [.hrd] s t) ∧
    (fn = 0 → (s.hrd.ctxs.any fun p => p.2.st != .free) = false →
      ∃ t, exec (.registerWrite fn 0x400018 true v) s = .next t ∧ t.hrd.heapBase = v.extractLsb' 12 52 ∧
        t.readReg 0 0x400018 = (v.extractLsb' 12 52).setWidth 64 <<< 12 ∧ Keeps [.hrd] s t) ∧
    (fn = 0 → (s.hrd.ctxs.any fun p => p.2.st != .free) = true →
      ∃ t, exec (.registerWrite fn 0x400018 true v) s = .next t ∧ t.hrd.heapBase = s.hrd.heapBase ∧
        t.hrd.fieldLocked = true ∧ t.readReg 0 0x400018 = s.readReg 0 0x400018 ∧
        Records s t ⟨.hrd, 8⟩ .reportOnly .none [0x400018, v.toNat % 2 ^ 32] ∧ Keeps (.hrd :: reportParts) s t) ∧
    (fn ≠ 0 → exec (.registerWrite fn 0x400018 true v) s = .next s) ∧
    (∀ (c : Nat) (k : TmplRec), c = (s.fn fn).hrd.ctxSel.toNat → s.ownsCtx fn c = true → s.ctxTmpl c = some k →
      s.pinValid k (v.toNat / 2 ^ 26 % 8) = true →
      ∃ t, exec (.registerWrite fn 0x400030 true v) s = .next t ∧ (t.ctx c).spanPin = (s.ctx c).spanPin ∧
        (t.readReg fn 0x400030).toNat / 2 ^ 26 % 8 = v.toNat / 2 ^ 26 % 8) ∧
    (fn = 0 → ∃ t, exec (.registerWrite fn 0x2800008 false v) s = .next t ∧
      (t.quarter 0).periodMs.toNat = max 1 (min 1000 (v.toNat % 1024)) ∧ Keeps [.fab] s t) ∧
    (∃ t, exec (.registerWrite fn 0x400018 false v) s = .next t ∧ t.hrd = s.hrd ∧
      (t.fn fn).hst.accErr = satInc (s.fn fn).hst.accErr)

/-- R484, R485, Table 14.2: a BAR2 read of device memory the Cadastre grants returns its bytes; a write puts exactly its
bytes and no other; a denied access is counted and changes no memory; the base register sets where the window lies. -/
def Obligations.Bar2ReadsAndWritesMemory : Prop :=
  ∀ (s : State) (fn off : Nat), s.hostReach fn = true →
    (∀ (len : Nat) (ue : UeList), off + len ≤ s.bar2Size fn → s.bar2Addr fn off + len ≤ 0x17E0000000 →
      s.cadDenied fn (s.bar2Addr fn off) len false = none → s.badGranule ue (granules (s.bar2Addr fn off) len) = none →
      ∃ t, exec (.bar2Read fn off len ue) s = .next t ∧
        t.out = s.out ++ [.readData fn (s.peek (s.bar2Addr fn off) len) false] ∧ Keeps [.out] s t) ∧
    (∀ (data : List Byte) (ue : UeList), off + data.length ≤ s.bar2Size fn →
      s.bar2Addr fn off + data.length ≤ 0x17E0000000 → s.cadDenied fn (s.bar2Addr fn off) data.length true = none →
      s.badGranule ue (partGranules (s.bar2Addr fn off) data.length) = none →
      ∃ t, exec (.bar2Write fn off data ue) s = .next t ∧
        (s.mem.wf = true → readBytes t.mem.bytes (s.bar2Addr fn off) data.length = data) ∧
        (∀ a, a < s.bar2Addr fn off ∨ s.bar2Addr fn off + data.length ≤ a → readByte t.mem.bytes a = readByte s.mem.bytes a) ∧
        t.mem.tile = s.mem.tile ∧ Keeps [.mem, .hrd, .ec] s t) ∧
    (∀ (data : List Byte) (ue : UeList) (page : Nat), off + data.length ≤ s.bar2Size fn →
      s.bar2Addr fn off + data.length ≤ 0x17E0000000 → s.cadDenied fn (s.bar2Addr fn off) data.length true = some page →
      ringsAtHost s = true →
      ∃ t, exec (.bar2Write fn off data ue) s = .next t ∧ t.mem = s.mem ∧ t.cad.denyCount = satInc s.cad.denyCount ∧
        t.cad.lastPage = BitVec.ofNat 32 page ∧ t.cad.lastWrite = true) ∧
    (∀ (v : DWord), ∃ t, exec (.bar2BaseWrite fn v) s = .next t ∧ (t.fn fn).hst.bar2Base = v.extractLsb' 30 34 ∧
      Keeps [.fns] s t)

/-- R487 to R491: binding a ring stores its configuration; a doorbell moves TAIL where its value is legal and is an access
error where not; a halted ring goes on at its entry, or past it. -/
def Obligations.SubmissionRingsBindRingAndResume : Prop :=
  ∀ (s : State) (fn ring : Nat), s.hostReach fn = true → ring < 32 →
    (∀ (v : Word), (s.sq fn ring).head = (s.sq fn ring).tail → ((s.sq fn ring).withCfg v.toNat).kind ≠ .command →
      ∃ t, exec (.sqBind fn ring v) s = .next t ∧ t.sq fn ring = (s.sq fn ring).withCfg v.toNat ∧ Keeps [.fns] s t) ∧
    (∀ (v : Word), (s.sq fn ring).head = (s.sq fn ring).tail → ((s.sq fn ring).withCfg v.toNat).kind = .command →
      s.ownsChan fn ((s.sq fn ring).withCfg v.toNat).channel.toNat = true →
      s.channelBound fn ring ((s.sq fn ring).withCfg v.toNat).channel.toNat = false →
      ∃ t, exec (.sqBind fn ring v) s = .next t ∧ t.sq fn ring = (s.sq fn ring).withCfg v.toNat ∧ Keeps [.fns] s t) ∧
    (∀ (v : Word), producerOk (s.sq fn ring).size (s.sq fn ring).tail.toNat (v.toNat % 65536) (s.sq fn ring).head.toNat = true →
      ∃ t, exec (.sqDoorbell fn ring v) s = .next t ∧ (t.sq fn ring).tail = v.setWidth 16 ∧
        (t.sq fn ring).head = (s.sq fn ring).head ∧ Keeps [.fns] s t) ∧
    (∀ (v : Word), producerOk (s.sq fn ring).size (s.sq fn ring).tail.toNat (v.toNat % 65536) (s.sq fn ring).head.toNat = false →
      ∃ t, exec (.sqDoorbell fn ring v) s = .next t ∧ (t.sq fn ring).tail = (s.sq fn ring).tail ∧
        (t.fn fn).hst.accErr = satInc (s.fn fn).hst.accErr) ∧
    ((s.sq fn ring).halted = true →
      ∃ t, exec (.sqResume fn ring) s = .next t ∧ t.sq fn ring = { s.sq fn ring with halted := false } ∧ Keeps [.fns] s t) ∧
    ((s.sq fn ring).halted = true →
      ∃ t, exec (.sqDrop fn ring) s = .next t ∧ (t.sq fn ring).halted = false ∧
        (t.sq fn ring).head.toNat = ((s.sq fn ring).head.toNat + 1) % (s.sq fn ring).size % 65536 ∧ Keeps [.fns] s t)

/-- R487 to R490: the entry at the head of a command ring in host memory is queued on its channel as a descriptor; a frame
submission numbers its frame after the gap it declares and passes its entry; an invalid one halts the ring there. -/
def Obligations.SubmissionEntriesAreTaken : Prop :=
  ∀ (s : State) (fn ring : Nat) (bytes : List Byte), s.alive = true → s.fnExists fn = true → ring < 32 →
    s.hst.linkUp = true → (s.sq fn ring).host = true → (s.sq fn ring).halted = false → (s.sq fn ring).head ≠ (s.sq fn ring).tail →
    bytes.length = 64 →
    ((s.sq fn ring).kind = .command → s.ownsChan fn (s.sq fn ring).channel.toNat = true →
      ∃ t, exec (.sqEntryFetch fn ring bytes true) s = .next t ∧
        (t.chan (s.sq fn ring).channel.toNat).driverQ =
          (s.chan (s.sq fn ring).channel.toNat).driverQ ++ [Desc.read bytes] ∧
        t.sq fn ring = (s.sq fn ring).pass ∧ Keeps [.fns, .rtv, .freeCount] s t) ∧
    ((s.sq fn ring).kind = .frame → s.submissionOk fn bytes = true →
      ∃ t, exec (.frameSubmission fn ring bytes true) s = .next t ∧ (t.sq fn ring).head = (s.sq fn ring).pass.head ∧
        (t.ctx (leAt bytes 0 2)).submitted = true ∧
        (t.ctx (leAt bytes 0 2)).nextNo =
          (if (s.ctx (leAt bytes 0 2)).submitted then (s.ctx (leAt bytes 0 2)).nextNo + leAt bytes 4 4 else 0) + 1) ∧
    ((s.sq fn ring).kind = .frame → s.submissionOk fn bytes = false →
      ∃ t, exec (.frameSubmission fn ring bytes true) s = .next t ∧ (t.sq fn ring).halted = true ∧
        (t.sq fn ring).code = 2 ∧ (t.sq fn ring).head = (s.sq fn ring).head ∧
        Records s t ⟨.hst, 2⟩ .reportOnly (.ring ring) [] ∧ Keeps (.freeCount :: reportParts) s t)

/-- R494 to R499: the oldest waiting entry of a ring in host memory is placed once it fits, its blocks counted in PIDX; a
legal consumer index is taken and any other is an access error; the coalescing time signals what is not yet signalled;
the drain bound marks the ring late and is reported once. -/
def Obligations.OutputRingsPublishAndDrain : Prop :=
  ∀ (s : State) (fn ring : Nat), s.alive = true →
    (∀ (e : OqEntry) (rest : List OqEntry), (s.oq fn ring).disabled = false → (s.oq fn ring).waiting = e :: rest →
      (s.oq fn ring).fits e = true → (s.oq fn ring).host = true → (s.oq fn ring).wbHost = true →
      ∃ t, exec (.waitingEntryPlaced fn ring) s = .next t ∧ (t.oq fn ring).waiting = rest ∧
        (t.oq fn ring).pidx = (s.oq fn ring).pidx + BitVec.ofNat 32 ((s.oq fn ring).plan e).2 ∧
        Keeps [.fns, .rtv, .out] s t) ∧
    (∀ (v : Word), s.hostReach fn = true → ring < 64 →
      (v - (s.oq fn ring).cidx).toNat ≤ ((s.oq fn ring).pidx - (s.oq fn ring).cidx).toNat →
      ∃ t, exec (.oqCidxWrite fn ring v) s = .next t ∧ (t.oq fn ring).cidx = v ∧ (t.oq fn ring).pidx = (s.oq fn ring).pidx ∧
        Keeps [.fns] s t) ∧
    (∀ (v : Word), s.hostReach fn = true → ring < 64 →
      ((s.oq fn ring).pidx - (s.oq fn ring).cidx).toNat < (v - (s.oq fn ring).cidx).toNat →
      ∃ t, exec (.oqCidxWrite fn ring v) s = .next t ∧ (t.oq fn ring).cidx = (s.oq fn ring).cidx ∧
        (t.fn fn).hst.accErr = satInc (s.fn fn).hst.accErr) ∧
    ((s.oq fn ring).en = true → (s.oq fn ring).unsignalled ≠ 0 →
      ∃ t, exec (.oqIrqCoalesceExpiry fn ring) s = .next t ∧ (t.oq fn ring).unsignalled = 0 ∧
        (t.oq fn ring).pidx = (s.oq fn ring).pidx ∧ Keeps [.fns, .out] s t) ∧
    ((s.oq fn ring).pidx ≠ (s.oq fn ring).cidx → (s.oq fn ring).lateTo = none → s.boundStrict fn ring = true →
      ∃ t, exec (.drainBoundExpiry fn ring) s = .next t ∧ (t.oq fn ring).drainLate = true ∧
        (t.oq fn ring).lateTo = some (s.oq fn ring).pidx ∧ (t.fn fn).hst.drainLate = true ∧
        Records s t ⟨.hst, 4⟩ .reportOnly (.ring ring) [] ∧ Keeps reportParts s t)

/-- R482, R503 to R506: a function-level reset leaves its function's registers at reset but for HST_ACC_ERR and its slots
empty; NumVFs changes while VF Enable is 0; PERST_N and a link down take the link down; the link comes up with what it
trained to, degraded below 32 GT/s x16. -/
def FunctionsAndTheLink : Prop :=
  ∀ (s : State),
    (∀ (fn : Nat), s.hostReach fn = true →
      ∃ t, exec (.functionLevelReset fn) s = .next t ∧ t.fn fn = { hst := { accErr := (s.fn fn).hst.accErr } } ∧
        (∀ n, (s.slot n).owner.toNat = fn → (t.slot n).state = .empty ∧ (t.slot n).current = none)) ∧
    (∀ (n : Nat) (b : Bool), s.hostReach 0 = true → n ≤ 15 → s.hst.vfEnable = false →
      ∃ t, exec (.vfEnableChange n b) s = .next t ∧ t.hst.numVfs.toNat = n ∧ t.hst.vfEnable = b ∧ Keeps [.hst] s t) ∧
    (∃ t, exec .perstAssert s = .next t ∧ t.pins.perstN = false ∧ (s.alive = true → t.hst.linkUp = false)) ∧
    (∃ t, exec .perstRelease s = .next t ∧ t.pins = { s.pins with perstN := true } ∧ Keeps [.pins] s t) ∧
    (∀ (speed width : Nat), s.alive = true → s.pins.perstN = true → s.hst.linkUp = false → 1 ≤ speed → speed ≤ 5 →
      width ∈ [1, 2, 4, 8, 16] →
      ∃ t, exec (.pcieLinkUp speed width) s = .next t ∧ t.hst.linkUp = true ∧ t.hst.speed.toNat = speed ∧
        t.hst.width.toNat = width ∧ t.hst.linkDegraded = decide (speed < 5 ∨ width < 16) ∧
        Keeps (.hst :: reportParts) s t) ∧
    (s.alive = true → s.hst.linkUp = true → ∃ t, exec .pcieLinkDown s = .next t ∧ t.hst.linkUp = false)

/-- R502, R604, R605, Table 17.8: a module-fatal endpoint error takes the module to HOLD with cause 0x13 and its rails down;
the physical function's warm reset begins BOOT again with no context, route or tally and an unlocked Cadastre, as the fall
of RESET_N does, which holds the module in reset until it rises. -/
def HoldAndWarmReset : Prop :=
  ∀ (s : State), s.alive = true → s.sup.mstate ≠ .shutdownA →
    (∃ t, exec .endpointFatalError s = .next t ∧ t.sup.mstate = .hold ∧ t.sup.holdCause = 0x13 ∧ t.sup.hotSwap = false ∧
      t.mem = {} ∧ t.hrd.ctxs = [] ∧ Keeps [.sup, .erl, .fb, .hnd, .cad, .fns, .mem, .out, .fab, .svy, .rtv, .ec, .dce,
        .ing, .hst, .pck, .sys, .hrd, .thm] s t) ∧
    (s.hostReach 0 = true →
      ∃ t, exec (.warmResetRequest 0) s = .next t ∧ t.sup.mstate = .boot ∧ t.sup.lastReset = 2 ∧
        t.sup.heldInReset = false ∧ t.fab.routes = [] ∧ t.hrd.ctxs = [] ∧ t.mem.tallies = [] ∧ t.cad.locked = false ∧
        t.cad.windowOpen = true ∧ t.cad.entries = []) ∧
    (s.pins.resetN = true →
      ∃ t, exec .resetNAssert s = .next t ∧ t.sup.mstate = .boot ∧ t.sup.lastReset = 1 ∧ t.sup.heldInReset = true ∧
        t.pins.resetN = false ∧ t.fab.routes = [] ∧ t.hrd.ctxs = []) ∧
    (∀ u : State, u.sup.mstate = .boot → u.sup.heldInReset = true →
      ∃ t, exec .resetNRelease u = .next t ∧ t.sup.heldInReset = false ∧ t.pins.resetN = true ∧
        (u.hnd.inReset = false → u.hnd.held = false → t.out = u.out ++ [.smbusRelease]) ∧ Keeps [.sup, .pins, .out] u t)

/-- R482, R502 to R506, R604, R605: the functions' and the link's resets, HOLD and the warm reset. -/
def Obligations.LinkResetsHoldAndWarmReset : Prop := FunctionsAndTheLink ∧ HoldAndWarmReset

/-! ### The Herder and fencing (chapter 8) and core errors (chapter 4) -/

/-- The state in which CONTEXT_ADMIT judges its request: OP reads 1 and a FREE context holds the asking function's settings. -/
def asked (s : State) (fn : Nat) : State :=
  (s.modFn fn fun g => { g with hrd := { g.hrd with op := 1 } }).takeRegs fn (s.fn fn).hrd.ctxSel.toNat

/-- R286 to R288, Table 17.6: an admission that nothing refuses makes the context ADMITTED for its function with zeroed memory
from the heap and no other byte changed; a refused one leaves it and shows the code; in SHUTDOWN-A the request waits. -/
def Obligations.AdmissionTakesZeroedMemory : Prop :=
  ∀ (s : State) (fn : Nat), s.hostReach fn = true → s.goBusy fn = false →
    (∀ (ue : UeList) (c : Nat) (l : Loaded) (m : TmplRec) (base : Nat), c = (s.fn fn).hrd.ctxSel.toNat →
      s.sup.mstate ≠ .shutdownA → (asked s fn).admitRefusal ue fn c = none → (asked s fn).askedFor c = some (l, m) →
      (asked s fn).heapAlloc (heapBytes m.instKib) = some base → ringsAtHost s = true →
      ∃ t, exec (.contextAdmit ⟨fn, ue⟩) s = .next t ∧ (t.ctx c).st = .admitted ∧ (t.ctx c).func = fn ∧ (t.ctx c).base = base ∧
        (t.ctx c).len = m.instKib * 1024 ∧ (t.ctx c).gen = l.gen ∧ (t.ctx c).key = deriveKey (t.ctx c).seed ∧
        (t.ctx c).held = [] ∧ (∀ a, base ≤ a → a < base + heapBytes m.instKib → readByte t.mem.bytes a = 0) ∧
        (∀ a, a < base ∨ base + heapBytes m.instKib ≤ a → readByte t.mem.bytes a = readByte s.mem.bytes a) ∧
        t.mem.tile = s.mem.tile) ∧
    (∀ (ue : UeList) (c nn : Nat), c = (s.fn fn).hrd.ctxSel.toNat → s.sup.mstate ≠ .shutdownA →
      (asked s fn).admitRefusal ue fn c = some ⟨.hrd, nn⟩ → (s.ctx c).st = .free →
      ∃ t, exec (.contextAdmit ⟨fn, ue⟩) s = .next t ∧ (t.ctx c).st = .free ∧ (t.ctxStat fn c).code = BitVec.ofNat 8 nn ∧
        (t.ctxStat fn c).busy = false ∧ Records s t ⟨.hrd, nn⟩ (Err.cls ⟨.hrd, nn⟩) .none []) ∧
    (∀ (ue : UeList), s.sup.mstate = .shutdownA →
      ∃ t, exec (.contextAdmit ⟨fn, ue⟩) s = .next t ∧ t.hrd.asks = s.hrd.asks ++ [(fn, (s.fn fn).hrd.ctxSel.toNat)] ∧
        (t.ctxStat fn (s.fn fn).hrd.ctxSel.toNat).busy = true ∧
        t.hrd.ctxs = s.hrd.ctxs ∧ Keeps [.fns, .hrd] s t)

/-- R292, R84: OP 2 lets a current frame finish and then ends the context, and ends one without a current frame at once; OP 3
ends it at once, its frames gone; a context whose units are off their cores, and whose routes have each passed their last
audit and are reclaimed, becomes FREE and none of its routes is left. -/
def Obligations.ContextsEndAndBecomeFree : Prop :=
  ∀ (s : State),
    (∀ (fn c : Nat), c = (s.fn fn).hrd.ctxSel.toNat → s.hostReach fn = true → s.goBusy fn = false → s.ownsCtx fn c = true →
      (s.ctx c).st ≠ .ending → ((s.ctx c).current?).isSome = true →
      ∃ t, exec (.contextEndAfterFrame fn) s = .next t ∧ (t.ctx c).st = .ending ∧ (t.ctx c).endAfter = true ∧
        (t.ctx c).held = (s.ctx c).held ∧ Keeps [.fns, .hrd] s t) ∧
    (∀ (fn c : Nat), c = (s.fn fn).hrd.ctxSel.toNat → s.hostReach fn = true → s.goBusy fn = false → s.ownsCtx fn c = true →
      (s.ctx c).st ≠ .ending → ((s.ctx c).current?).isSome = false →
      ∃ t, exec (.contextEndAfterFrame fn) s = .next t ∧ (t.ctx c).st = .ending ∧ (t.ctx c).held = [] ∧
        (t.ctx c).arriving = []) ∧
    (∀ (fn c : Nat), c = (s.fn fn).hrd.ctxSel.toNat → s.hostReach fn = true → s.goBusy fn = false → s.ownsCtx fn c = true →
      ∃ t, exec (.contextEndNow fn) s = .next t ∧ (t.ctx c).st = .ending ∧ (t.ctx c).held = [] ∧ (t.ctx c).arriving = [] ∧
        (t.ctx c).endAfter = false) ∧
    (∀ c : Nat, s.alive = true → (s.ctx c).st = .ending → ((s.ctx c).current?).isSome = false →
      (s.fab.routes.all fun p => p.2.ctx != c || (p.2.endAudited && !p.2.reclaiming)) = true →
      ∃ t, exec (.contextFreed c) s = .next t ∧ (t.ctx c).st = .free ∧ (t.fab.routes.any fun p => p.2.ctx == c) = false)

/-- R293 to R299, R295, R463: a frame a source has supplied is held, and the losses its source told behind it take their turn;
a fifth is lost at once with E-HRD-05; the ready frame whose turn it is starts, its routes at rest, on the placement
chosen for it; a frame that is done commits: its state banks swap, it leaves the queue, and where its record goes to no
ring no byte outside the commit granule changes. -/
def FramesArriveAndStart : Prop :=
  ∀ (s : State) (c : Nat), s.alive = true → s.jobOfCtx c = none →
    (∀ (f : Arriving) (rest : List Arriving), (s.ctx c).arriving = f :: rest → (s.ctx c).st = .admitted →
      ((s.ctx c).held.length < 4 →
        ∃ t, exec (.frameArrive c) s = .next t ∧ (t.ctx c).arriving = rest.dropWhile (fun y => y.lost.isSome) ∧
          (t.ctx c).held.map (fun g => g.no) = (s.ctx c).held.map (fun g => g.no) ++ [f.frame.no] ∧
          ((rest.head?.all fun y => y.lost.isNone) = true → Keeps [.hrd] s t)) ∧
      (4 ≤ (s.ctx c).held.length → (rest.head?.all fun y => y.lost.isNone) = true →
        ∃ t, exec (.frameArrive c) s = .next t ∧ (t.ctx c).arriving = rest ∧ (t.ctx c).held = (s.ctx c).held ∧
          (t.ctxStat (s.ctx c).func c).code = 5 ∧ t.hrd.lostCount = satInc s.hrd.lostCount)) ∧
    (∀ (f : Frame) (w : Want) (p : Placement), (s.ctx c).readyFrame = some f → s.dispatching = true →
      s.routesAtRest c = true → s.tooWide c f = false →
      s.wantFor c f = some w → s.turnOf c f = true → s.placementOk c w p = true →
      ∃ t g r, exec (.frameDispatch c p) s = .next t ∧ (t.ctx c).running = some (g, r) ∧ g.no = f.no ∧ r.k = w.k ∧
        r.gen = w.gen ∧ r.cancelling = false ∧ g.firstGen.isSome = true ∧ (t.ctx c).cores = p.cores) ∧
    (∀ (f : Frame) (r : FrameRun) (sp : StreamParts), (s.ctx c).running = some (f, r) → s.frameDone c f r = true →
      s.commitHeld c = false → s.partsFit c sp = true →
      (s.ctx c).endAfter = false → (s.ctx c).rings.head?.join = none → ringsAtHost s = true →
      ∃ t, exec (.frameCommit ⟨c, sp⟩) s = .next t ∧ (t.ctx c).bank = !(s.ctx c).bank ∧
        (t.ctx c).commits = (s.ctx c).commits + 1 ∧ (t.ctx c).held = (s.ctx c).held.drop 1 ∧
        (t.ctx c).lastFrame = some f.no ∧
        (∀ a, a < (s.ctx c).granuleAt ∨ (s.ctx c).granuleAt + 64 ≤ a → readByte t.mem.bytes a = readByte s.mem.bytes a))

/-- R394 to R397, R401, R404, R405, R408: a commit appends the stream header before the first frame unit and the frame's unit
behind what the stream holds, SIG_CHANGE set where its signature differs from the last unit's; a marker is appended only to
a stream that has begun; the end unit counts the units and names the last frame; a unit is its header, the CRC-32C of its
padded body and that body, in whole words. -/
def StreamsAreWritten : Prop :=
  (∀ (s : State) (c : Nat) (f : Frame) (sp : StreamParts) (sig : DWord), s.ctxProfile c ≠ 0 →
    sig = (if s.ctxProfile c = 2 then f.firstSig else 0) →
    ((s.ctx c).stream.started = true →
      (s.putFrameUnit c f sp).out = s.out ++ [.streamUnit c (frameUnit sp f.no sig.toNat f.arrival.toNat f.inputLoss
        ((s.ctx c).stream.lastSig != sig))]) ∧
    ((s.ctx c).stream.started = false →
      (s.putFrameUnit c f sp).out = s.out ++
        [.streamUnit c (headerUnit (s.ctxProfile c) sp (s.ctx c).seed.toNat sig.toNat f.no f.arrival.toNat),
         .streamUnit c (frameUnit sp f.no sig.toNat f.arrival.toNat f.inputLoss false)]) ∧
    (((s.putFrameUnit c f sp).ctx c).stream.units = (s.ctx c).stream.units + 1 ∧
      ((s.putFrameUnit c f sp).ctx c).stream.lastFrame = some f.no)) ∧
  (∀ (s : State) (c : Nat) (m : Nat × Nat × DWord), (s.ctx c).stream.started = false → s.putMarker c m = s) ∧
  (∀ (s : State) (c : Nat), (s.ctx c).stream.waiting = [] → (s.ctx c).stream.started = true → (s.ctx c).stream.ended = false →
    (s.putEnd c).out = s.out ++ [.streamUnit c (endUnit (s.ctx c).stream.units ((s.ctx c).stream.lastFrame.getD 0))] ∧
      (s.putEnd c).putEnd c = s.putEnd c) ∧
  (∀ (type : Nat) (body : List Byte), ∃ d, streamUnit type body =
    natLe 4 0x4E4C4850 ++ natLe 1 type ++ natLe 3 0 ++ natLe 4 (16 + d.length) ++ natLe 4 (crc32c d) ++ d ∧
    d.length % 4 = 0 ∧ d.take body.length = body ∧ d.length < body.length + 4)

/-- R293 to R299, R394 to R408, R463: frames arrive, start and commit, and a commit's units join its stream. -/
def Obligations.FramesArriveDispatchCommit : Prop := FramesArriveAndStart ∧ StreamsAreWritten

/-- R179, R308, R311, R688: an uncorrectable error, an expired watchdog and the driver each fence the core they name, with
their own cause; the fence is recorded in the Field book's state block, the core leaves the pool and its cache is empty.
A core that does not work is left as it is. -/
def FencesTakeCoresOutOfThePool : Prop :=
  ∀ (s : State) (k : Nat),
    (s.coreWorks k = true → ∀ (i : Instr) (cause : FenceCause),
      ((i = .coreFatalError k ∧ cause = .uncorrectable) ∨ (i = .coreWatchdogExpiry k ∧ cause = .watchdog) ∨
        (i = .driverFence 0 ∧ s.hostReach 0 = true ∧ (s.fn 0).hrd.fenceSel.toNat = k ∧ cause = .driver)) →
      ∃ t, exec i s = .next t ∧ (t.core k).fence = some cause ∧ (t.core k).cache = {} ∧ t.pooled k = false ∧
        Tab.find? t.fb.work.fences k = some cause.code ∧ t.sup.mstate = s.sup.mstate) ∧
    (s.coreWorks k = false → exec (.coreFatalError k) s = .next s ∧ exec (.coreWatchdogExpiry k) s = .next s)

/-- R178, R309 to R311: the frames of a fenced core return to the ready queue with one restart more, or are lost at the third;
the physical function's UNFENCE puts a fenced core under extended test; a pass lifts the fence and its record and a
failure leaves both; a corrected error changes only what a report changes, and a cache parity error drops its line. -/
def CancelledFramesRestartAndCoresReturn : Prop :=
  ∀ (s : State) (k : Nat), s.alive = true →
    (∀ (c : Nat) (f : Frame) (r : FrameRun), s.cancelledOn k = [c] → (s.ctx c).running = some (f, r) → f.restarts < 2 →
      ∃ t g, exec (.fenceCancelDone k) s = .next t ∧ (t.ctx c).held.head? = some g ∧ g.no = f.no ∧
        g.restarts = f.restarts + 1 ∧ g.run = none ∧ t.hrd.restartCount = satInc s.hrd.restartCount) ∧
    (s.hostReach 0 = true → k = (s.fn 0).hrd.fenceSel.toNat → s.enabled k = true → s.fenced k = true →
      s.hnd.unfenceQueue = [] → s.hnd.running = true →
      ∃ t, exec (.unfenceRequest 0) s = .next t ∧ t.hnd.unfenceQueue = [k] ∧ (t.core k).underTest = true ∧
        t.fenced k = true ∧ Keeps [.hnd, .hrd] s t) ∧
    (s.hnd.running = true → (s.core k).underTest = true →
      ∃ t, exec (.extendedTestDone k true) s = .next t ∧ (t.core k).fence = none ∧ (t.core k).underTest = false ∧
        Tab.find? t.fb.work.fences k = none ∧ Tab.find? t.fb.pendingFences k = none) ∧
    (s.hnd.running = true → (s.core k).underTest = true →
      ∃ t, exec (.extendedTestDone k false) s = .next t ∧ (t.core k).fence = (s.core k).fence ∧
        (t.core k).underTest = false ∧ t.fb = s.fb) ∧
    (s.coreWorks k = true →
      ∃ t, exec (.coreEccCorrected k) s = .next t ∧ Records s t ⟨.sys, 20⟩ .corrected (.core k) [] ∧
        Keeps reportParts s t) ∧
    (∀ a : Nat, s.coreWorks k = true → (Tab.find? (s.core k).cache.lines (granule a)).isSome = true →
      ∃ t, exec (.coreCacheParityError k a) s = .next t ∧
        Tab.find? (t.core k).cache.lines (granule a) = none ∧
        Records s t ⟨.sys, 27⟩ .corrected (.core k) [] ∧ Keeps (.hrd :: reportParts) s t)

/-- R178, R179, R308 to R311, R688: cores are fenced, their frames restart, and a pass of the extended test returns
them. -/
def Obligations.FencedCoresLeaveAndReturn : Prop := FencesTakeCoresOutOfThePool ∧ CancelledFramesRestartAndCoresReturn

/-! ### Survey slots (chapter 3) -/

/-- R118, R125, R135: an accepted load or replacement waits in the queue with its function BUSY; an accepted unload of a slot
nothing runs on empties it; a request for another function's slot ends with code 17 and an invalid operation on an own
slot with code 16, the slots as before. -/
def Obligations.SurveyRequestsQueueOrEnd : Prop :=
  ∀ (s : State) (fn n : Nat), s.hostReach fn = true → n < 16 → (s.fn fn).svy.busy = false → s.pck.busy = false →
    (∀ (op : Nat) (i : Instr), ((op = 0 ∧ i = .loadRequest fn n) ∨ (op = 1 ∧ i = .replaceRequest fn n)) →
      s.svyRefusal fn n op = 0 →
      ∃ t, exec i s = .next t ∧ (t.fn fn).svy.busy = true ∧ t.svy.slots = s.svy.slots ∧
        t.svy.queue = s.svy.queue ++ [{ fn := fn, slot := n, replace := decide (op = 1)
                                        addr := (s.fn fn).svy.addr.setWidth 64 <<< 6, len := (s.fn fn).svy.len }] ∧
        Keeps [.fns, .svy] s t) ∧
    (∀ (l : Loaded), s.svyRefusal fn n 2 = 0 → (s.slot n).current = some l → (s.slot n).retained = none →
      s.usersOf n l.gen = 0 →
      ∃ t, exec (.unloadRequest fn n) s = .next t ∧ (t.slot n).state = .empty ∧ (t.slot n).current = none ∧
        (t.fn fn).svy.done = true ∧ (t.fn fn).svy.code = 0 ∧ (∀ k, k ≠ n → t.slot k = s.slot k) ∧ Keeps [.fns, .svy] s t) ∧
    ((s.slot n).owner.toNat ≠ fn →
      ∃ t, exec (.loadRequest fn n) s = .next t ∧ (t.fn fn).svy.code = 17 ∧ (t.fn fn).svy.done = true ∧ t.svy = s.svy ∧
        Records s t ⟨.svy, 17⟩ .reportOnly (.slot n) [] ∧ Keeps reportParts s t) ∧
    ((s.slot n).owner.toNat = fn →
      ∃ t, exec (.invalidSurveyOp fn n) s = .next t ∧ (t.fn fn).svy.code = 16 ∧ (t.fn fn).svy.done = true ∧ t.svy = s.svy ∧
        Records s t ⟨.svy, 16⟩ .reportOnly (.slot n) [] ∧ Keeps reportParts s t)

/-- R109, R110, R118, R125, R133: the loader takes the oldest request with the signature and firmware of that moment, and a
load's slot is LOADING meanwhile; an image that passes every check becomes the slot's current one under the next number,
and one that fails leaves the slot as it was before, with the first failing check's code, section and record shown. -/
def Obligations.LoaderCommitsOrRefuses : Prop :=
  ∀ (s : State), s.alive = true →
    (∀ (q : LoadReq) (rest : List LoadReq), s.svy.running = none → s.svy.queue = q :: rest →
      ∃ t, exec .loadStart s = .next t ∧
        t.svy.running = some { q with numsig := s.numsig, fwMajor := s.firmware.major, fwMinor := s.firmware.minor } ∧
        t.svy.queue = rest ∧
        (t.slot q.slot).state = (if q.replace then (s.slot q.slot).state else .loading) ∧ Keeps [.svy] s t) ∧
    (∀ (q : LoadReq) (ue : UeList) (im : Image) (h : List Byte), s.svy.running = some q → s.checkLoad ue q = .ok (im, h) →
      ∃ t, exec (.slotCommit ue) s = .next t ∧ t.svy.running = none ∧ (t.slot q.slot).state = .loaded ∧
        (t.slot q.slot).current = some { gen := s.svy.nextGen, image := im, hash := h } ∧
        t.svy.nextGen = s.svy.nextGen + 1 ∧ (t.fn q.fn).svy.busy = false ∧ (t.fn q.fn).svy.done = true ∧
        (t.fn q.fn).svy.code = 0 ∧ (∀ k, k ≠ q.slot → t.slot k = s.slot k)) ∧
    (∀ (q : LoadReq) (ue : UeList) (e : SvyFail), s.svy.running = some q → s.checkLoad ue q = .error e →
      ∃ t, exec (.loadRefused ue) s = .next t ∧ t.svy.running = none ∧
        (t.slot q.slot).state = (if q.replace then (s.slot q.slot).state else .empty) ∧
        (t.slot q.slot).current = (s.slot q.slot).current ∧ (t.fn q.fn).svy.busy = false ∧
        (t.fn q.fn).svy.code = BitVec.ofNat 8 e.code ∧ (t.fn q.fn).svy.record = BitVec.ofNat 24 e.record ∧
        (∀ k, k ≠ q.slot → t.slot k = s.slot k))

/-! ### Core arithmetic (chapters 4 and 5) -/

/-- A unit's result of bytes `d` at offset `dst`: where it fits the unit's working region those bytes of tile memory are
written and nothing else of memory changes, else nothing is written. -/
def WritesRegion (s t : State) (x : UnitRun) (dst : Nat) (d : List Byte) : Prop :=
  if dst + d.length ≤ x.size then WritesTile s t (x.addr dst) d else t.mem = s.mem

/-- R150 to R160, Table 4.6: a Grid operation leaves each output element's accumulation with its products added; with an
epilogue it also writes the output patterns to the region; a partial is exported as its 80 bytes and merged by kind. -/
def Obligations.GridAccumulates : Prop :=
  ∀ (s : State) (c u : Nat) (f : Frame) (r : FrameRun) (x : UnitRun), s.coreIssuer? c u = some (f, r, x) →
    (∀ (g : GridArgs) (a b : List Byte), gridPairOk g.fmtA g.fmtB = true → g.epilogue = none →
      a = s.operand x g.a (elemBytes g.fmtA (g.m * g.k)) → b = s.operand x g.b (elemBytes g.fmtB (g.k * g.n)) →
      ((gridAccs x g a b).any fun y => 2 ^ 24 < y.count) = false →
      ∃ t, exec (.gridOp c u g) s = .next t ∧
        (∀ i, i < g.m * g.n → (t.unitRun c u).bind (fun y => Tab.find? y.accs (g.acc + i)) =
          some ((gridStart x g i).addProducts (if g.fmtA < 0x12 then 64 else 32) (gridProducts g a b i))) ∧
        Keeps [.hrd, .freeCount] s t) ∧
    (∀ (g : GridArgs) (e : Epilogue) (a b : List Byte), gridPairOk g.fmtA g.fmtB = true → g.epilogue = some e → e.act ≤ 5 →
      (e.int32 || outFmtOk e.fmt) = true → a = s.operand x g.a (elemBytes g.fmtA (g.m * g.k)) →
      b = s.operand x g.b (elemBytes g.fmtB (g.k * g.n)) →
      ((gridAccs x g a b).any fun y => 2 ^ 24 < y.count) = false →
      ∃ t, exec (.gridOp c u g) s = .next t ∧
        WritesRegion s t x e.dst (packPatterns (if e.int32 ∧ g.fmtA < 0x10 then 4 else e.fmt)
          (((List.range (gridAccs x g a b).length).zip (gridAccs x g a b)).map fun p =>
            epilogueElem s f r x (s.ctx c).key g e p.1 p.2)) ∧ Keeps [.hrd, .freeCount, .mem] s t) ∧
    (∀ (acc dst : Nat) (v : Int) (n : Nat) (a b d e : Bool), Tab.find? x.accs acc = some (.exact v n a b d e) →
      ∃ t, exec (.exportPartial c u acc dst) s = .next t ∧
        WritesRegion s t x dst (natLe 72 (ofSigned 576 v) ++ natLe 4 n ++
          natLe 4 (bitAt 0 a + bitAt 1 b + bitAt 2 d + bitAt 3 e)) ∧ Keeps [.mem] s t) ∧
    (∀ (acc : Nat) (src : Src) (p m : Acc), p = readPartial (s.operand x src 80) →
      (Tab.find? x.accs acc = none ∧ m = p ∨ ∃ q, Tab.find? x.accs acc = some q ∧ q.merge p = some m) → m.count ≤ 2 ^ 24 →
      ∃ t, exec (.mergePartial c u acc src) s = .next t ∧
        (t.unitRun c u).bind (fun y => Tab.find? y.accs acc) = some m ∧ Keeps [.hrd, .freeCount] s t)

/-- R151, R152, R155, R156, R159: an exact accumulation depends on no order of its products and on no split into partials: the
merge of two parts is the accumulation of all products, and an exported partial reads back as the accumulation, an integer
one of 48 bits included. -/
def Obligations.ExactSumsDependOnNoOrder : Prop :=
  (∀ (block : Nat) (ps qs : List Fl) (v : Int) (n : Nat) (a b c d : Bool), ps.Perm qs →
    (Acc.exact v n a b c d).addProducts block ps = (Acc.exact v n a b c d).addProducts block qs) ∧
  (∀ (block : Nat) (ps qs : List Fl),
    ((Acc.fresh false 0x12).addProducts block ps).merge ((Acc.fresh false 0x12).addProducts block qs) =
      some ((Acc.fresh false 0x12).addProducts block (ps ++ qs))) ∧
  (∀ (v : Int) (n : Nat) (a b c d : Bool), -(2 ^ 575) ≤ v → v < 2 ^ 575 → n < 2 ^ 32 →
    (Acc.exact v n a b c d).partialBytes.map readPartial = some (.exact v n a b c d)) ∧
  (∀ (v : Int) (n : Nat), -(2 ^ 47) ≤ v → v < 2 ^ 47 → n < 2 ^ 32 →
    (Acc.int v n).partialBytes.map readPartial = some (.int v n))

/-- R148, R183: a vector operation and a function-unit evaluation write the patterns of their elements, and no other byte, at
their place in the working region. -/
def VectorAndFunctionUnitsWrite : Prop :=
  ∀ (s : State) (c u : Nat) (f : Frame) (r : FrameRun) (x : UnitRun), s.coreIssuer? c u = some (f, r, x) →
    (∀ (v : VecArgs) (d : List Byte), vectorBytes s x (s.ctx c).key f.no v = some d →
      ∃ t, exec (.vectorOp c u v) s = .next t ∧ WritesRegion s t x v.dst d ∧ Keeps [.mem, .freeCount] s t) ∧
    (∀ (v : VecArgs) (g : Fmt), (v.op = .add ∨ v.op = .sub ∨ v.op = .mul) → vectorFmt v.fmt = some g →
      vectorBytes s x (s.ctx c).key f.no v = some (packPatterns v.fmt ((List.range v.n).map fun i =>
        let a := elemAt v.fmt (s.operand x v.a (elemBytes v.fmt v.n)) i
        let b := elemAt v.fmt (s.operand x v.b (elemBytes v.fmt v.n)) i
        g.round (if v.op = .add then a.add b else if v.op = .sub then a.add b.neg else a.mul b)))) ∧
    (∀ (fu : FuFn) (fmt n outFmt dst : Nat) (src : Src), (fmtOf fmt).isSome = true → (fmtOf outFmt).isSome = true →
      ∃ t, exec (.functionUnitEval c u fu fmt n src outFmt dst) s = .next t ∧
        WritesRegion s t x dst (packPatterns outFmt ((List.range n).map fun i =>
          fuEval fu fmt (elemPattern fmt (s.operand x src (elemBytes fmt n)) i) outFmt s.fuses.fuRev.toNat r.tier)) ∧
        Keeps [.mem, .freeCount] s t)

/-- R195 to R208, R210: each row instruction of a length in range writes its outputs, computed over the 64 fixed partitions
and the tree above them in Surveyed mode, and no other byte; a partial merges with its sibling of the same kind. -/
def RowOperationsWrite : Prop :=
  ∀ (s : State) (c u : Nat) (f : Frame) (r : FrameRun) (x : UnitRun), s.coreIssuer? c u = some (f, r, x) →
    (∀ (a : RowArgs), 1 ≤ a.n → a.n ≤ 2 ^ 24 → (fmtOf a.fmt).isSome = true → outFmtOk a.outFmt = true →
      ∃ t, exec (.rowReduce c u a) s = .next t ∧
        WritesRegion s t x a.dst (rowOut a.outFmt [(reduceRow 1 a (rowElems s x a)).a]) ∧ Keeps [.mem, .freeCount] s t) ∧
    (∀ (a : RowArgs) (g : Fmt), 1 ≤ a.n → a.n ≤ 2 ^ 24 → (vectorFmt a.fmt).isSome = true → fmtOf a.outFmt = some g →
      ∃ t, exec (.softMaximum c u a) s = .next t ∧
        WritesRegion s t x a.dst (packPatterns a.outFmt (softPatterns s r.tier a g (rowElems s x a))) ∧
        Keeps [.mem, .freeCount] s t) ∧
    (∀ (a : RowArgs) (g : NormArgs), 1 ≤ a.n → a.n ≤ 2 ^ 24 → (fmtOf a.fmt).isSome = true → outFmtOk a.outFmt = true →
      ∃ t, exec (.normalisation c u a g) s = .next t ∧
        WritesRegion s t x a.dst (rowOut a.outFmt (normValues s r.tier a g (rowElems s x a))) ∧
        Keeps [.mem, .freeCount] s t) ∧
    (∀ (a : RowArgs) (e : EmitArgs), 1 ≤ a.n → a.n ≤ 2 ^ 24 → (fmtOf a.fmt).isSome = true → 1 ≤ e.kind → e.kind ≤ 3 →
      ∃ t, exec (.rowPartialEmit c u a e) s = .next t ∧
        WritesRegion s t x a.dst (emitBytes a e (emitElems s x a e)) ∧ Keeps [.mem, .freeCount] s t) ∧
    (∀ (p q : Src) (dst : Nat) (d : List Byte), mergeRowPartials (s.operand x p 16) (s.operand x q 16) = some d →
      ∃ t, exec (.rowPartialMerge c u p q dst) s = .next t ∧ WritesRegion s t x dst d ∧ Keeps [.mem, .freeCount] s t)

/-- R148, R183, R195 to R208, R210: the vector, function and row units write their results in the working region. -/
def Obligations.VectorFunctionAndRowUnitsWrite : Prop := VectorAndFunctionUnitsWrite ∧ RowOperationsWrite

/-- R169, R228, R230, R232, R269, R295: a read cache holds at most its ways of lines in a set; a volatile reach load answers with memory's bytes, a miss waits and answers with them when
they return; a wait on a tally that has reached its target goes on and any other waits until it has; a unit whose work is
done ends. -/
def Obligations.LoadsAndWaitsOfUnits : Prop :=
  (∀ (x : Cache) (h : CacheShape) (free g : Nat) (d : List Byte), (h = coreCache ∨ h = streamCache) →
    (∀ k, (x.sharing h k).length ≤ h.ways) →
    Tab.find? (x.fill h free g d).lines g = some d ∧ ∀ k, ((x.fill h free g d).sharing h k).length ≤ h.ways) ∧
  ∀ (s : State) (c u : Nat),
    (∀ (f : Frame) (r : FrameRun) (x : UnitRun) (a len : Nat) (ue : UeList), s.issuer? c u = some (f, r, x) → x.kind = 0 →
      loadOk a len = true → s.cadDenied (0x10 + s.ctxOwner c) a len false = none →
      (s.badGranule ue (granules a len) = none →
        ∃ t, exec (.reachLoad c u a len true ue) s = .next t ∧ (t.unitRun c u).map (fun y => y.data) = some (s.peek a len) ∧
          Keeps [.hrd] s t) ∧
      (Tab.find? (s.core x.place).cache.lines (granule a) = none →
        ∃ t, exec (.reachLoad c u a len false ue) s = .next t ∧
          (t.unitRun c u).map (fun y => y.blocked) = some (some (.load a len true)) ∧ Keeps [.hrd, .freeCount] s t)) ∧
    (∀ (f : Frame) (r : FrameRun) (x : UnitRun) (a len : Nat) (keep : Bool) (ue : UeList),
      s.waiter? c u = some (f, r, x) → x.blocked = some (.load a len keep) → s.badGranule ue (granules a len) = none →
      ∃ t, exec (.reachLoadReturn c u ue) s = .next t ∧ (t.unitRun c u).map (fun y => y.data) = some (s.peek a len) ∧
        (t.unitRun c u).map (fun y => y.blocked) = some none ∧
        (keep = true → Tab.find? (t.core x.place).cache.lines (granule a) = some (s.peek (granule a) 64)) ∧
        Keeps [.hrd, .freeCount] s t) ∧
    (∀ (f : Frame) (r : FrameRun) (x : UnitRun) (n : Nat) (target : Word), s.issuer? c u = some (f, r, x) → x.kind = 0 →
      n < 256 →
      (reached ((s.instTally c n).2.tally (s.instTally c n).1) target = true →
        ∃ t, exec (.tallyWait c u n target) s = .next t ∧ (t.unitRun c u).map (fun y => y.blocked) = some none ∧
          Keeps [.hrd, .mem] s t) ∧
      (reached ((s.instTally c n).2.tally (s.instTally c n).1) target = false →
        ∃ t, exec (.tallyWait c u n target) s = .next t ∧
          (t.unitRun c u).map (fun y => y.blocked) = some (some (.tally (s.instTally c n).1 target)) ∧ Keeps [.hrd, .mem] s t)) ∧
    (∀ (f : Frame) (r : FrameRun) (x : UnitRun) (k : Nat) (target : Word), s.waiter? c u = some (f, r, x) →
      x.blocked = some (.tally k target) →
      (reached (s.tally k) target = true →
        ∃ t, exec (.tallyWaitRelease c u) s = .next t ∧ (t.unitRun c u).map (fun y => y.blocked) = some none ∧
          Keeps [.hrd] s t) ∧
      (reached (s.tally k) target = false → exec (.tallyWaitRelease c u) s = .next s)) ∧
    (∀ (f : Frame) (r : FrameRun) (x : UnitRun), s.issuer? c u = some (f, r, x) →
      (x.kind = 0 ∨ s.engineDone c f r x = true) →
      ∃ t, exec (.unitEnd c u) s = .next t ∧ (t.unitRun c u).map (fun y => y.ended) = some true ∧ Keeps [.hrd] s t)

/-- R339, R340, R359: GO starts the counter generator's test computation, a second GO while BUSY is ignored and recorded, and
the result is the block function of the key, or of the key derived from the seed, and the counter. -/
def Obligations.CounterGeneratorTestRegisters : Prop :=
  ∀ (s : State) (fn : Nat),
    (∀ v : Word, s.hostReach fn = true → (s.fn fn).rng.busy = false →
      ∃ t, exec (.rngCompute fn v) s = .next t ∧ (t.fn fn).rng.busy = true ∧ (t.fn fn).rng.seedMode = v.getLsbD 1 ∧
        (t.fn fn).rng.key = (s.fn fn).rng.key ∧ Keeps [.fns] s t) ∧
    (∀ v : Word, s.hostReach fn = true → (s.fn fn).rng.busy = true →
      ∃ t, exec (.rngCompute fn v) s = .next t ∧ (t.fn fn).rng = { (s.fn fn).rng with fieldLocked := true } ∧
        Records s t ⟨.sys, 32⟩ .reportOnly .none [0x140, v.toNat] ∧ Keeps reportParts s t) ∧
    (s.alive = true → (s.fn fn).rng.busy = true → ∀ o : Words4,
      o = rngBlock (if (s.fn fn).rng.seedMode then deriveKey (s.fn fn).rng.key else (s.fn fn).rng.key)
        ⟨(s.fn fn).rng.ctrLo.extractLsb' 0 32, (s.fn fn).rng.ctrLo.extractLsb' 32 32,
          (s.fn fn).rng.ctrHi.extractLsb' 0 32, (s.fn fn).rng.ctrHi.extractLsb' 32 32⟩ →
      ∃ t, exec (.rngComplete fn) s = .next t ∧ (t.fn fn).rng.busy = false ∧ (t.fn fn).rng.outLo = o.x1 ++ o.x0 ∧
        (t.fn fn).rng.outHi = o.x3 ++ o.x2 ∧ Keeps [.fns] s t)

/-! ### Retrievers, dictionary and entropy engines (chapters 7, 10 and 12) -/

/-- The row that starts a command of an opcode on a channel. -/
def startsOn (i : Instr) (op ch : Nat) (a : StartArgs) (idx : List Byte) : Prop :=
  (op = 1 ∧ i = .copy ch a ∧ idx = []) ∨ (op = 2 ∧ i = .copy2d ch a ∧ idx = []) ∨ (op = 3 ∧ i = .gather ch a idx) ∨
  (op = 4 ∧ i = .fill ch a ∧ idx = []) ∨ (op = 5 ∧ i = .gateSend ch a ∧ idx = []) ∨
  (op = 6 ∧ i = .peerPut ch a ∧ idx = []) ∨ (op = 7 ∧ i = .peerGet ch a ∧ idx = []) ∨
  (op = 8 ∧ i = .dictCompress ch a ∧ idx = []) ∨ (op = 9 ∧ i = .dictExpand ch a ∧ idx = [])

/-- R260, R261, R281: a command that may start leaves its queue; one that passes the checks joins the channel's started
commands with the lowest free tag, behind those before it; a driver's command that fails them makes no access, halts the
channel and is counted and recorded with its code. A command that may not start changes nothing. -/
def Obligations.CommandsStartAndTakeATag : Prop :=
  ∀ (s : State) (ch op : Nat) (a : StartArgs) (idx : List Byte) (i : Instr), startsOn i op ch a idx →
    (s.starting ch op a idx = none → exec i s = .next s) ∧
    (∀ (x : Starting) (s' : State), s.starting ch op a idx = some (x, s') → s'.startFault x = none →
      (op < 8 ∨ (s.pickEngine ch).isSome = true ∧ s.recordBusy x = false) →
      ∃ t k, exec i s = .next t ∧ (t.chan ch).started = (s'.chan ch).started ++ [k] ∧ k.tag = (s'.chan ch).freeTag ∧
        k.issuer = x.issuer ∧ k.desc = x.desc ∧ (t.chan ch).driverQ = (s'.chan ch).driverQ ∧
        Keeps ([.rtv, .hrd, .ec, .pck, .freeCount] ++ reportParts) s t) ∧
    (∀ (x : Starting) (s' : State) (nn f : Nat), s.starting ch op a idx = some (x, s') →
      s'.startFault x = some (.code nn) → x.issuer = .driver f → x.desc.record = false →
      ∃ t, exec i s = .next t ∧ (t.chan ch).halted = true ∧ (t.chan ch).lastErr = BitVec.ofNat 8 nn ∧
        (t.chan ch).failed = satInc (s.chan ch).failed ∧ (t.chan ch).done = (s.chan ch).done ∧
        t.mem.tallies = s.mem.tallies ∧
        Records s t ⟨.rtv, nn⟩ .reportOnly (chanUnit ch) [x.desc.tagId.toNat, 0xFFFFFFFF, x.desc.op] ∧
        Keeps ([.rtv, .freeCount] ++ reportParts) s t)

/-- R224, R263, R271: FILL and COPY between device memory leave, once they have completed, the pattern and the source's
bytes at their destination, whatever had landed before, and no other byte of device memory changed (a driver's volatile
command with no record, its source and destination apart, no granule bad, memory in its canonical form). -/
def Obligations.FillAndCopyLandTheirBytes : Prop :=
  ∀ (s s' : State) (ch op f : Nat) (a : StartArgs) (x : Starting) (i : Instr),
    ((op = 4 ∧ i = .fill ch a) ∨ (op = 1 ∧ i = .copy ch a)) →
    s.starting ch op a [] = some (x, s') → s'.startFault x = none → x.issuer = .driver f → x.desc.record = false →
    x.desc.isVolatile = true → x.desc.srcSpace = 0 → x.desc.dstSpace = 0 → s.mem.wf = true →
    (op = 1 → x.desc.src.toNat + x.desc.len.toNat ≤ devTop ∧
      (x.desc.src.toNat + x.desc.len.toNat ≤ x.desc.dst.toNat ∨ x.desc.dst.toNat + x.desc.len.toNat ≤ x.desc.src.toNat)) →
    x.desc.dst.toNat + x.desc.len.toNat ≤ devTop → a.ue = [] → s.mem.poison = [] →
    ∃ t u, exec i s = .next t ∧ exec (.rtvCommandComplete ch (s'.chan ch).freeTag) t = .next u ∧
      readBytes u.mem.bytes x.desc.dst.toNat x.desc.len.toNat =
        (if op = 1 then readBytes s.mem.bytes x.desc.src.toNat x.desc.len.toNat
         else (List.range x.desc.len.toNat).map fun j => x.desc.arg.getD ((x.desc.dst.toNat + j) % 8) 0) ∧
      (∀ b, b < x.desc.dst.toNat ∨ x.desc.dst.toNat + x.desc.len.toNat ≤ b →
        readByte u.mem.bytes b = readByte s.mem.bytes b)

/-- R239, R244, R268, R271 to R274, R281: a command's completion makes its remaining writes, increments its tally, and the one
that a put to this module names, by one, and frees its tag; a failure (of the codes of Table 7.7) never does, and a driver's failed command halts its channel. -/
def Obligations.CommandsCompleteOrFail : Prop :=
  ∀ (s : State) (ch tag : Nat) (k : Cmd), s.alive = true → s.cmd? ch tag = some k →
    (k.ready = true → (k.issuer.isUnit = true ∨ k.desc.record = false ∨ (s.chan ch).recordFull = false ∧
        (s.chan ch).crecHost = true) →
      ∃ t, exec (.rtvCommandComplete ch tag) s = .next t ∧
        (t.chan ch).started = (s.chan ch).started.filter (fun y => y.tag != tag) ∧
        (k.issuer.isUnit = true ∨ k.succeeded = true → (t.chan ch).done = (s.chan ch).done + 1 ∧
          (k.peerTally ≠ some k.tally → t.tally k.tally = s.tally k.tally + 1)) ∧
        (∀ n, n ≠ k.tally → t.tally n = s.tally n + (if k.peerTally = some n then 1 else 0)) ∧
        t.mem.bytes = (k.todo.foldl (fun z w => z.putDest w) s).mem.bytes ∧
        Keeps [.mem, .rtv, .hrd, .ec, .dce, .fab, .fns, .out] s t) ∧
    (∀ (f : Nat) (code nn info : Nat) (e : Err), k.failure code = some (nn, e, info) → 1 ≤ nn → nn ≤ 13 →
      k.issuer = .driver f → k.desc.record = false →
      ∃ t, exec (.rtvCommandFail ch tag code) s = .next t ∧ (t.chan ch).halted = true ∧
        (t.chan ch).started = (s.chan ch).started.filter (fun y => y.tag != tag) ∧
        (t.chan ch).lastErr = BitVec.ofNat 8 nn ∧ (t.chan ch).failed = satInc (s.chan ch).failed ∧
        t.dce.checkFails = (if e.blk = .dce then satInc s.dce.checkFails else s.dce.checkFails) ∧
        t.mem.tallies = s.mem.tallies ∧ (ringsAtHost s = true → t.mem = s.mem) ∧
        Keeps ([.rtv, .dce, .freeCount] ++ reportParts) s t) ∧
    (∀ (c no u : Nat) (code : Nat), (k.failure code).isSome = true → k.issuer = .unit c no u →
      ∃ t, exec (.rtvCommandFail ch tag code) s = .next t ∧ (∀ h ∈ (t.ctx c).held, h.no ≠ no))

/-- R270, R273, R283, R496: RESUME lets the channel's owner go on, DROP also empties its queue; a driver tally takes the
value written unless a command names it; the record ring's consumer index moves forward no further than its producer, and
the room it leaves ends the oldest command that waits for it. -/
def Obligations.ChannelRegistersAct : Prop :=
  ∀ (s : State) (fn ch : Nat), s.hostReach fn = true →
    (s.ownsChan fn ch = true →
      ∃ t, exec (.channelResume fn ch) s = .next t ∧ t.chan ch = { s.chan ch with halted := false } ∧ Keeps [.rtv] s t) ∧
    (s.ownsChan fn ch = true →
      ∃ t, exec (.channelDrop fn ch) s = .next t ∧ (t.chan ch).driverQ = [] ∧ (t.chan ch).halted = false ∧
        t.mem.tallies = s.mem.tallies ∧ Keeps ([.rtv, .pck, .freeCount] ++ reportParts) s t) ∧
    (∀ (v : Word) (k : Nat), k = tallyKey ((s.fn fn).tallySel.toNat / 1024) ((s.fn fn).tallySel.toNat % 1024) →
      s.ownsTally fn k = true →
      (s.rtv.chans.any (fun p => p.2.names k) = false →
        ∃ t, exec (.tallyValueWrite fn v) s = .next t ∧ t.tally k = v ∧ (∀ n, n ≠ k → t.tally n = s.tally n) ∧
          Keeps [.mem] s t) ∧
      (s.rtv.chans.any (fun p => p.2.names k) = true →
        ∃ t, exec (.tallyValueWrite fn v) s = .next t ∧ t.mem.tallies = s.mem.tallies ∧
          (t.chan ((tallyOwner k).getD 0)).fieldLocked = true ∧
          Records s t ⟨.rtv, 10⟩ .reportOnly .none [0x81000C, v.toNat] ∧ Keeps ([.rtv] ++ reportParts) s t)) ∧
    (∀ v : Word, s.ownsChan fn ch = true →
      (consumerOk (s.chan ch).recordSize (s.chan ch).tail.toNat (v.toNat % 65536) (s.chan ch).head.toNat = true →
        ∃ t, exec (.crecTailWrite fn ch v) s = .next t ∧
          t.chan ch = { s.chan ch with tail := BitVec.ofNat 16 (v.toNat % 65536) } ∧ Keeps [.rtv] s t) ∧
      (consumerOk (s.chan ch).recordSize (s.chan ch).tail.toNat (v.toNat % 65536) (s.chan ch).head.toNat = false →
        ∃ t, exec (.crecTailWrite fn ch v) s = .next t ∧ t.chan ch = s.chan ch ∧
          Records s t ⟨.hst, 1⟩ .reportOnly .none [] ∧ Keeps reportParts s t)) ∧
    (∀ (k : Cmd) (f : Nat), (s.chan ch).started.find? (fun y => y.heldRecord) = some k → k.issuer = .driver f →
      (s.chan ch).recordFull = false → k.succeeded = true → (s.chan ch).crecHost = true →
      ∃ t, exec (.recordRingRelease ch) s = .next t ∧ t.tally k.tally = s.tally k.tally + 1 ∧
        (t.chan ch).started = (s.chan ch).started.filter (fun y => y.tag != k.tag) ∧
        (k.desc.record = true → (t.chan ch).head.toNat = ((s.chan ch).head.toNat + 1) % (s.chan ch).recordSize % 65536) ∧
        Keeps [.rtv, .mem, .fns, .out] s t)

/-- A message to a Pack member on a channel pair leaves at once: it crosses no link, or its link's channel is clear. -/
def leavesNow (s : State) (member : Nat) (returns : Bool) : Bool :=
  match s.pck.portTowards member with
  | some q => (s.link q).clear (s.pck.channel returns q)
  | none => true

/-- R244, R254, R279, R282: a put that arrives at a formed Pack and is admitted is written, its pages dropped from every
cache, its tally counted and its sender told so; of a cancelled one the bytes alone land; one outside the job's memory
writes nothing and is refused; a get is answered with the bytes; the issuing command completes on the report of a put; a
get's data lands in any subset of its granules and the rest is still to be written; and a command fails with E-RTV-06 on a
refusal or where no report comes. -/
def Obligations.PeerRequestsAreServed : Prop :=
  ∀ (s : State), s.alive = true →
    (∀ (m j ad n : Nat) (d : List Byte) (ue : UeList), s.pck.state = .formed →
      (∀ (a key : Nat) (s' : State), s.peerRange j ad d.length = some a → s.peerTally j n = some (some key, s') →
        s.cadDenied s.packClass a d.length true = none → s.badGranule ue (partGranules a d.length) = none →
        ∃ t, exec (.peerPutArrive m j ad n ⟨d, false, ue⟩) s = .next t ∧ t.mem.bytes = writeBytes s.mem.bytes a d ∧
          t.tally key = s'.tally key + 1 ∧ (leavesNow s m true = true → t.out = s.out ++ [.peerReport m true]) ∧
          (∀ q g, g / 4096 ∈ pages a d.length → Tab.find? (Tab.getD t.mem.src q {}).lines g = none) ∧
          Keeps [.mem, .hrd, .ec, .out, .pck] s t) ∧
      (∀ (a : Nat), s.peerRange j ad d.length = some a → s.cadDenied s.packClass a d.length true = none →
        s.badGranule ue (partGranules a d.length) = none →
        ∃ t, exec (.peerPutArrive m j ad n ⟨d, true, ue⟩) s = .next t ∧ t.mem.bytes = writeBytes s.mem.bytes a d ∧
          t.mem.tallies = s.mem.tallies ∧ Keeps [.mem, .hrd, .ec] s t) ∧
      (s.peerRange j ad d.length = none →
        ∃ t, exec (.peerPutArrive m j ad n ⟨d, false, ue⟩) s = .next t ∧
          (leavesNow s m true = true → t.out = s.out ++ [.peerReport m false]) ∧ Keeps [.out, .pck] s t)) ∧
    (∀ (m j ad n a : Nat) (ue : UeList), s.pck.state = .formed → s.peerRange j ad n = some a →
      s.cadDenied s.packClass a n false = none → s.badGranule ue (granules a n) = none →
      ∃ t, exec (.peerGetArrive m j ad n ue) s = .next t ∧
        (leavesNow s m true = true → t.out = s.out ++ [.peerData m (s.peek a n) true]) ∧ Keeps [.out, .pck] s t) ∧
    (∀ (ch tag : Nat) (k : Cmd) (ue : UeList), s.cmd? ch tag = some k → k.waitPeer = true → k.desc.record = false →
      (k.desc.op = 6 → k.peerTally = none →
        ∃ t, exec (.peerReportReceive ch tag true ⟨[], ue⟩) s = .next t ∧
          (k.issuer.isUnit = true ∨ k.succeeded = true → t.tally k.tally = s.tally k.tally + 1) ∧
          (t.chan ch).started = (s.chan ch).started.filter (fun y => y.tag != tag)) ∧
      (∀ (d : List Byte) (ws : List (Dest × List Byte)), k.desc.op = 7 → d.length = k.desc.len.toNat →
        ws = s.getWrites k.issuer k.desc [] d → s.badMerge ue ws = none →
        ∃ t, exec (.peerReportReceive ch tag true ⟨d, ue⟩) s = .next t ∧
          t.mem = ((ws.filter fun w => Config.landed s.freeCount (granuleIndex ws w)).foldl (fun z w => z.putDest w) s).mem ∧
          (t.cmd? ch tag).map (fun y => (y.todo, y.waitPeer, y.fate)) =
            some (ws.filter fun w => !Config.landed s.freeCount (granuleIndex ws w), false, none) ∧
          Keeps [.rtv, .mem, .out, .freeCount] s t) ∧
      (∀ d : List Byte, k.desc.op = 7 → d.length < k.desc.len.toNat →
        ∃ t, exec (.peerReportReceive ch tag true ⟨d, ue⟩) s = .next t ∧
          (t.cmd? ch tag).map (fun y => (y.waitPeer, y.fate)) = some (false, some (5, ⟨.mem, 2⟩, d.length))) ∧
      (∀ (i : Instr) (f : Nat), (i = .peerReportReceive ch tag false ⟨[], ue⟩ ∨ i = .peerReportTimeout ch tag) →
        k.issuer = .driver f →
        ∃ t, exec i s = .next t ∧ (t.chan ch).halted = true ∧ (t.chan ch).lastErr = 6 ∧
          t.mem.tallies = s.mem.tallies ∧ (t.chan ch).started = (s.chan ch).started.filter (fun y => y.tag != tag) ∧
          Keeps ([.rtv, .freeCount] ++ reportParts) s t))

/-- R360, R382, R390: an entropy command leaves its unit's queue at its start; one that is malformed loses its frame; one
that starts is among the engine's commands until it completes, an ORDERED one behind the earlier ones of its unit, when
its tally is incremented and the engine counts it. -/
def EntropyCommandsStartAndComplete : Prop :=
  ∀ (s : State) (e c u : Nat) (ue : UeList) (i : Instr) (dec : Bool),
    ((dec = false ∧ i = .encode e c u ue) ∨ (dec = true ∧ i = .decode e c u ue)) →
    (s.ecHead e c u = none → exec i s = .next s) ∧
    (∀ x : EcStart, s.ecHead e c u = some x → x.decodes = dec → x.formOk = false →
      ∃ t, exec i s = .next t ∧ (∀ h ∈ (t.ctx c).held, h.no ≠ x.frame)) ∧
    (∀ (x : EcStart) (s' : State), s.ecHead e c u = some x → x.decodes = dec →
      s' = s.modUnit c u (fun y => { y with queue := y.queue.drop 1 }) → x.formOk = true →
      (x.decodes = true ∨ 8 + 2 * x.symbols ≤ x.cap) →
      (∀ r ∈ [x.values, x.params, x.slot, x.record, s'.ecTables x], ∃ p, s'.ecPlace x r = some p ∧
        s'.rangeDenied x.issuer r.space p r.len r.write = none) →
      (readTableSet (s'.ecRead x (s'.ecTables x)).1).isSome = true → ue = [] → s.mem.poison = [] →
      ∃ t k, exec i s = .next t ∧ (t.ecEngine e).started = (s.ecEngine e).started ++ [k] ∧ k.ctx = c ∧ k.unit = u ∧
        k.frame = x.frame ∧ k.symbols = x.symbols ∧ Keeps [.mem, .ec, .hrd, .out, .freeCount] s t) ∧
    (∀ k : EcCmd, s.alive = true → (s.ecEngine e).started.find? (fun y => y.serial == k.serial) = some k →
      ((k.ordered && (s.ecEngine e).earlier k) = true → exec (.ecCommandComplete e k.serial) s = .next s) ∧
      ((k.ordered && (s.ecEngine e).earlier k) = false → k.flags = 0 →
        ∃ t, exec (.ecCommandComplete e k.serial) s = .next t ∧ t.tally k.tally = s.tally k.tally + 1 ∧
          (t.ecEngine e).started = (s.ecEngine e).started.filter (fun y => y.serial != k.serial) ∧
          (t.ecEngine e).tiles = (s.ecEngine e).tiles + 1 ∧
          (t.ecEngine e).symbols = (s.ecEngine e).symbols + BitVec.ofNat 64 k.symbols ∧
          Keeps [.mem, .hrd, .ec, .out] s t))

/-- R281, R390, R443: the fatal error of a channel, an entropy engine or a dictionary engine disables it, is recorded with
its unit, and restarts or loses the frames of its units; a channel's started driver commands fail. A disabled one raises
no second error. -/
def EngineFatalErrorsDisable : Prop :=
  ∀ (s : State) (e : Nat), s.alive = true →
    (e < 64 → (s.chan e).disabled = false →
      ∃ t, exec (.channelFatalError e) s = .next t ∧ (t.chan e).disabled = true ∧
        (s.boundTo 3 e = [] → (s.chan e).started = [] → Records s t ⟨.rtv, 13⟩ .unitFatal (.channel e) [] ∧
          (t.chan e).lastErr = 13 ∧ Keeps ([.rtv] ++ reportParts) s t)) ∧
    (e < 16 → (s.ecEngine e).disabled = false →
      ∃ t, exec (.ecEngineFatal e) s = .next t ∧ (t.ecEngine e).disabled = true ∧ (t.ecEngine e).sets = [] ∧
        (s.boundTo 1 e = [] → Records s t ⟨.ec, 9⟩ .unitFatal (.entropy e) [] ∧ Keeps ([.ec] ++ reportParts) s t)) ∧
    (e < 8 → (s.dceEngine e).disabled = false →
      ∃ t, exec (.dceEngineFatal e) s = .next t ∧ (t.dceEngine e).disabled = true ∧
        t.dce.engineFatal = satInc s.dce.engineFatal ∧
        (s.boundTo 2 e = [] → s.engineCmds e = [] → Records s t ⟨.dce, 2⟩ .unitFatal (.dict e) [] ∧
          Keeps ([.dce] ++ reportParts) s t)) ∧
    ((s.chan e).disabled = true → exec (.channelFatalError e) s = .next s) ∧
    ((s.ecEngine e).disabled = true → exec (.ecEngineFatal e) s = .next s) ∧
    ((s.dceEngine e).disabled = true → exec (.dceEngineFatal e) s = .next s)

/-- R281, R360, R382, R390, R443: entropy commands start and complete, and engines that fail are disabled. -/
def Obligations.EntropyCommandsRunAndEnginesFail : Prop := EntropyCommandsStartAndComplete ∧ EngineFatalErrorsDisable

/-- R231, R245, R252, R253, R256: an invalidation that the physical function asks for drops every line of every read cache
when it is done, and no byte of memory; scrub changes nothing; a corrected error is counted and recorded; a parity error
in a stream read cache drops its line; a stack's failure is module-fatal. -/
def Obligations.MemoryInvalidatesScrubsReports : Prop :=
  ∀ (s : State),
    (∀ fn, s.hostReach fn = true → fn = 0 →
      ∃ t, exec (.memInvalRequest fn) s = .next t ∧ t.mem = { s.mem with invalBusy := true } ∧ Keeps [.mem] s t) ∧
    (∀ fn, fn ≠ 0 → exec (.memInvalRequest fn) s = .next s) ∧
    (s.alive = true → s.mem.invalBusy = true →
      ∃ t, exec .memInvalDone s = .next t ∧ t.mem.invalBusy = false ∧ t.mem.bytes = s.mem.bytes ∧ t.mem.tile = s.mem.tile ∧
        (∀ q, (Tab.getD t.mem.src q {}).lines = []) ∧ (∀ k, (t.core k).cache.lines = []) ∧ Keeps [.mem, .hrd, .ec] s t) ∧
    (∀ a, exec (.patrolScrub a) s = .next s) ∧
    (∀ q, s.alive = true → q < 4 →
      (∃ t, exec (.memCorrectedError q .stack) s = .next t ∧
        Tab.getD t.mem.ceStack q 0 = satInc (Tab.getD s.mem.ceStack q 0) ∧ t.mem.ceDatum = s.mem.ceDatum ∧
        Records s t ⟨.mem, 1⟩ .corrected (.stack q) [] ∧ Keeps ([.mem] ++ reportParts) s t) ∧
      (∃ t, exec (.memCorrectedError q .datum) s = .next t ∧
        Tab.getD t.mem.ceDatum q 0 = satInc (Tab.getD s.mem.ceDatum q 0) ∧ t.mem.ceStack = s.mem.ceStack ∧
        Records s t ⟨.mem, 1⟩ .corrected .none [] ∧ Keeps ([.mem] ++ reportParts) s t) ∧
      (∀ a, Tab.find? (Tab.getD s.mem.src q {}).lines (granule a) = none →
        exec (.memCorrectedError q (.streamLine a)) s = .next s) ∧
      (∀ a, (Tab.find? (Tab.getD s.mem.src q {}).lines (granule a)).isSome = true →
        ∃ t, exec (.memCorrectedError q (.streamLine a)) s = .next t ∧
          Tab.find? (Tab.getD t.mem.src q {}).lines (granule a) = none ∧
          (ringsAtHost s = true → t.mem.bytes = s.mem.bytes) ∧ t.mem.tile = s.mem.tile ∧
          Records s t ⟨.mem, 6⟩ .corrected .none [] ∧ Keeps ([.mem, .ec] ++ reportParts) s t)) ∧
    (∀ q at_, s.alive = true → q < 4 → (s.sup.mstate = .boot ∨ s.sup.mstate = .ready ∨ s.sup.mstate = .run) →
      ∃ t, exec (.memFatalError q 0 at_) s = .next t ∧ t.sup.mstate = .hold ∧ t.sup.holdCause = 0x12 ∧
        t.mem = {} ∧ t.pending = s.pending)

/-! ### Gate ports and ingest (chapter 13) -/

/-- R447, R448, R451, R478, R496: a frame that is too short, too long, wrong in its check sequence or not for this port is
counted and dropped; a MAC control frame is discarded; one for no stream goes to the exception ring, or is dropped with E-ING-08 where that is full; port
enable, link changes and the ring's consumer index act on their fields alone. -/
def Obligations.GatePortsFilterFrames : Prop :=
  ∀ (s : State) (p : Nat), p < 2 →
    (∀ (b f : List Byte), s.alive = true → (s.port p).en = true → (s.port p).link = true → f = b.take (b.length - 4) →
      ((b.length < 64 ∨ 9216 < b.length ∨ b.drop (b.length - 4) ≠ ethFcs f ∨
          macControl f = false ∧ acceptFrame (s.port p).mac.toNat (s.port p).vlanEn (s.port p).vid.toNat f = none) →
        ∃ t, exec (.gateFrameReceive p b) s = .next t ∧
          t.port p = { s.port p with filtered := (s.port p).filtered + 1 } ∧ Keeps [.ing] s t) ∧
      (64 ≤ b.length → b.length ≤ 9216 → b.drop (b.length - 4) = ethFcs f → macControl f = true →
        exec (.gateFrameReceive p b) s = .next s) ∧
      (∀ (ty : Nat) (d : List Byte) (why : Nat), 64 ≤ b.length → b.length ≤ 9216 → b.drop (b.length - 4) = ethFcs f →
        macControl f = false →
        acceptFrame (s.port p).mac.toNat (s.port p).vlanEn (s.port p).vid.toNat f = some (ty, d) → offer ty d = .exception why →
        ((s.ing.excHead.toNat + 1) % s.excSize ≠ s.ing.excTail.toNat →
          ∃ t, exec (.gateFrameReceive p b) s = .next t ∧
            t.ing = { s.ing with excHead := BitVec.ofNat 16 ((s.ing.excHead.toNat + 1) % s.excSize) } ∧
            Keeps [.ing, .out, .freeCount] s t) ∧
        ((s.ing.excHead.toNat + 1) % s.excSize = s.ing.excTail.toNat →
          ∃ t, exec (.gateFrameReceive p b) s = .next t ∧ (t.port p).excDrops = (s.port p).excDrops + 1 ∧
            Records s t ⟨.ing, 8⟩ .reportOnly (.gate p) [] ∧ Keeps ([.ing] ++ reportParts) s t))) ∧
    (∀ v : Word, s.hostReach 0 = true → (s.port p).en = false →
      ∃ t, exec (.portEnable 0 p v) s = .next t ∧ (t.port p).en = true ∧ (t.port p).vlanEn = v.getLsbD 1 ∧
        Keeps [.ing] s t) ∧
    (∀ v : Word, s.hostReach 0 = true → (s.port p).en = true →
      ∃ t, exec (.portEnable 0 p v) s = .next t ∧ t.port p = { s.port p with fieldLocked := true } ∧
        Records s t ⟨.ing, 3⟩ .reportOnly .none [0x1000000 + 0x40 * p, v.toNat] ∧ Keeps ([.ing] ++ reportParts) s t) ∧
    (s.alive = true → (s.port p).en = true →
      ∃ t, exec (.gateLinkUp p) s = .next t ∧ t.port p = { s.port p with link := true } ∧ Keeps [.ing] s t) ∧
    (s.alive = true → (s.port p).link = true →
      ∃ t, exec (.gateLinkDown p) s = .next t ∧ t.port p = { s.port p with link := false } ∧
        Records s t ⟨.ing, 7⟩ .reportOnly (.gate p) [] ∧ Keeps ([.ing] ++ reportParts) s t) ∧
    (∀ v : Word, s.hostReach 0 = true →
      (consumerOk s.excSize s.ing.excTail.toNat (v.toNat % 65536) s.ing.excHead.toNat = true →
        ∃ t, exec (.excTailWrite 0 v) s = .next t ∧ t.ing = { s.ing with excTail := BitVec.ofNat 16 (v.toNat % 65536) } ∧
          Keeps [.ing] s t) ∧
      (consumerOk s.excSize s.ing.excTail.toNat (v.toNat % 65536) s.ing.excHead.toNat = false →
        ∃ t, exec (.excTailWrite 0 v) s = .next t ∧ Records s t ⟨.hst, 1⟩ .reportOnly .none [] ∧ Keeps reportParts s t))

/-- R450, R452 to R455, R467: a packet that matches a stream joins the open access unit of its timestamp, one seen before is
counted as a duplicate; the oldest open unit closes at its time-out and a closed one leaves, with its number, for its
decoder, which takes the next stream that waits. -/
def PacketsFormAccessUnits : Prop :=
  ∀ (s : State) (n : Nat) (x : Stream), s.stream n = x → s.alive = true →
    (∀ (p : Nat) (b f d : List Byte) (ty h : Nat) (e : List Byte) (v6 : Bool) (dst udp : Nat) (rest : List Nat) (r : Rtp),
      p < 2 → (s.port p).en = true → (s.port p).link = true → f = b.take (b.length - 4) → 64 ≤ b.length → b.length ≤ 9216 →
      b.drop (b.length - 4) = ethFcs f →
      acceptFrame (s.port p).mac.toNat (s.port p).vlanEn (s.port p).vid.toNat f = some (ty, e) →
      offer ty e = .udp v6 dst udp d → Tab.keysWhere (fun _ y => y.accepts p v6 dst udp d) s.ing.streams = n :: rest →
      readRtp d = some r → x.isAudio = false → x.ssrcEn = true → x.highest = some h → h < 65536 →
      (r.seq = h →
        ∃ t, exec (.gateFrameReceive p b) s = .next t ∧ (t.stream n).dup = satInc x.dup ∧ (t.stream n).opens = x.opens ∧
          (t.stream n).closed = x.closed ∧ Keeps [.ing] s t) ∧
      (r.seq = (h + 1) % 65536 → x.hasAu r.ts = true → r.marker = false →
        x.heldBytes + r.payload.length ≤ x.jitMib.toNat * 2 ^ 20 →
        s.cadDenied 0x20 x.jitterArea.1 x.jitterArea.2 true = none →
        ∃ t, exec (.gateFrameReceive p b) s = .next t ∧ (t.stream n).highest = some r.seq ∧
          (t.stream n).opens = x.opens.map (fun u => if u.key = (x.era, r.ts) then u.add ⟨r.seq, r.payload⟩ else u) ∧
          (t.stream n).dup = x.dup ∧ Keeps [.ing, .freeCount] s t)) ∧
    (∀ (u : AccessUnit) (rest : List AccessUnit), x.opens = u :: rest →
      ∃ t, exec (.auCloseTimeout n) s = .next t ∧ (t.stream n).opens = x.opens.filter (fun y => y.key != u.key) ∧
        (t.stream n).closed = insertAu { u with closedAt := s.epoch } x.closed ∧ (∀ k, k ≠ n → t.stream k = s.stream k) ∧
        Keeps [.ing] s t) ∧
    (∀ (u : AccessUnit) (rest : List AccessUnit), x.closed = u :: rest → x.opens.any (fun y => u.isLater y) = false →
      x.isAudio = false →
      ∃ t v, exec (.auRelease n) s = .next t ∧ (t.stream n).closed = rest ∧ (t.stream n).ready = x.ready ++ [v] ∧
        v.no = (x.number u).1.no ∧ v.ts = u.ts ∧ (t.stream n).nextNo = v.no + 1 ∧ (t.stream n).released = some u.key ∧ (t.decoder x.decUsed.toNat).queue = (s.decoder x.decUsed.toNat).queue ++ [n] ∧
        Keeps [.ing] s t) ∧
    (∀ (k : Nat) (u : AccessUnit) (rest more) (ue : UeList), (s.decoder k).queue = n :: rest →
      (s.decoder k).disabled = false → (s.decoder k).busy = none → x.ready = u :: more → s.badReference x ue = none →
      ∃ t, exec (.pictureDecodeStart ⟨k, ue⟩) s = .next t ∧ t.decoder k = { s.decoder k with queue := rest, busy := some (n, u) } ∧
        t.stream n = { x with ready := more } ∧ Keeps [.ing] s t)

/-- R459 to R463: a decoded picture within the stream's geometry is written to the input slot of its frame number with its
record and handed to the Herder; an access unit that does not decode is one lost frame with E-ING-05, in its turn behind
the frames still on their way. -/
def PicturesReachTheirFrames : Prop :=
  ∀ (s : State) (k n : Nat) (u : AccessUnit) (x : Stream), s.alive = true → s.stream n = x →
    (s.decoder k).busy = some (n, u) → u.unreadable = false → u.lostBefore = 0 → s.feeds n = true →
    (activeParams x.codec.toNat x.history u.nals = none →
      ∃ t, exec (.pictureWritten k) s = .next t ∧ (t.decoder k).busy = none ∧ (t.stream n).code = 5 ∧
        ((s.ctx x.ctx.toNat).arriving = [] →
          t.hrd.lostCount = satInc s.hrd.lostCount ∧ (t.ctx x.ctx.toNat).arriving = []) ∧
        ((s.ctx x.ctx.toNat).arriving ≠ [] → ∃ g, (t.ctx x.ctx.toNat).arriving = (s.ctx x.ctx.toNat).arriving ++ [g] ∧
          g.frame.no = u.no ∧ g.lost = some (Err.lossCode ⟨.ing, 5⟩))) ∧
    (∀ (q : SeqParams) (d : Config.Decoded) (base : Nat), activeParams x.codec.toNat x.history u.nals = some q →
      x.fits q = true → q.refs ≤ x.refSlots.toNat → 1 ≤ x.refSlots.toNat →
      u.nals.any (isRandomAccess x.codec.toNat) = true → Config.decodeVideo x.codec.toNat x.history u.nals = some d →
      (s.ctx x.ctx.toNat).slotHeld u.no = false → base = (s.ctx x.ctx.toNat).base + x.inputOff.toNat * 4096 →
      (∀ a m, a + m ≤ devTop → s.cadDenied 0x20 a m true = none) → s.mem.poison = [] → base + 8 * x.slotSize + 512 ≤ devTop →
      x.refArea.1 + x.refArea.2 ≤ devTop →
      (∀ r ∈ x.rowsOf (pictureOf q true d x.lastPic), r.1 + r.2.length ≤ x.slotSize) →
      ∃ t g, exec (.pictureWritten k) s = .next t ∧ (t.decoder k).busy = none ∧
        (t.ctx x.ctx.toNat).arriving = (s.ctx x.ctx.toNat).arriving ++ [{ frame := g, lost := none }] ∧ g.no = u.no ∧
        g.arrival = u.closedAt ∧ g.input = x.inputOff.toNat * 4096 + u.no % 8 * x.slotSize ∧
        (∀ a, (a < base + u.no % 8 * x.slotSize ∨ base + (u.no % 8 + 1) * x.slotSize ≤ a) →
          (a < base + 8 * x.slotSize + 64 * (u.no % 8) ∨ base + 8 * x.slotSize + 64 * (u.no % 8) + 64 ≤ a) →
          (d.kept = false ∨ a < x.refArea.1 ∨ x.refArea.1 + x.refArea.2 ≤ a) →
          readByte t.mem.bytes a = readByte s.mem.bytes a) ∧ Keeps [.ing, .hrd, .mem, .ec, .freeCount] s t)

/-- R450 to R463: packets form access units, and their decoded pictures reach the frames. -/
def Obligations.AccessUnitsBecomeFrames : Prop := PacketsFormAccessUnits ∧ PicturesReachTheirFrames

/-- R450, R466, R469, R470, R476, R477, R496: enabling a stream that passes its checks starts it anew on its decoder, and one
that fails leaves it disabled with the code; disabling it discards what it holds; a decoder's fatal error disables it; a
host feed's doorbell queues descriptors, and each is taken in turn, a bad one with E-ING-12. -/
def Obligations.StreamsAndHostFeeds : Prop :=
  ∀ (s : State) (fn n : Nat) (v : Word), (s.fn fn).strmSel.toNat = n →
    (s.mayControl fn n v.toNat = true → (s.stream n).enable = false →
      (∀ y : Stream, y = (s.stream n).withCtrl v.toNat → s.enableRefusal fn n y = none →
        ∃ t d, exec (.streamEnable fn v) s = .next t ∧ s.assignDecoder y = some d ∧ t.stream n = y.fresh fn d ∧
          (t.stream n).enable = true ∧ Keeps [.ing] s t) ∧
      (∀ (y : Stream) (nn : Nat), y = (s.stream n).withCtrl v.toNat → s.enableRefusal fn n y = some nn →
        ∃ t, exec (.streamEnable fn v) s = .next t ∧ (t.stream n).enable = false ∧
          (t.stream n).code = BitVec.ofNat 8 nn ∧ Records s t ⟨.ing, nn⟩ .reportOnly (.stream n) [] ∧
          Keeps ([.ing] ++ reportParts) s t)) ∧
    (s.mayControl fn n v.toNat = true → (s.stream n).enable = true →
      ∃ t, exec (.streamDisable fn v) s = .next t ∧ (t.stream n).enable = false ∧ (t.stream n).opens = [] ∧
        (t.stream n).closed = [] ∧ (t.stream n).ready = [] ∧ (∀ k, k ≠ n → t.stream k = s.stream k) ∧
        Keeps ([.ing] ++ reportParts) s t) ∧
    (∀ k, s.alive = true → k < 4 → (s.decoder k).disabled = false →
      ∃ t, exec (.decoderFatalError k) s = .next t ∧ (t.decoder k).disabled = true ∧
        ((s.decoder k).busy = none → (s.ing.streams.all fun y => !y.2.enable) = true →
          Records s t ⟨.ing, 11⟩ .unitFatal (.decoder k) [] ∧ Keeps ([.ing] ++ reportParts) s t)) ∧
    (s.hostReach fn = true → ∀ h : HostFeed, h = (s.fn fn).feed →
      (producerOk h.size h.tail.toNat (v.toNat % 65536) h.head.toNat = true →
        ∃ t, exec (.hostFeedDoorbell fn v) s = .next t ∧ (t.fn fn).feed.tail = BitVec.ofNat 16 (v.toNat % 65536) ∧
          (t.fn fn).feed.head = h.head ∧ Keeps [.fns] s t) ∧
      (producerOk h.size h.tail.toNat (v.toNat % 65536) h.head.toNat = false →
        ∃ t, exec (.hostFeedDoorbell fn v) s = .next t ∧ (t.fn fn).feed = h ∧
          Records s t ⟨.hst, 1⟩ .reportOnly .none [] ∧ Keeps reportParts s t)) ∧
    (s.alive = true → s.fnExists fn = true → ∀ (h : HostFeed) (b p : List Byte), h = (s.fn fn).feed → h.disabled = false →
      h.head ≠ h.tail → h.host = true → s.hst.linkUp = true → b.length = 32 →
      (s.feedOk fn b = false →
        ∃ t, exec (.hostFeedDescriptor fn b p true true) s = .next t ∧
          (t.fn fn).feed.head = BitVec.ofNat 16 ((h.head.toNat + 1) % h.size) ∧ t.ing = s.ing ∧
          Records s t ⟨.ing, 12⟩ .reportOnly (.stream (leAt b 0 2)) [] ∧ Keeps ([.freeCount] ++ reportParts) s t) ∧
      (s.feedOk fn b = true → (leAt b 2 1).testBit 0 = true → (s.stream (leAt b 0 2)).isAudio = false →
        (s.stream (leAt b 0 2)).isNew (leAt b 0x10 4) = true → (s.stream (leAt b 0 2)).hasAu (leAt b 0x10 4) = false →
        ∃ t, exec (.hostFeedDescriptor fn b p true true) s = .next t ∧
          (t.fn fn).feed.head = BitVec.ofNat 16 ((h.head.toNat + 1) % h.size) ∧
          (t.stream (leAt b 0 2)).closed.length = (s.stream (leAt b 0 2)).closed.length + 1 ∧
          Keeps [.ing, .fns, .freeCount] s t))

/-! ### Packs, Traverse links and the Whistle (chapter 15) -/

/-- The messages that go down every tree link. -/
def downTree (s : State) (m : LinkMsg) : List Out := s.pck.childPorts.map fun q => .link q m

/-- The control channel of every tree link to a child is clear: a message down the tree leaves at once (R513). -/
def treeClear (s : State) : Prop := ∀ q ∈ s.pck.childPorts, (s.link q).clear controlChannel = true

/-- R518: the parent of every member but the master is found from the highest dimension in which its coordinate is not 0:
one coordinate less through port 2d where the coordinate is at most half the dimension, one more (modulo the dimension)
through port 2d + 1 otherwise, the other coordinates alike; the depth is the sum of the shorter ways to 0, at most 20 in a
Pack of at most 2,048 members. The parent is a member, one link nearer to the master, and sees the member as its child on
the other end of that link. -/
def Obligations.EveryMemberHasAParent : Prop :=
  ∀ (p : Pck) (m : Nat), m < p.size → m ≠ 0 →
    (∃ d port n, d < 4 ∧ p.coord m d ≠ 0 ∧ (∀ e, d < e → e < 4 → p.coord m e = 0) ∧
      p.parentPort m = some port ∧ p.neighbour m port = some n ∧ n < p.size ∧
      (2 * p.coord m d ≤ p.dim d → port = 2 * d ∧ p.coord n d = p.coord m d - 1) ∧
      (p.dim d < 2 * p.coord m d → port = 2 * d + 1 ∧ p.coord n d = (p.coord m d + 1) % p.dim d) ∧
      (∀ e, e < 4 → e ≠ d → p.coord n e = p.coord m e) ∧ p.depthOf n + 1 = p.depthOf m ∧
      p.isChild n (oppositePort port) = true) ∧
    p.depthOf m = min (p.coord m 0) (p.dim 0 - p.coord m 0) + min (p.coord m 1) (p.dim 1 - p.coord m 1) +
      min (p.coord m 2) (p.dim 2 - p.coord m 2) + min (p.coord m 3) (p.dim 3 - p.coord m 3) ∧
    (p.size ≤ 2048 → p.depthOf m ≤ 20)

/-- R510, R529, R530, R532, R549: FORM that passes its checks begins to form with every cabled port enabled, and one that
fails leaves the Pack IDLE with E-PCK-01; LEAVE ends it; a port comes up with a supported optical module alone; a greeting
that is not the one the Pack requires, or the formation's time-out, makes the Pack FAILED. -/
def Obligations.FormationBeginsGreetsEnds : Prop :=
  ∀ (s : State),
    (s.hostReach 0 = true → s.pck.busy = false →
      (∀ r : List DWord × DWord, s.formCheck = some r →
        ∃ t, exec (.packForm 0) s = .next t ∧ t.pck.state = .forming ∧ t.pck.admitIds = r.1 ∧ t.pck.admitHash = r.2 ∧
          t.pck.lead = 0 ∧ (∀ q, q < 8 → (t.link q).en = ((s.link q).en || (s.pck.neighbour s.pck.me q).isSome)) ∧
          Keeps [.pck, .out] s t) ∧
      (s.formCheck = none →
        ∃ t, exec (.packForm 0) s = .next t ∧ t.pck.state = .idle ∧ t.pck.failCode = 1 ∧ t.pck.code = 1 ∧
          t.pck.ports = s.pck.ports ∧ Records s t ⟨.pck, 1⟩ .reportOnly .none [] ∧ Keeps ([.pck] ++ reportParts) s t)) ∧
    (s.hostReach 0 = true →
      ∃ t, exec (.packLeave 0) s = .next t ∧ t.pck.state = .idle ∧ t.pck.lead = 0 ∧
        (∀ q, q < 8 → (t.link q).en = false ∧ (t.link q).link = false) ∧ Keeps ([.pck] ++ reportParts) s t) ∧
    (∀ q, s.alive = true → q < 8 → (s.link q).en = true → (s.link q).link = false →
      (∃ t, exec (.traverseLinkUp q true) s = .next t ∧ (t.link q).link = true ∧ (t.link q).moduleOk = true ∧
        (∀ k, k ≠ q → t.link k = s.link k) ∧ Keeps [.pck, .out] s t) ∧
      (∃ t, exec (.traverseLinkUp q false) s = .next t ∧ (t.link q).link = false ∧ t.pck.code = 11 ∧
        Records s t ⟨.pck, 11⟩ .reportOnly (.traverse q) [] ∧ Keeps ([.pck] ++ reportParts) s t)) ∧
    (∀ (q m : Nat) (id pid : DWord) (asym : Word) (rtt : Nat), s.alive = true → s.pck.state = .forming →
      (s.link q).link = true → s.pck.cabledPorts.contains q = true →
      (s.pck.neighbour s.pck.me q = some m ∧ pid = s.pck.packId ∧ s.pck.admitIds[m]? = some id ∧
          asym = -(s.link q).asym ∧ rtt ≤ 22000 →
        ∃ t, exec (.linkGreetingReceive q id pid m asym rtt) s = .next t ∧
          t.link q = { s.link q with greeted := true } ∧ t.pck.state = .forming ∧ Keeps [.pck] s t) ∧
      (22000 < rtt ∨ asym ≠ -(s.link q).asym ∨ s.pck.neighbour s.pck.me q ≠ some m →
        ∃ t, exec (.linkGreetingReceive q id pid m asym rtt) s = .next t ∧ t.pck.state = .failed ∧ t.pck.failCode = 2 ∧
          Records s t ⟨.pck, 2⟩ .reportOnly .none [] ∧ Keeps ([.pck] ++ reportParts) s t)) ∧
    (s.alive = true → s.pck.state = .forming →
      ∃ t, exec .formTimeoutExpiry s = .next t ∧ t.pck.state = .failed ∧ t.pck.failCode = 4 ∧ t.pck.lead = 0 ∧
        Records s t ⟨.pck, 4⟩ .reportOnly .none [] ∧ Keeps ([.pck] ++ reportParts) s t)

/-- R524, R525, R532, R533: a child's report is kept until every child has reported; the master, where no member differs,
forms the Pack with the lead of the largest tree delay plus 2,000 ns rounded up and says so down the tree; FORMED and
REFUSED pass on down; a round's probes are answered and its exchanges summed. -/
def Obligations.FormationReportsAndRounds : Prop :=
  ∀ (s : State) (q : Nat), s.alive = true →
    (∀ (print : List Byte) (delay : Nat) (df : Option Nat) (s' : State), s.pck.state = .forming →
      s.pck.childPorts.contains q = true →
      s' = s.modLink q (fun x => { x with report := some { print := print, delay := delay, differs := df } }) →
      (s.pck.ready = false → exec (.fingerprintReceive q print delay df) s = .next s') ∧
      (s.pck.isMaster = true → s.pck.ready = true → s.pck.reported = false → s'.roundsMade = true →
        (s.pck.childPorts.all fun c => (s'.link c).report.isSome) = true → s'.combineReports.2 = none →
        ∃ t lead, exec (.fingerprintReceive q print delay df) s = .next t ∧
          lead = (s'.combineReports.1 + 2 ^ 17 - 1) / 2 ^ 17 + 2000 ∧ t.pck.state = .formed ∧
          t.pck.lead = BitVec.ofNat 24 lead ∧ (treeClear s → t.out = s.out ++ downTree s (.formed lead s.epoch)) ∧
          Keeps [.pck, .out] s t)) ∧
    (∀ (lead : Nat) (e : DWord), s.pck.state = .forming → s.pck.parentPort s.pck.me = some q →
      ∃ t, exec (.formedReceive q lead e) s = .next t ∧ t.pck.state = .formed ∧ t.pck.lead = BitVec.ofNat 24 lead ∧
        (treeClear s → t.out = s.out ++ downTree s (.formed lead e)) ∧ Keeps [.pck, .out] s t) ∧
    (∀ m, s.pck.state = .forming → s.pck.parentPort s.pck.me = some q →
      ∃ t, exec (.refusedReceive q m) s = .next t ∧ t.pck.state = .failed ∧ t.pck.failCode = 3 ∧
        t.pck.failMember = BitVec.ofNat 11 m ∧ Records s t ⟨.pck, 3⟩ .reportOnly .none [] ∧
        Keeps ([.pck] ++ reportParts) s t) ∧
    (s.pck.busy = true → s.parentEnd q = true → s.pck.ready = true → (s.link q).round = none →
      ∃ t, exec (.calibrationRoundStart q) s = .next t ∧
        (t.link q).round = some (Round.start (s.pck.state == .forming)) ∧ Keeps [.pck] s t) ∧
    (∀ r : Round, (s.link q).round = some r → s.parentEnd q = true → r.sent < 64 →
      ∃ t, exec (.probeSend q) s = .next t ∧ (t.link q).round.map (fun y => y.sent) = some (r.sent + 1) ∧
        ((s.link q).clear controlChannel = true → t.out = s.out ++ [.link q (.probe r.sent)]) ∧ Keeps [.pck, .out] s t) ∧
    (∀ n d, s.pck.busy = true → s.pck.childEnd q = true → (s.link q).link = true → n < 64 →
      ∃ t, exec (.probeReceive q n d) s = .next t ∧
        (t.link q).round.bind (fun y => Tab.find? y.t23 n) = some (s.stamp, (s.stamp + d) % 2 ^ 64) ∧
        ((s.link q).clear controlChannel = true → t.out = s.out ++ [.link q (.probeReply n)]) ∧ Keeps [.pck, .out] s t) ∧
    (∀ (r : Round) (n t1 : Nat), (s.link q).round = some r → Tab.find? r.t1 n = some t1 → s.parentEnd q = true →
      ∃ t, exec (.probeReplyReceive q n) s = .next t ∧ ((t.link q).round = none ↔ r.done + 1 = 64) ∧
        ((s.link q).clear controlChannel = true → t.out = s.out ++ [.link q (.probeTimes n t1 s.stamp)]) ∧
        Keeps [.pck, .out] s t) ∧
    (∀ (r : Round) (n t1 t2 t3 t4 : Nat), (s.link q).round = some r → Tab.find? r.t23 n = some (t2, t3) →
      s.pck.busy = true → s.pck.childEnd q = true → t1 < 2 ^ 64 → t4 < 2 ^ 64 →
      (r.done + 1 ≠ 64 →
        ∃ t y, exec (.probeTimestampsReceive q n t1 t4) s = .next t ∧ (t.link q).round = some y ∧ y.done = r.done + 1 ∧
          y.sumOff = r.sumOff + (exchange t1 t2 t3 t4 (s.parentAsym q)).1 ∧
          y.sumRtt = r.sumRtt + (exchange t1 t2 t3 t4 (s.parentAsym q)).2 ∧ Keeps [.pck] s t) ∧
      (r.done + 1 = 64 → r.formation = false →
        ((r.sumOff + (exchange t1 t2 t3 t4 (s.parentAsym q)).1) / 64).natAbs ≤ 32768 →
        s.pck.parentPort s.pck.me = some q →
        ∃ t, exec (.probeTimestampsReceive q n t1 t4) s = .next t ∧ (t.link q).round = none ∧
          (t.link q).rtt = BitVec.ofInt 64 ((r.sumRtt + (exchange t1 t2 t3 t4 (s.parentAsym q)).2) / 64) ∧
          t.pck.epoch.slew = -((r.sumOff + (exchange t1 t2 t3 t4 (s.parentAsym q)).1) / 64) ∧
          Keeps [.pck, .freeCount] s t))

/-- R520, R521, R523, R528: a member's clock locks to its parent's link and a loss is a skew fault; an announced rate passes on
and takes effect at its epoch time; a load sets the clock to EPOCH_SET, at the next edge of a locked external source, and is
refused with E-PCK-15 in a Pack; a silent external source is HOLDOVER with E-PCK-12. -/
def Obligations.EpochClockFollowsItsSource : Prop :=
  ∀ (s : State) (q : Nat),
    (s.alive = true → s.pck.followsParent = true → s.pck.parentPort s.pck.me = some q → (s.link q).greeted = true →
      ∃ t, exec .syntonisationLock s = .next t ∧ t.pck.epoch.syntLock = true ∧ t.pck.epoch.ratePpb = 0 ∧ Keeps [.pck] s t) ∧
    (s.alive = true → s.pck.followsParent = true → s.pck.epoch.syntLock = true →
      ∃ t, exec .syntonisationLoss s = .next t ∧ t.pck.epoch.syntLock = false ∧ t.pck.skewFault = true ∧ Keeps [.pck] s t) ∧
    (∀ (ppb : Int) (e : DWord), s.alive = true → s.pck.followsParent = true → s.pck.parentPort s.pck.me = some q →
      ∃ t, exec (.rateAnnounceReceive q ppb e) s = .next t ∧ t.pck.epoch.pendingRate = some (ppb, e) ∧
        (treeClear s → t.out = s.out ++ downTree s (.rate ppb e)) ∧ Keeps [.pck, .out] s t) ∧
    (∀ (ppb : Int) (e : DWord), s.alive = true → s.pck.epoch.pendingRate = some (ppb, e) →
      (e.toNat ≤ s.epoch.toNat →
        ∃ t, exec .rateChangeApply s = .next t ∧ t.pck.epoch.ratePpb = ppb ∧ t.pck.epoch.pendingRate = none ∧
          Keeps [.pck] s t) ∧
      (s.epoch.toNat < e.toNat → exec .rateChangeApply s = .next s)) ∧
    (s.hostReach 0 = true →
      (s.pck.busy = true →
        ∃ t, exec (.epochLoadRequest 0) s = .next t ∧ t.pck.epoch = s.pck.epoch ∧ t.pck.fieldLocked = true ∧
          Records s t ⟨.pck, 15⟩ .reportOnly .none [0x1400040, 2 + bitAt 0 s.pck.srcExternal] ∧
          Keeps ([.pck] ++ reportParts) s t) ∧
      (s.pck.busy = false → s.pck.srcExternal = false →
        ∃ t, exec (.epochLoadRequest 0) s = .next t ∧ t.epoch = s.pck.epochSet ∧ Keeps [.pck] s t) ∧
      (s.pck.busy = false → s.pck.srcExternal = true → s.pck.epoch.ext = .locked →
        ∃ t, exec (.epochLoadRequest 0) s = .next t ∧ t.pck.epoch = { s.pck.epoch with loadPending := true } ∧
          Keeps [.pck] s t)) ∧
    (s.alive = true →
      (s.pck.external = false →
        ∃ t, exec .epochPpsEdge s = .next t ∧ t.pck.epoch = { s.pck.epoch with extOffset := extOffsetOf s.secondOffset } ∧
          Keeps [.pck, .pins] s t) ∧
      (s.pck.external = true → s.pck.epoch.loadPending = true → s.pck.epoch.ext = .locked → s.pck.busy = false →
        ∃ t, exec .epochPpsEdge s = .next t ∧ t.epoch = s.pck.epochSet ∧ t.pck.epoch.loadPending = false ∧
          Keeps [.pck, .pins] s t)) ∧
    (s.alive = true → s.pck.external = true → s.pck.epoch.ext ≠ .holdover →
      ∃ t, exec .externalSourceTimeout s = .next t ∧ t.pck.epoch.ext = .holdover ∧
        Records s t ⟨.pck, 12⟩ .reportOnly .none [] ∧ Keeps ([.pck] ++ reportParts) s t)

/-- R536, R537, R540: the last ARRIVE at the master, with every member's frame and digest alike, releases the frame down the
tree for the epoch plus the lead; a member takes the release it awaits and dispatches at its time, and one that comes after
its time is recorded with E-PCK-14. -/
def WhistleReleasesFrames : Prop :=
  ∀ (s : State) (q j no : Nat) (x : Job), s.alive = true → s.job j = x → x.valid = true →
    (∀ (dg : Word) (b : Barrier) (f : Frame) (rest : List Frame), s.pck.state = .formed → s.pck.isMaster = true →
      x.barrier = some b → b.selfReady = true → b.sentAt = none → b.frame = no → (b.arrivals.any fun a => a.1 == q) = false →
      s.pck.childPorts.contains q = true →
      (s.pck.childPorts.all fun p => p == q || b.arrivals.any fun a => a.1 == p) = true →
      dg = s.digestOf x.ctx.toNat → (∀ a ∈ b.arrivals, a.2.frame = no ∧ a.2.digest = dg ∧ a.2.epochOk = true ∧
        a.2.differs = none) → s.pck.skewFault = false →
      (s.ctx x.ctx.toNat).held = f :: rest →
      ∀ n, 1 + (b.arrivals.map fun a => a.2.members).sum + n = s.pck.size →
      ∃ t, exec (.whistleArrive q j no dg true none n) s = .next t ∧ (t.job j).barrier = none ∧ (t.job j).running = true ∧
        (t.ctx x.ctx.toNat).held.head?.bind (fun g => g.whistle) = some (.scheduled (s.epoch + s.pck.lead.setWidth 64)) ∧
        (treeClear s → t.out = s.out ++ downTree s (.release j no (s.epoch + s.pck.lead.setWidth 64))) ∧
        Keeps [.pck, .hrd, .out] s t) ∧
    (∀ (tm : DWord) (f : Frame) (rest : List Frame), s.pck.parentPort s.pck.me = some q → x.awaits no = true →
      (s.ctx x.ctx.toNat).held = f :: rest →
      (s.epoch.toNat ≤ tm.toNat →
        ∃ t, exec (.whistleRelease q j no tm) s = .next t ∧ (t.job j).barrier = none ∧ (t.job j).running = true ∧
          (t.ctx x.ctx.toNat).held.head?.bind (fun g => g.whistle) = some (.scheduled tm) ∧
          (treeClear s → t.out = s.out ++ downTree s (.release j no tm)) ∧ Keeps [.pck, .hrd, .out] s t) ∧
      (tm.toNat < s.epoch.toNat →
        ∃ t, exec (.whistleRelease q j no tm) s = .next t ∧
          (t.ctx x.ctx.toNat).held.head?.bind (fun g => g.whistle) = some .released ∧
          Records s t ⟨.pck, 14⟩ .reportOnly .none [])) ∧
    (∀ (tm : DWord) (f : Frame) (rest : List Frame), (s.ctx x.ctx.toNat).held = f :: rest → f.whistle = some (.scheduled tm) →
      (tm.toNat ≤ s.epoch.toNat →
        ∃ t, exec (.whistleReleaseTime j) s = .next t ∧
          (t.ctx x.ctx.toNat).held.head?.bind (fun g => g.whistle) = some .released ∧ Keeps [.hrd] s t) ∧
      (s.epoch.toNat < tm.toNat → exec (.whistleReleaseTime j) s = .next s))

/-- R540 to R542: an ABORT, the master's or a member's time-out, and a FAIL end the job: its binding is invalid, no frame of
its context is held any more, and one more abort is counted; a member passes a FAIL on to its parent unchanged. -/
def AbortsEndTheJob : Prop :=
  ∀ (s : State) (q j no code : Nat) (x : Job), s.alive = true → s.job j = x → x.valid = true →
    (∀ i : Instr,
      ((i = .whistleAbort q j no code ∧ s.pck.parentPort s.pck.me = some q) ∨
       (∃ b, i = .barrierTimeout j ∧ x.barrier = some b ∧ b.timer.isSome = true ∧ s.pck.isMaster = true) ∨
       (∃ b, i = .arriveTimeout j ∧ x.barrier = some b ∧ b.sentAt.isSome = true) ∨
       (i = .whistleFail q j no code ∧ s.pck.childPorts.contains q = true ∧ s.pck.isMaster = true) ∨
       (i = .failTimeout j ∧ x.failSent.isSome = true)) →
      ∃ t, exec i s = .next t ∧ (t.job j).valid = false ∧ (t.job j).running = false ∧
        (t.ctx x.ctx.toNat).held = [] ∧ (t.ctx x.ctx.toNat).arriving = [] ∧ t.pck.aborts = satInc s.pck.aborts) ∧
    (s.pck.childPorts.contains q = true → s.pck.isMaster = false →
      ∃ t, exec (.whistleFail q j no code) s = .next t ∧ t.job j = { x with failSent := some s.now } ∧
        (∀ p, s.pck.parentPort s.pck.me = some p → (s.link p).clear controlChannel = true →
          t.out = s.out ++ [.link p (.fail j no code)]) ∧ Keeps [.pck, .out] s t)

/-- R536 to R542: the Whistle releases a frame on every member or ends its job. -/
def Obligations.WhistleReleasesFramesOrAborts : Prop := WhistleReleasesFrames ∧ AbortsEndTheJob

/-- R511 to R513, R547, R548: a message spends a hop credit of its own virtual channel or waits behind that channel's own
messages alone; a flit in order is acknowledged, and every channel then sends what its own credits allow; any other flit is
asked for again; the sixteenth replay of one flit, or
the loss of FEC lock, retrains the link, which goes on with E-PCK-13 or down; a link down on a cabled port fails the Pack
with E-PCK-08. -/
def Obligations.LinksReplayRetrainFall : Prop :=
  ∀ (s : State) (q : Nat), s.alive = true → q < 8 → (s.link q).link = true →
    (∀ (vc : Nat) (o : Out),
      (∀ k, k ≠ vc → ((s.sendLink q vc o).link q).chan k = (s.link q).chan k) ∧
      ((s.link q).clear vc = true → (s.sendLink q vc o).out = s.out ++ [o] ∧
        (((s.sendLink q vc o).link q).chan vc).credits + 1 = ((s.link q).chan vc).credits) ∧
      ((s.link q).clear vc = false → (s.sendLink q vc o).out = s.out ∧
        (((s.sendLink q vc o).link q).chan vc).waiting = ((s.link q).chan vc).waiting ++ [o])) ∧
    (∀ (d : List Byte), (s.link q).retraining = false →
      (∃ t, exec (.flitReceive q (s.link q).rxSeq d true) s = .next t ∧ (t.link q).rxSeq = (s.link q).rxSeq + 1 ∧
        s.out ++ [.linkAck q (s.link q).rxSeq] <+: t.out ∧
        ((∀ vc, vc < 5 → ((s.link q).chan vc).waiting = []) → t.out = s.out ++ [.linkAck q (s.link q).rxSeq]) ∧
        (∀ vc, vc < 5 → ((t.link q).chan vc).waiting <:+ ((s.link q).chan vc).waiting ∧
          (((t.link q).chan vc).credits = 0 ∨ ((t.link q).chan vc).waiting = [])) ∧
        (∀ k, k ≠ q → t.link k = s.link k) ∧ Keeps [.pck, .out, .freeCount] s t) ∧
      (∀ n ok, (ok = false ∨ n ≠ (s.link q).rxSeq) →
        ∃ t, exec (.flitReceive q n d ok) s = .next t ∧ t.out = s.out ++ [.linkReplayRequest q (s.link q).rxSeq] ∧
          Keeps [.out] s t)) ∧
    (∀ n, (s.link q).retraining = false →
      ∃ t, exec (.replayRequestReceive q n) s = .next t ∧ (t.link q).replays = satInc (s.link q).replays ∧
        t.out = s.out ++ [.linkReplay q n] ∧
        ((s.link q).replayOf = n → (s.link q).replayRun = 15 → (t.link q).retraining = true) ∧
        ((s.link q).replayOf ≠ n → (t.link q).retraining = false) ∧ Keeps [.pck, .out] s t) ∧
    (∃ t, exec (.fecLockLossTimeout q) s = .next t ∧ t.link q = { s.link q with retraining := true } ∧ Keeps [.pck] s t) ∧
    ((s.link q).retraining = true →
      ∃ t, exec (.retrainDone q true) s = .next t ∧ (t.link q).retraining = false ∧ (t.link q).link = true ∧
        (t.link q).retrains = satInc (s.link q).retrains ∧ Records s t ⟨.pck, 13⟩ .reportOnly (.traverse q) [] ∧
        Keeps ([.pck] ++ reportParts) s t) ∧
    (∀ (i : Instr) (m : Nat),
      (i = .traverseLinkDown q ∨ (i = .retrainDone q false ∧ (s.link q).retraining = true)) →
      s.pck.neighbour s.pck.me q = some m → s.pck.busy = true →
      ∃ t, exec i s = .next t ∧ (t.link q).link = false ∧ t.pck.state = .failed ∧ t.pck.lead = 0 ∧ t.pck.failCode = 8 ∧
        t.pck.linkDowns = satInc s.pck.linkDowns ∧ Records s t ⟨.pck, 8⟩ .reportOnly (.traverse q) [] ∧
        Keeps ([.pck] ++ reportParts) s t) ∧
    (∀ m, s.pck.neighbour s.pck.me q = some m → s.pck.busy = true →
      ∃ t, exec (.portStateFatal q) s = .next t ∧ (t.link q).link = false ∧ t.pck.state = .failed ∧ t.pck.failCode = 8 ∧
        Keeps ([.pck] ++ reportParts) s t)

/-! ### Power, wake-up, shutdown and the connector (chapters 16 and 17) -/

/-- R557, R586, R588, R589: PWR_EN and a good input wake the module from OFF with its first attempt; each wake step leads to
the next and the last one to BOOT; a step's time-out fails the attempt, and the fourth leads to HOLD with the step's cause. -/
def Obligations.WakeStepsLeadToBootOrHold : Prop :=
  ∀ (s : State) (n : Nat),
    (s.sup.mstate = .off → s.pins.pwrEn = false → s.pins.inputGood = true →
      ∃ t, exec (.pwrEnRise n) s = .next t ∧ t.sup.mstate = .wake ∧ t.sup.attempts = 1 ∧ t.sup.wakeStep = 0 ∧
        t.sup.slotSample = BitVec.ofNat 6 n ∧ t.mem = {} ∧ t.pending = s.pending ∧ t.fuses = s.fuses) ∧
    (s.sup.mstate = .off → s.pins.pwrEn = false → s.pins.inputGood = false →
      ∃ t, exec (.pwrEnRise n) s = .next t ∧ t.sup.mstate = .off ∧ t.pins.pwrEn = true ∧ Keeps [.pins, .sup] s t) ∧
    (s.sup.mstate = .off → s.pins.pwrEn = true →
      ∃ t, exec (.inputGood n) s = .next t ∧ t.sup.mstate = .wake ∧ t.sup.slotSample = BitVec.ofNat 6 n ∧
        42000 ≤ t.pins.vinMv ∧ t.pins.vinMv ≤ 60000) ∧
    (s.sup.mstate = .wake → s.sup.retryWait = false → s.sup.wakeStep < 7 →
      ∃ t, exec .wakeStepComplete s = .next t ∧ t.sup.wakeStep = s.sup.wakeStep + 1 ∧ t.sup.mstate = .wake ∧
        t.sup.standby = true ∧ (s.sup.wakeStep = 1 → t.sup.hotSwap = true) ∧ Keeps [.sup] s t) ∧
    (s.sup.mstate = .wake → s.sup.retryWait = false → s.sup.wakeStep = 7 →
      ∃ t, exec .wakeStepComplete s = .next t ∧ t.sup.mstate = .boot ∧ t.cad.windowOpen = true ∧ t.cad.locked = false ∧
        t.cad.entries = [] ∧ t.pending = s.pending) ∧
    (s.sup.mstate = .wake → s.sup.retryWait = false → 1 ≤ s.sup.wakeStep → s.sup.wakeStep ≤ 7 →
      (s.sup.attempts < 4 →
        ∃ t, exec (.wakeStepTimeout s.sup.wakeStep) s = .next t ∧ t.sup.retryWait = true ∧ t.sup.mstate = .wake ∧
          t.sup.failedStep = s.sup.wakeStep ∧ t.sup.hotSwap = false ∧
          Records s t ⟨.sup, 1⟩ .reportOnly .none [s.sup.wakeStep, s.sup.wakeStep, s.sup.attempts] ∧ Keeps reportParts s t) ∧
      (4 ≤ s.sup.attempts →
        ∃ t, exec (.wakeStepTimeout s.sup.wakeStep) s = .next t ∧ t.sup.mstate = .hold ∧
          t.sup.holdCause = s.sup.wakeStep ∧ t.sup.hotSwap = false)) ∧
    (s.sup.mstate = .wake → s.sup.retryWait = true →
      ∃ t, exec .wakeRetryTimer s = .next t ∧ t.sup.retryWait = false ∧ t.sup.wakeStep = 1 ∧
        t.sup.attempts = s.sup.attempts + 1 ∧ Keeps [.sup] s t)

/-- R585, R587, R598 to R603, R607: an input fault or a fall of PWR_EN takes RUN, READY and BOOT to SHUTDOWN-A, with one restart
record for each admitted context, and WAKE and HOLD to OFF; SHUTDOWN-A is cancelled while PWR_EN is high and ends in
SHUTDOWN-B, which loses memory, and then OFF; the host may clear the records. -/
def Obligations.ShutdownSavesRecordsAndEndsOff : Prop :=
  ∀ (s : State),
    (∀ (i : Instr) (c : ShutCause), ((i = .pwrEnFall ∧ c = .pwrEn) ∨ (i = .undervoltageFault ∧ c = .undervoltage) ∨
        (i = .overvoltageFault ∧ c = .overvoltage)) → s.pins.pwrEn = true →
      ((s.sup.mstate = .boot ∨ s.sup.mstate = .ready ∨ s.sup.mstate = .run) →
        ∃ t, exec i s = .next t ∧ t.sup.mstate = .shutdownA ∧ t.sup.left = s.sup.mstate ∧ t.sup.shutCause = c ∧
          t.sup.hotSwap = false ∧ (t.sup.noCancel = true ↔ c = .pwrEn) ∧ t.sup.rr.valid = true ∧
          t.sup.rr.records = (Tab.keysWhere (fun _ x => x.st == .admitted || x.st == .suspended) s.hrd.ctxs).map
            (fun k => t.restartRecord k t.sup.shutCount) ∧ t.sup.shutCount = s.sup.shutCount + 1 ∧
          Records s t ⟨.sup, if c = .overvoltage then 5 else 3⟩ .reportOnly .none []) ∧
      ((s.sup.mstate = .wake ∨ s.sup.mstate = .hold) →
        ∃ t, exec i s = .next t ∧ t.sup.mstate = .off ∧ t.sup.standby = false ∧ t.mem = {} ∧ t.pending = s.pending)) ∧
    (s.sup.mstate = .shutdownA → s.sup.rr.incomplete = false →
      ∃ t, exec .restartRecordTimeout s = .next t ∧ t.sup.rr.incomplete = true ∧
        t.sup.rr.records <+: s.sup.rr.records ∧ Records s t ⟨.sup, 9⟩ .reportOnly .none [] ∧
        Keeps ([.freeCount] ++ reportParts) s t) ∧
    (s.sup.mstate = .shutdownA → s.sup.noCancel = false → s.pins.pwrEn = true → s.hrd.asks = [] →
      (s.sup.left = .boot ∨ (s.sup.left = .run ∧ (s.hrd.ctxs.any fun p => p.2.st != .free) = true)) →
      ∃ t, exec .shutdownACancel s = .next t ∧ t.sup.mstate = s.sup.left ∧ t.sup.hotSwap = true ∧
        t.sup.dips = satInc s.sup.dips ∧ t.sup.rr.cancelled = true ∧ Records s t ⟨.sup, 4⟩ .reportOnly .none [] ∧
        Keeps ([.pins, .freeCount] ++ reportParts) s t) ∧
    ((s.sup.noCancel = true ∨ s.pins.pwrEn = false) → exec .shutdownACancel s = .next s) ∧
    (s.sup.mstate = .shutdownA →
      ∃ t, exec .shutdownAExpiry s = .next t ∧ t.sup.mstate = .shutdownB ∧ t.mem = {} ∧ t.hrd.ctxs = [] ∧
        t.sup.rr = s.sup.rr ∧ t.pending = s.pending) ∧
    (s.sup.mstate = .shutdownB →
      ∃ t, exec .shutdownBDone s = .next t ∧
        t.sup.mstate = (if s.pins.pwrEn = true ∧ s.pins.inputGood = true then .wake else .off) ∧ t.sup.rr = s.sup.rr) ∧
    (s.hostReach 0 = true →
      ∃ t, exec (.restartRecordsClear 0) s = .next t ∧ t.sup.rr.records = [] ∧ t.sup.rr.valid = false ∧ Keeps [.sup] s t)

/-- R592, R560, R590, R710: each status command is answered with its field and changes nothing else; RETRY takes HOLD to a fresh
wake, unless the trip latch or a boot failure less than 10 s old stands against it, which is recorded as E-SUP-10. -/
def StatusCommandsAnswer : Prop :=
  ∀ (s : State), s.smbusUp = true →
    (∀ (i : Instr) (d : List Byte),
      ((i = .statusState ∧ d = natLe 1 (s.sup.mstate.code + bitAt 4 s.hnd.running + bitAt 5 s.sup.tripLatch +
          bitAt 6 (s.erl.alert != 0) + bitAt 7 s.sup.service)) ∨
       (i = .statusCause ∧ s.sup.mstate = .hold ∧ d = natLe 1 s.sup.holdCause) ∨
       (i = .statusCause ∧ s.sup.mstate = .wake ∧ d = natLe 1 s.sup.attemptCause) ∨
       (i = .statusCause ∧ s.sup.mstate ≠ .hold ∧ s.sup.mstate ≠ .wake ∧ d = [0]) ∨
       (i = .statusWakeInfo ∧ d = natLe 2 (s.sup.failedStep % 16 + 16 * (s.sup.attempts % 8))) ∨
       (i = .statusSlot ∧ d = natLe 1 s.sup.slotSample.toNat) ∨
       (i = .statusVin ∧ d = natLe 2 (s.pins.vinMv / 10)) ∨
       (i = .statusIdent ∧ d = natLe 8 s.fuses.moduleId.toNat ++ natLe 1 s.fuses.stepping ++ natLe 1 s.fuses.grade ++
          natLe 1 s.firmware.major.toNat ++ natLe 1 s.firmware.minor.toNat ++ [0, 0, 0, 0]) ∨
       (i = .statusRrCount ∧ s.sup.rr.valid = true ∧ s.sup.rr.cancelled = false ∧ d = natLe 2 s.sup.rr.records.length) ∨
       (i = .statusRrCount ∧ (s.sup.rr.valid = false ∨ s.sup.rr.cancelled = true) ∧ d = [0, 0])) →
      exec i s = .next (s.emit (.smbusRead d))) ∧
    (∀ d : Byte, d ≠ 0xA5 → exec (.retry d) s = .next (s.emit .smbusNack)) ∧
    (s.sup.mstate = .hold → s.retryRefused = false →
      ∃ t, exec (.retry 0xA5) s = .next t ∧ t.sup.mstate = .wake ∧ t.sup.attempts = 1 ∧ t.sup.wakeStep = 0) ∧
    (s.sup.mstate = .hold → (s.sup.tripLatch = true ∨ (s.sup.holdCause = 0x20 ∧
        ∃ b, s.sup.bootFailAt = some b ∧ s.now < b + 10000000000)) →
      ∃ t, exec (.retry 0xA5) s = .next t ∧ t.sup.mstate = .hold ∧ Records s t ⟨.sup, 10⟩ .reportOnly .none [] ∧
        Keeps reportParts s t) ∧
    (s.sup.mstate ≠ .hold → exec (.retry 0xA5) s = .next (s.emit .smbusAck)) ∧
    (s.alertOut = true → exec .alertResponse s = .next (s.emit (.smbusRead [0x52]))) ∧
    (s.alertOut = false → exec .alertResponse s = .next (s.emit .smbusNack)) ∧
    exec .smbusClockTimeout s = .next (s.emit .smbusRelease)

/-- R557, R575, R576, R582, R634: the TAP loads an instruction open in the module's state and BYPASS for any other, IDCODE
shifts out the identity and FB_READ takes the updated index; a slot ID that has changed, and a readback that does not
agree, are recorded, the first once per power cycle. -/
def TapSlotAndReadback : Prop :=
  ∀ (s : State), s.sup.standby = true →
    (∃ t, exec (.tapInstructionLoad 1) s = .next t ∧ t.sup.tap = .idcode ∧ t.out = s.out ++ [.tapData s.idcode] ∧
      Keeps [.sup, .out] s t) ∧
    (∀ n, n ≠ 1 →
      ∃ t, exec (.tapInstructionLoad n) s = .next t ∧ Keeps [.sup] s t ∧ t.sup =
        { s.sup with tap := if n = 2 then .sample else if n = 3 ∧ s.sup.mstate = .hold then .extest
                            else if n = 4 ∧ s.sup.mstate = .hold ∧ s.fb.diag = true then .fbRead else .bypass }) ∧
    (∀ n, s.sup.tap = .fbRead → s.sup.mstate = .hold → s.fb.diag = true →
      ∃ t, exec (.fbRead n) s = .next t ∧ t.fb.tapIndex = n % 2 ^ 24 ∧
        (∃ w, t.out = s.out ++ [.tapData w] ∧ w.toNat / 2 ^ 32 = n % 2 ^ 24) ∧ Keeps [.fb, .out, .freeCount] s t) ∧
    (∀ n, s.alive = true → s.hnd.running = true → BitVec.ofNat 6 n ≠ s.sup.slotSample →
      (s.sup.slotChanged = false →
        ∃ t, exec (.slotIdRecheck n) s = .next t ∧ t.sup.slotChanged = true ∧
          Records s t ⟨.sys, 42⟩ .reportOnly .none [] ∧ Keeps ([.pins] ++ reportParts) s t) ∧
      (s.sup.slotChanged = true → ∃ t, exec (.slotIdRecheck n) s = .next t ∧ Keeps [.pins] s t)) ∧
    (∃ t, exec (.readbackCheck true) s = .next t ∧ t.sup.readbackFault = true ∧
      Records s t ⟨.sys, 43⟩ .reportOnly .none [] ∧ Keeps reportParts s t) ∧
    exec (.readbackCheck false) s = .next s

/-- R557, R575, R576, R582, R592, R634: the status commands, the TAP and the recheck of the slot. -/
def Obligations.StatusCommandsTapAndReadback : Prop := StatusCommandsAnswer ∧ TapSlotAndReadback

/-- R595 to R597, R649, R716: an accepted profile change sets BUSY until it is in force, with every core's ceiling brought down
to the profile's; a refused one shows its block and code; the limiter moves every core's ceiling by 25 MHz at a time,
down to 0.40 GHz at most; CAP_ACTIVE and a marginal input are recorded once. -/
def Obligations.ProfilesAndPowerLimits : Prop :=
  ∀ (s : State),
    (∀ n, s.hostReach 0 = true → s.sup.profileBusy = false →
      (s.profileRefusal (BitVec.ofNat 2 n) = none →
        ∃ t, exec (.profileChange 0 n) s = .next t ∧ t.sup.profileBusy = true ∧ t.sup.profileTarget = BitVec.ofNat 2 n ∧
          t.sup.profile = s.sup.profile ∧ t.sup.profileCode = 0 ∧ Keeps [.sup] s t) ∧
      (BitVec.ofNat 2 n = 3 ∨ BitVec.ofNat 2 n = s.sup.profile →
        ∃ t, exec (.profileChange 0 n) s = .next t ∧ t.sup.profileCode = 6 ∧ t.sup.profileBlock = 1 ∧
          t.sup.profile = s.sup.profile ∧ t.sup.profileBusy = false ∧ Records s t ⟨.sup, 6⟩ .reportOnly .none [] ∧
          Keeps reportParts s t)) ∧
    (s.sup.mstate.powered = true → s.sup.profileBusy = true →
      ∃ t, exec .profileChangeComplete s = .next t ∧ t.sup.profile = s.sup.profileTarget ∧ t.sup.profileBusy = false ∧
        (t.numsig ≠ s.numsig → t.sys.numsigPrev = s.numsig ∧ t.sys.numsigTime = s.epoch) ∧
        (∀ u, u < 144 → (t.thmUnit u).thr.toNat ≤ t.profileCeiling) ∧ Keeps [.sup, .sys, .thm] s t) ∧
    (∀ w now : Nat, s.sup.mstate.powered = true → now = min s.sup.limiter.toNat s.profileCeiling →
      ∃ t, exec (.powerLimiterStep w) s = .next t ∧
        (s.limitMw < w * 1000 → t.sup.limiter.toNat = max 16 (now - 1)) ∧
        (w * 1000 ≤ s.limitMw → s.limitMw * 95 ≤ w * 100000 → t.sup.limiter = s.sup.limiter) ∧
        (w * 100000 < s.limitMw * 95 → now + 1 < s.profileCeiling → t.sup.limiter.toNat = now + 1) ∧
        Keeps [.sup] s t) ∧
    (s.sup.mstate.powered = true → s.sup.capActive = false → s.sup.limiter.toNat < s.profileCeiling →
      ∃ t, exec .powerLimitPersist s = .next t ∧ t.sup.capActive = true ∧ t.sup.capEvents = satInc s.sup.capEvents ∧
        Records s t ⟨.sup, 8⟩ .reportOnly .none [] ∧ Keeps reportParts s t) ∧
    (∀ mv, s.sup.mstate ≠ .off → 38000 ≤ mv → mv ≤ 63000 →
      ((mv < 40000 ∨ 60000 < mv) → s.sup.vinReported = false →
        ∃ t, exec (.vinMarginalTimeout mv) s = .next t ∧ t.sup.vinReported = true ∧
          Records s t ⟨.sys, 44⟩ .reportOnly .none [] ∧ Keeps ([.pins] ++ reportParts) s t) ∧
      ((mv < 40000 ∨ 60000 < mv) → s.sup.vinReported = true →
        ∃ t, exec (.vinMarginalTimeout mv) s = .next t ∧ t.pins.vinMv = mv ∧ Keeps [.pins] s t) ∧
      (40000 ≤ mv → mv ≤ 60000 →
        ∃ t, exec (.vinMarginalTimeout mv) s = .next t ∧ t.sup.vinReported = false ∧ Keeps [.pins, .sup] s t))

/-! ### BOOT and the Cadastre (chapter 18) -/

/-- R246, R614, R616: a self-test ends, and a failed one fences its core or disables its engine; the zero fill and the
Cadastre's window end; BOOT leads to READY only when none of them is outstanding, and a window nobody closed locks the
Cadastre with every entry cleared. -/
def BootStepsLeadToReady : Prop :=
  ∀ (s : State), s.sup.mstate = .boot → s.sup.heldInReset = false →
    (∀ (k n : Nat) (u : UnitRef), u = (match k with | 0 => .core n | 1 => .entropy n | 2 => .dict n | _ => .none) →
      s.cad.selfTests.contains u = true →
      (∃ t, exec (.selfTestComplete k n true) s = .next t ∧ t.cad.selfTests = s.cad.selfTests.filter (fun v => v != u) ∧
        Keeps [.cad] s t) ∧
      (k = 0 → s.fenced n = false → ∃ t, exec (.selfTestComplete k n false) s = .next t ∧
        (t.core n).fence = some .selfTest) ∧
      (k = 1 → ∃ t, exec (.selfTestComplete k n false) s = .next t ∧ (t.ecEngine n).disabled = true ∧
        Records s t ⟨.ec, 9⟩ .unitFatal u [] ∧ Keeps ([.cad, .ec] ++ reportParts) s t) ∧
      (k = 2 → ∃ t, exec (.selfTestComplete k n false) s = .next t ∧ (t.dceEngine n).disabled = true ∧
        Records s t ⟨.dce, 2⟩ .unitFatal u [] ∧ Keeps ([.cad, .dce] ++ reportParts) s t) ∧
      (3 ≤ k → ∃ t, exec (.selfTestComplete k n false) s = .next t ∧ t.sup.mstate = .hold ∧ t.sup.holdCause = 0x20)) ∧
    (s.cad.zeroFill = true →
      ∃ t, exec .zeroFillDone s = .next t ∧ t.cad.zeroFill = false ∧ t.mem = { s.mem with zeroFillDone := true } ∧
        Keeps [.cad, .mem] s t) ∧
    (s.cad.windowOpen = true →
      ∃ t, exec .bootWindowTimeout s = .next t ∧ t.cad.windowOpen = false ∧ t.cad.locked = true ∧ t.cad.entries = [] ∧
        Records s t ⟨.cad, 3⟩ .reportOnly .none [] ∧ Keeps reportParts s t) ∧
    ((s.cad.windowOpen = true ∨ s.cad.selfTests ≠ [] ∨ s.cad.zeroFill = true) → exec .bootComplete s = .next s) ∧
    (s.cad.windowOpen = false → s.cad.selfTests = [] → s.cad.zeroFill = false →
      ∃ t, exec .bootComplete s = .next t ∧ t.sup.mstate = .ready ∧ s.fuses.svFloor.toNat ≤ t.fuses.svFloor.toNat ∧
        t.cad = s.cad ∧ t.mem = s.mem ∧ Keeps [.sup, .fuses, .hnd, .out] s t)

/-- R611, R629, Table 18.2: the boot ROM runs the preferred bank where it passes, and where no bank does BOOT fails with
E-CAD-08; boot code that finds the window open enforces the active policy where it passes, with CAD_LOCK set, or nothing. -/
def BootCodeAppliesThePolicy : Prop :=
  ∀ (s : State), s.sup.mstate = .boot → s.sup.heldInReset = false → s.hnd.running = false → s.hnd.inReset = false →
    (s.chooseBank = none →
      ∃ t, exec .firmwareCheckDone s = .next t ∧ t.sup.mstate = .hold ∧ t.sup.holdCause = 0x20) ∧
    (∀ (p : Policy), s.chooseBank = some (s.cad.preferB, false) → s.cad.windowOpen = true → s.cad.staged = none →
      s.cad.active = some p →
      ∃ t, exec .firmwareCheckDone s = .next t ∧ t.hnd.running = true ∧ t.cad.fwBank = s.cad.preferB ∧
        t.cad.locked = true ∧ t.cad.windowOpen = false ∧
        t.cad.entries = (if s.policyValid p = true then p.entries else []) ∧ t.thm.forecaster = true ∧
        t.mem.tallies = s.mem.tallies) ∧
    (∀ (p : Policy), s.chooseBank = some (s.cad.preferB, false) → s.cad.windowOpen = true → s.cad.staged = some p →
      s.policyValid p = true → s.ownerAdmits p = true → seqBelow s.cad.active p.seq = true →
      ∃ t, exec .firmwareCheckDone s = .next t ∧ t.cad.entries = p.entries ∧ t.cad.locked = true ∧ t.cad.source = 2 ∧
        t.cad.staged = none ∧ t.cad.active = some p)

/-- R611, R614, R616, R629: BOOT runs its firmware, applies the policy and leads to READY. -/
def Obligations.BootAppliesPolicyAndLeadsToReady : Prop := BootStepsLeadToReady ∧ BootCodeAppliesThePolicy

/-- R618, R613, R628, R694: a host's write to a CAD_ register and the Handler's to the port after the window change no entry and
are counted with E-CAD-01; a policy or an image that passes its checks is staged or written to the bank not preferred, and
activated by a Handler-only reset; any other is refused. -/
def Obligations.CadastreWritesAndUpdates : Prop :=
  ∀ (s : State),
    (∀ (fn off : Nat) (wide : Bool) (v : DWord), s.hostReach fn = true → blockOf off = 0x2000000 → off ≠ 0x2000020 →
      off ≠ 0x2000040 → accessOf off (if wide then 8 else 4) = .register →
      ∃ t, exec (.cadRegisterWrite fn off wide v) s = .next t ∧ t.cad.entries = s.cad.entries ∧
        t.cad.locked = s.cad.locked ∧ t.cad.violCount = satInc s.cad.violCount ∧
        Records s t ⟨.cad, 1⟩ .reportOnly .none [off, v.toNat % 2 ^ 32] ∧ Keeps reportParts s t) ∧
    (∀ v, s.alive = true → s.hnd.running = true → s.cad.windowOpen = false →
      ∃ t, exec (.cadPortWrite v) s = .next t ∧ t.cad.entries = s.cad.entries ∧ t.cad.violCount = satInc s.cad.violCount ∧
        Keeps ([.freeCount] ++ reportParts) s t) ∧
    (∀ d : List Byte, s.updateOpen = true →
      (s.policyValid (readPolicy d) = true → s.ownerAdmits (readPolicy d) = true →
        seqBelow s.cad.active (readPolicy d).seq = true → seqBelow s.cad.staged (readPolicy d).seq = true →
        ∃ t, exec (.policyInstall d) s = .next t ∧ t.cad = { s.cad with staged := some (readPolicy d) } ∧
          t.hnd.updLast = 0 ∧ Keeps [.cad, .hnd, .freeCount] s t) ∧
      ((s.policyValid (readPolicy d) = false ∨ seqBelow s.cad.active (readPolicy d).seq = false) →
        ∃ t, exec (.policyInstall d) s = .next t ∧ t.cad.staged = s.cad.staged ∧ t.cad.entries = s.cad.entries ∧
          t.cad.active = s.cad.active ∧ t.hnd.updLast = 6 ∧ Keeps ([.freeCount] ++ reportParts) s t) ∧
      ((readFirmware d).passes s.fuses.svFloor.toNat = true →
        ∃ t, exec (.firmwareUpdate d) s = .next t ∧ t.hnd.updState = 4 ∧ t.cad.preferB = s.cad.preferB ∧
          (if s.cad.preferB then t.cad.bankA = readFirmware d ∧ t.cad.bankB = s.cad.bankB
           else t.cad.bankB = readFirmware d ∧ t.cad.bankA = s.cad.bankA) ∧ Keeps [.cad, .hnd, .freeCount] s t) ∧
      ((readFirmware d).passes s.fuses.svFloor.toNat = false →
        ∃ t, exec (.firmwareUpdate d) s = .next t ∧ t.cad = s.cad ∧ t.hnd.updState = s.hnd.updState ∧ t.hnd.updLast = 6 ∧
          Records s t ⟨.hnd, 6⟩ .reportOnly .none [] ∧ Keeps ([.freeCount] ++ reportParts) s t)) ∧
    (s.alive = true → s.sup.mstate.serving = true → s.hnd.running = true → s.hnd.updState = 4 →
      ∃ t, exec .firmwareActivate s = .next t ∧ t.cad.preferB = !s.cad.preferB ∧ t.hnd.inReset = true ∧
        t.hnd.running = false ∧ t.hnd.resets = satInc s.hnd.resets)

/-! ### Cooling, forecast and wear (chapter 19) -/

/-- No sensor of any unit has failed. -/
def sensorsWork (ts : List Sensors) : Prop := ∀ u, u < 174 → sensorFailures u (ts.getD u []) = []

/-- R643, R644, R646, R651: a step of the forecaster publishes every unit's effective forecast and moves the clock ceiling of
at most one unit, by 25 MHz; a step of the fallback lowers each throttleable unit of its quarter above 105 °C by 25 MHz,
down to its minimum, and no other; neither acts while the other's condition holds. -/
def ForecasterAndFallbackStep : Prop :=
  ∀ (s : State) (ts : List Sensors) (fs : List Int), sensorsWork ts →
    (s.alive = true → s.thm.forecaster = true →
      ∃ t v, exec (.forecasterStep ts fs) s = .next t ∧
        (∀ u, u < 172 → (t.thmUnit u).forecast = fs.getD u 0 + s.biasOf (unitQuarter u)) ∧
        (∀ u, u < 174 → highestWorking (ts.getD u []) = some (t.thmUnit u).reading) ∧
        (∀ u, u ≠ v → (t.thmUnit u).thr = (s.thmUnit u).thr) ∧
        (t.thmUnit v).thr.toNat ≤ (s.thmUnit v).thr.toNat + 1 ∧ (s.thmUnit v).thr.toNat ≤ (t.thmUnit v).thr.toNat + 1 ∧
        Keeps ([.thm, .freeCount] ++ reportParts) s t) ∧
    (∀ q, s.fallbackActs = true → q < 4 →
      ∃ t, exec (.fallbackStep q ts) s = .next t ∧
        (∀ u, (t.thmUnit u).thr.toNat =
          if unitQuarter u = some q ∧ s.throttleable u = true ∧ 1680 < (t.thmUnit u).reading ∧ minThr u < s.thrOf u then
            s.thrOf u - 1 else s.thrOf u) ∧ Keeps ([.thm, .freeCount] ++ reportParts) s t) ∧
    (∀ q, s.thm.forecaster = true → exec (.fallbackStep q ts) s = .next s) ∧
    (s.thm.forecaster = false → exec (.forecasterStep ts fs) s = .next s)

/-- R652 to R659: a trip takes the module to HOLD with the latch set; fan demand lies from 30 to 100, rises at once and falls by
no more than a point in a step; the thermal ceiling is the cap up to 45 °C of inlet air and 40% of it from 65 °C on; each
channel's second ends, and an hour of fewer than 1,800 samples adds to no band. -/
def TripFanCeilingAndWear : Prop :=
  ∀ (s : State),
    (∀ q, q < 4 → s.sup.standby = true → (s.sup.mstate = .boot ∨ s.sup.mstate = .ready ∨ s.sup.mstate = .run) →
      ∃ t, exec (.thermalTrip q) s = .next t ∧ t.sup.mstate = .hold ∧ t.sup.holdCause = 0x10 ∧ t.sup.tripLatch = true ∧
        t.mem = {} ∧ t.pending = s.pending) ∧
    (s.alive = true → s.thm.forecaster = true →
      ∃ t, exec .fanDemandUpdate s = .next t ∧ 30 ≤ t.thm.fanTarget.toNat ∧ t.thm.fanTarget.toNat ≤ 100 ∧
        t.thm.dFc.toNat ≤ t.thm.fanTarget.toNat ∧ t.thm.dInlet.toNat ≤ t.thm.fanTarget.toNat ∧
        t.thm.dBase.toNat ≤ t.thm.fanTarget.toNat ∧
        (s.thm.fan.toNat ≤ t.thm.fanTarget.toNat → t.thm.fan = t.thm.fanTarget) ∧
        (t.thm.fanTarget.toNat < s.thm.fan.toNat → s.thm.fan.toNat ≤ t.thm.fan.toNat + 1 ∧ t.thm.fan.toNat ≤ s.thm.fan.toNat) ∧
        Keeps [.thm] s t) ∧
    (s.alive = true → s.hnd.running = true →
      ∃ t, exec .thermalCeilingUpdate s = .next t ∧
        ((s.thmUnit 172).reading ≤ 720 → t.thm.ceilingMw = some (s.cap * 1000)) ∧
        (1040 ≤ (s.thmUnit 172).reading → t.thm.ceilingMw = some (s.cap * 400)) ∧ Keeps [.thm] s t) ∧
    (s.alive = true → s.thm.forecaster = true →
      ∃ t, exec .cycleSample s = .next t ∧ (∀ c, c < 5 → (Tab.getD t.thm.channels c {}).n = 0) ∧
        t.fb.work.lifePpm = t.fb.work.life ∧ t.fb.work.hours = s.fb.work.hours ∧
        (∀ c, c < 5 → (Tab.getD s.thm.channels c {}).n = 0 →
          t.fb.work.residue.getD c [] = s.fb.work.residue.getD c []) ∧ Keeps ([.thm] ++ reportParts) s t) ∧
    (s.alive = true → s.hnd.running = true →
      (s.thm.hourN < 1800 →
        ∃ t, exec .hourBandUpdate s = .next t ∧ t.thm.hourN = 0 ∧ t.thm.hourSum = 0 ∧ Keeps [.thm] s t) ∧
      (1800 ≤ s.thm.hourN → s.thm.hourSum ≤ 1360 * (s.thm.hourN : Int) →
        ∃ t, exec .hourBandUpdate s = .next t ∧ t.thm.hourN = 0 ∧ t.fb.work.hours = bump s.fb.work.hours 0 ∧
          t.fb.work.cycles = s.fb.work.cycles ∧ Keeps ([.thm] ++ reportParts) s t))

/-- R643 to R659: the forecaster and its fallback, the trip, the fan, the ceiling and the wear samples. -/
def Obligations.ThermalStepsTripFanAndWear : Prop := ForecasterAndFallbackStep ∧ TripFanCeilingAndWear

/-! ### Errors, the Field book and the Handler (chapter 20) -/

/-- R668, R676, R678, R679, R682, R685: a record goes to the physical function's log ring where there is room and is counted as
dropped where there is none; the Handler appends the oldest waiting record and writes the state block to the copy that is
not current, failed blocks being replaced by spares, and where no spare remains the write fails with E-ERL-04 and leaves
both copies and the log; a write to ERL_ALERT clears the W1C causes alone; a quarter's fatal error leads to HOLD with cause 0x11. -/
def Obligations.RecordsRingsAndFieldBook : Prop :=
  ∀ (s : State),
    (s.sup.standby = true → (s.fn 0).ring.en = true → (s.fn 0).ring.host = true → ringsAtHost s = true →
      limited s ⟨.sys, 43⟩ .none = false →
      ((((s.fn 0).ring.head.toNat + 1) % 2 ^ (s.fn 0).ring.log2.toNat = (s.fn 0).ring.tail.toNat →
        ∃ t, exec (.readbackCheck true) s = .next t ∧ (t.fn 0).ring.drops = satInc (s.fn 0).ring.drops ∧
          (t.fn 0).ring.overflow = true ∧ (t.fn 0).ring.lost = true ∧ (t.fn 0).ring.head = (s.fn 0).ring.head) ∧
       (((s.fn 0).ring.head.toNat + 1) % 2 ^ (s.fn 0).ring.log2.toNat ≠ (s.fn 0).ring.tail.toNat → s.hst.linkUp = true →
        ∃ t r, exec (.readbackCheck true) s = .next t ∧ t.erl.history.head? = some r ∧ r.err = ⟨.sys, 43⟩ ∧
          Out.hostWrite 0 ((s.fn 0).ring.slotAddr (s.fn 0).ring.head.toNat) (r.bytes (s.fn 0).ring.lost) ∈ t.out ∧
          (t.fn 0).ring.head = BitVec.ofNat 16 (((s.fn 0).ring.head.toNat + 1) % 2 ^ (s.fn 0).ring.log2.toNat) ∧
          (t.fn 0).ring.lost = false))) ∧
    (∀ n, s.alive = true → s.hnd.running = true → s.fb.sparesFor n = true →
      ∃ t, exec (.fieldBookPeriodicWrite n) s = .next t ∧ t.fb.retired = s.fb.retired + n ∧
        (s.fb.currentB = false → t.fb.copyA = s.fb.copyA ∧ t.fb.copyB = some t.fb.work) ∧
        (s.fb.currentB = true → t.fb.copyB = s.fb.copyB ∧ t.fb.copyA = some t.fb.work) ∧
        t.fb.work = { s.fb.work with seq := (s.fb.current.elim 0 fun c => c.seq) + 1 } ∧ Keeps [.fb] s t) ∧
    (∀ n, s.alive = true → s.hnd.running = true → s.fb.sparesFor n = false →
      ∃ t, exec (.fieldBookPeriodicWrite n) s = .next t ∧ t.fb.copyA = s.fb.copyA ∧ t.fb.copyB = s.fb.copyB ∧
        t.fb.log = s.fb.log ∧ Records s t ⟨.erl, 4⟩ .reportOnly .none [] ∧ Keeps reportParts s t) ∧
    (∀ (n : Nat) (r : Rec) (rest : List Rec), s.alive = true → s.hnd.running = true → s.fb.queue = r :: rest →
      s.fb.sparesFor n = true →
      ∃ t, exec (.fieldBookAppend n) s = .next t ∧ t.fb.queue = rest ∧ t.fb.log.getLast? = some r ∧
        t.fb.work.eventTotal = s.fb.work.eventTotal + 1 ∧ Keeps [.fb] s t) ∧
    (∀ v : Word, s.hostReach 0 = true →
      ∃ t, exec (.alertClear 0 v) s = .next t ∧
        (∀ i, i < 13 → t.erl.alert.getLsbD i = (s.erl.alert.getLsbD i && !(v.getLsbD i && alertW1c.testBit i))) ∧
        Keeps [.erl] s t) ∧
    (∀ (fn : Nat) (v : Word), s.hostReach fn = true →
      ((s.fn fn).ring.en = false → v.getLsbD 4 = true →
        ∃ t, exec (.errorRingEnable fn v) s = .next t ∧ (t.fn fn).ring.en = true ∧ (t.fn fn).ring.head = 0 ∧
          (t.fn fn).ring.tail = 0 ∧ 6 ≤ (t.fn fn).ring.log2.toNat ∧ (t.fn fn).ring.log2.toNat ≤ 14 ∧ Keeps [.fns] s t) ∧
      ((s.fn fn).ring.en = true →
        ∃ t, exec (.errorRingEnable fn v) s = .next t ∧ (t.fn fn).ring.log2 = (s.fn fn).ring.log2 ∧
          (t.fn fn).ring.fieldLocked = true ∧ Keeps reportParts s t)) ∧
    (∀ q, s.alive = true → (s.sup.mstate = .boot ∨ s.sup.mstate = .ready ∨ s.sup.mstate = .run) →
      ∃ t, exec (.quarterFatalError q) s = .next t ∧ t.sup.mstate = .hold ∧ t.sup.holdCause = 0x11 ∧ t.pending = s.pending)

/-- A write of a driver's ring index: the command, whether R496 calls the write valid, the index as a state holds it and the
value it takes. -/
def IndexWrite (s : State) (fn : Nat) (v : Word) (i : Instr) (ok : Bool) (idx : State → Nat) (new : Nat) : Prop :=
  (∃ ch, i = .crecTailWrite fn ch v ∧ s.ownsChan fn ch = true ∧ new = v.toNat % 65536 ∧ idx = (fun t => (t.chan ch).tail.toNat) ∧
    ok = consumerOk (s.chan ch).recordSize (s.chan ch).tail.toNat new (s.chan ch).head.toNat) ∨
  (i = .erlRingTailWrite fn v ∧ new = v.toNat % 65536 ∧ idx = (fun t => (t.fn fn).ring.tail.toNat) ∧
    ok = consumerOk (2 ^ (s.fn fn).ring.log2.toNat) (s.fn fn).ring.tail.toNat new (s.fn fn).ring.head.toNat) ∨
  (i = .excTailWrite fn v ∧ fn = 0 ∧ new = v.toNat % 65536 ∧ idx = (fun t => t.ing.excTail.toNat) ∧
    ok = consumerOk s.excSize s.ing.excTail.toNat new s.ing.excHead.toNat) ∨
  (∃ r, r < 64 ∧ i = .oqCidxWrite fn r v ∧ new = v.toNat ∧ idx = (fun t => (t.oq fn r).cidx.toNat) ∧
    ok = decide ((v - (s.oq fn r).cidx).toNat ≤ ((s.oq fn r).pidx - (s.oq fn r).cidx).toNat)) ∨
  (∃ r, r < 32 ∧ i = .sqDoorbell fn r v ∧ new = v.toNat % 65536 ∧ idx = (fun t => (t.sq fn r).tail.toNat) ∧
    ok = producerOk (s.sq fn r).size (s.sq fn r).tail.toNat new (s.sq fn r).head.toNat) ∨
  (i = .hostFeedDoorbell fn v ∧ new = v.toNat % 65536 ∧ idx = (fun t => (t.fn fn).feed.tail.toNat) ∧
    ok = producerOk (s.fn fn).feed.size (s.fn fn).feed.tail.toNat new (s.fn fn).feed.head.toNat)

/-- R496: a write to one of the six indices a driver writes takes effect where it moves the index forward no further than the
module's index; any other write leaves every ring's indices and entries as they were and is counted in HST_ACC_ERR with
E-HST-01. -/
def Obligations.RingIndicesMoveForwardOnly : Prop :=
  ∀ (s : State) (fn new : Nat) (v : Word) (i : Instr) (ok : Bool) (idx : State → Nat), s.hostReach fn = true →
    IndexWrite s fn v i ok idx new →
    (ok = true →
      ∃ t, exec i s = .next t ∧ idx t = new ∧ (t.fn fn).hst.accErr = (s.fn fn).hst.accErr ∧ Keeps [.fns, .rtv, .ing] s t) ∧
    (ok = false →
      ∃ t, exec i s = .next t ∧ idx t = idx s ∧ (t.fn fn).hst.accErr = satInc (s.fn fn).hst.accErr ∧
        (t.fn fn).feed = (s.fn fn).feed ∧ (∀ r, t.sq fn r = s.sq fn r ∧ t.oq fn r = s.oq fn r) ∧
        (t.fn fn).ring.tail = (s.fn fn).ring.tail ∧ Records s t ⟨.hst, 1⟩ .reportOnly .none [] ∧ Keeps reportParts s t)

/-- R637, R689, R690, Table 20.9: a watchdog, a request of the physical function or a return that does not come resets the
Handler alone: its mailbox commands end with RESULT 3, its tests end, the forecaster stops, and no context, route, engine
or ring changes; each time the agent that answers SMBus changes, both lines are released (R561); the third watchdog within
600 s holds it; on its return the pending area moves and HANDLER_RESET is set. -/
def Obligations.HandlerResetsAlone : Prop :=
  ∀ (s : State),
    (∀ i : Instr, s.hnd.updState = 0 →
      ((i = .handlerWatchdogExpiry ∧ s.handlerUp = true) ∨ (i = .handlerReturnTimeout ∧ s.handlerReturning = true)) →
      ∃ t, exec i s = .next t ∧ t.hnd.inReset = true ∧ t.hnd.running = false ∧ t.hnd.resets = satInc s.hnd.resets ∧
        t.hnd.watchdogs = satInc s.hnd.watchdogs ∧ t.thm.forecaster = false ∧
        (t.hnd.held = true ↔ 2 ≤ (s.hnd.wdTimes.filter fun x => s.now < x + 600000000000).length) ∧
        (∀ f, (s.fn f).mailbox.busy = true → (t.fn f).mailbox.busy = false ∧ (t.fn f).mailbox.done = true ∧
          (t.fn f).mailbox.result = 3) ∧ (∀ g, (t.core g).underTest = false) ∧ t.hrd.ctxs = s.hrd.ctxs ∧
        Keeps ([.hrd, .thm] ++ reportParts) s t) ∧
    (s.hostReach 0 = true → s.handlerUp = true → s.hnd.updState = 0 →
      ∃ t, exec (.handlerResetRequest 0) s = .next t ∧ t.hnd.inReset = true ∧ t.hnd.running = false ∧
        t.hnd.watchdogs = s.hnd.watchdogs ∧ t.hnd.resets = satInc s.hnd.resets ∧ t.sup.lastReset = 3 ∧
        s.out ++ [.smbusRelease] <+: t.out ∧
        Records s t ⟨.hnd, 2⟩ .reportOnly .none [] ∧ Keeps ([.hrd, .thm] ++ reportParts) s t) ∧
    (∀ b, s.handlerReturning = true → s.chooseBank = some (b, false) → s.cad.windowOpen = false → s.cad.fwOk = true →
      ∃ t, exec .handlerReturn s = .next t ∧ t.hnd.running = true ∧ t.hnd.inReset = false ∧ t.thm.forecaster = true ∧
        t.fb.pending = [] ∧ t.fb.pendingFences = [] ∧ t.erl.alert.getLsbD 2 = true ∧ t.cad.entries = s.cad.entries ∧
        s.out ++ [.smbusRelease] <+: t.out ∧
        Keeps ([.hrd, .thm] ++ reportParts) s t) ∧
    (s.handlerReturning = true → s.chooseBank = none →
      ∃ t, exec .handlerReturn s = .next t ∧ t.hnd.stuck = true ∧ t.hnd.inReset = true ∧
        Records s t ⟨.cad, 8⟩ .moduleFatal .none [] ∧ Keeps reportParts s t)

/-- R691, Table 20.10: GO while a command runs is a locked write, and while the Handler is absent it ends with RESULT 2; a
NOTE is recorded with the caller's words; a copy of events and an export lie at the destination in device memory, an export
that does not fit writes nothing; the answer stands with DONE when the command completes. -/
def Obligations.MailboxCommandsRun : Prop :=
  ∀ (s : State) (fn : Nat) (m : Mailbox), (s.fn fn).mailbox = m →
    (∀ (i : Instr) (code : Nat), s.hostReach fn = true →
      ((i = .fbCopy fn ∧ code = 1) ∨ (i = .fbExport fn ∧ code = 2) ∨ (i = .note fn ∧ code = 3)) →
      (m.busy = true →
        ∃ t, exec i s = .next t ∧ (t.fn fn).mailbox = m ∧ t.hnd.fieldLocked = true ∧
          Records s t ⟨.hnd, 5⟩ .reportOnly .none [0x2400014, 2 ^ 31 + code] ∧ Keeps reportParts s t) ∧
      (m.busy = false → s.hnd.running = false →
        ∃ t, exec i s = .next t ∧ (t.fn fn).mailbox = { m with code := BitVec.ofNat 8 code, done := true, result := 2 } ∧
          Keeps [.fns] s t)) ∧
    (s.hostReach fn = true → m.busy = false → s.hnd.running = true →
      ∃ t, exec (.note fn) s = .next t ∧ (t.fn fn).mailbox.busy = true ∧ (t.fn fn).mailbox.done = false ∧
        (t.fn fn).mailbox.todo = some (0, [0, 0, 0, 0]) ∧
        Records s t ⟨.erl, 8⟩ .reportOnly .none ((List.range 6).map fun k =>
          (m.args.getD (k / 2) 0).toNat / 2 ^ (32 * (k % 2)) % 2 ^ 32) ∧ Keeps reportParts s t) ∧
    (∀ a first count : Nat, s.hostReach 0 = true → fn = 0 → m.busy = false → s.hnd.running = true →
      a = (m.args.getD 0 0).toNat → first = (m.args.getD 2 0).toNat → count = (m.args.getD 3 0).toNat → s.mem.poison = [] →
      (a % 64 = 0 → (m.args.getD 1 0).toNat = 1 → 1 ≤ count → count ≤ 4096 → first + count ≤ s.fb.log.length →
        inDev a (s.eventBytes first count).length = true → s.cadDenied 0 a (s.eventBytes first count).length true = none →
        ∃ t, exec (.fbCopy 0) s = .next t ∧ t.mem.bytes = writeBytes s.mem.bytes a (s.eventBytes first count) ∧
          (t.fn 0).mailbox.todo = some (0, [BitVec.ofNat 64 (s.eventBytes first count).length, 0, 0, 0]) ∧
          Keeps [.fns, .mem, .hrd, .ec] s t) ∧
      (∀ r : DictRun, r = compressRun (DictCtx.first 0 12 0) true false true (m.args.getD 1 0).toNat
            (s.stateBlockBytes ++ s.eventBytes first count) → count ≤ 65536 → first + count ≤ s.fb.log.length →
        (r.full = true →
          ∃ t, exec (.fbExport 0) s = .next t ∧ t.mem = s.mem ∧ (t.fn 0).mailbox.todo = some (0, [0, 1, 0, 0]) ∧
            Keeps [.fns] s t) ∧
        (r.full = false → inDev a r.out.length = true → s.cadDenied 0 a r.out.length true = none →
          ∃ t, exec (.fbExport 0) s = .next t ∧ t.mem.bytes = writeBytes s.mem.bytes a r.out.reverse ∧
            Keeps [.fns, .mem, .hrd, .ec] s t))) ∧
    (∀ x : BitVec 4 × List DWord, s.alive = true → s.hnd.running = true → m.busy = true → m.todo = some x →
      ∃ t, exec (.mailboxComplete fn) s = .next t ∧
        (t.fn fn).mailbox = { m with rsp := x.2, result := x.1, done := true, busy := false, todo := none } ∧
        Keeps [.fns, .out] s t)

/-- The MCTP control commands (message type 0) and PLDM commands (message type 1) with the header bytes that follow the
instance ID in their answers. -/
def answersAs (i : Instr) (smbus : Bool) (b : List Byte) (type : Byte) (h : List Byte) : Prop :=
  (type = 0 ∧
    ((i = .mctpSetEndpointId smbus b ∧ h = [1]) ∨ (i = .mctpGetEndpointId smbus b ∧ h = [2]) ∨
     (i = .mctpGetEndpointUuid smbus b ∧ h = [3]) ∨ (i = .mctpGetVersionSupport smbus b ∧ h = [4]) ∨
     (i = .mctpGetMessageTypeSupport smbus b ∧ h = [5]))) ∨
  (type = 1 ∧
    ((i = .setTid smbus b ∧ h = [0, 1]) ∨ (i = .getTid smbus b ∧ h = [0, 2]) ∨ (i = .getPldmVersion smbus b ∧ h = [0, 3]) ∨
     (i = .getPldmTypes smbus b ∧ h = [0, 4]) ∨ (i = .getPldmCommands smbus b ∧ h = [0, 5]) ∨
     (i = .setEventReceiver smbus b ∧ h = [2, 4]) ∨ (i = .getSensorReading smbus b ∧ h = [2, 0x11]) ∨
     (i = .getStateSensorReadings smbus b ∧ h = [2, 0x21]) ∨ (i = .setStateEffecterStates smbus b ∧ h = [2, 0x39]) ∨
     (i = .pdrRepositoryCommand smbus b ∧ h = [2, b.getD 3 0])))

/-- R692 to R694, Table 20.11: while the Handler runs, every MCTP control and PLDM command is answered by one message on its
own transport, with the request's instance ID, and while it does not, none is; an endpoint ID and a terminus ID that are
set are those answered later; a malformed packet is counted, and a platform event is retired by its acknowledgement. -/
def Obligations.HandlerAnswersMessages : Prop :=
  ∀ (s : State) (smbus : Bool),
    (∀ (i : Instr) (b : List Byte) (type : Byte) (h : List Byte), answersAs i smbus b type h →
      (s.mctpUp smbus = true →
        ∃ t r, exec i s = .next t ∧
          t.out = s.out ++ [.mctp (transportOf smbus) ([type] ++ natLe 1 (byteAt b 1 % 32) ++ h ++ r)] ∧
          Keeps [.hnd, .erl, .out, .freeCount] s t) ∧
      (s.mctpUp smbus = false → exec i s = .next s)) ∧
    (∀ b : List Byte, s.mctpUp smbus = true → b.length = 5 → 1 ≤ byteAt b 4 → byteAt b 4 ≤ 254 →
      (byteAt b 3 % 4 < 2 →
        ∃ t, exec (.mctpSetEndpointId smbus b) s = .next t ∧
          (if smbus then t.hnd.eidSmbus = b.getD 4 0 ∧ t.hnd.eidPcie = s.hnd.eidPcie
           else t.hnd.eidPcie = b.getD 4 0 ∧ t.hnd.eidSmbus = s.hnd.eidSmbus)) ∧
      (∃ t, exec (.setTid smbus b) s = .next t ∧ t.hnd.tid = b.getD 4 0 ∧ Keeps [.hnd, .out] s t)) ∧
    (∀ b : List Byte, s.mctpUp smbus = true → leAt b 4 2 = 400 → byteAt b 6 = 13 → byteAt b (7 + 2 * 3) = 1 →
      ∃ t, exec (.setStateEffecterStates smbus b) s = .next t ∧ t.erl.alert.getLsbD 3 = false ∧
        t.erl.alert.getLsbD 0 = s.erl.alert.getLsbD 0) ∧
    (∀ b : List Byte, s.mctpUp smbus = true → byteAt b 5 = 0 → byteAt b 4 = 1 →
      ∃ t, exec (.setEventReceiver smbus b) s = .next t ∧ t.hnd.receiver = some (transportOf smbus, byteAt b 6) ∧
        Keeps [.hnd, .out] s t) ∧
    (s.alive = true → s.hnd.running = true →
      (∃ t, exec .mctpPacketError s = .next t ∧ t.hnd.pktErrors = satInc s.hnd.pktErrors ∧
        Records s t ⟨.hnd, 7⟩ .reportOnly .none [] ∧ Keeps reportParts s t) ∧
      (∀ n, ∃ t, exec (.platformEventAck n) s = .next t ∧ t.hnd.events = s.hnd.events.filter (fun e => e.id != n) ∧
        Keeps [.hnd] s t) ∧
      (∀ (n : Nat) (e : PldmEvent) (eid : Nat), s.hnd.events.find? (fun x => x.id == n) = some e →
        s.hnd.receiver = some (.smbus, eid) →
        (e.sends < 4 → ∃ t, exec (.platformEventRetry n) s = .next t ∧ t.out = s.out ++ [.mctp .smbus e.body] ∧
          Keeps [.hnd, .out] s t) ∧
        (4 ≤ e.sends → ∃ t, exec (.platformEventRetry n) s = .next t ∧
          t.hnd.events = s.hnd.events.filter (fun x => x.id != n) ∧ Keeps [.hnd] s t)))

/-! ### The Cadastre's verdict (chapter 18) -/

/-- R617, R621: until CAD_LOCK is set every access that touches a page is denied; after it, an access is admitted exactly when
on every page it touches the lowest-numbered non-empty entry that covers the page sets the requester's bit. -/
def Obligations.CadastreDecidesByLowestEntry : Prop :=
  ∀ (s : State) (cls a n : Nat) (w : Bool),
    (s.cad.locked = false → 0 < n → s.cadDenied cls a n w ≠ none) ∧
    (s.cad.locked = true →
      (s.cadDenied cls a n w = none ↔
        ∀ p, a / 4096 ≤ p → p * 4096 < a + n → 0 < n →
          ∃ (k : Nat) (e : CadEntry), s.cad.entries[k]? = some e ∧ e.pages ≠ 0 ∧ e.base.toNat ≤ p ∧
            p < e.base.toNat + e.pages.toNat ∧ e.grants cls w = true ∧
            ∀ (j : Nat) (d : CadEntry), j < k → s.cad.entries[j]? = some d →
              ¬(d.pages ≠ 0 ∧ d.base.toNat ≤ p ∧ p < d.base.toNat + d.pages.toNat)))

/-! ### The whole machine -/

/-- The model's queue of commands (assumption log 1): a step with a command at the front of the queue is that command's effect
on the state with the queue's rest. -/
def Obligations.StepRunsTheFrontCommand : Prop :=
  ∀ (c : Instr) (s : State), step (s.withFront c) = exec c s

/-- The model's clock (assumption log 2), with R519: a step on an empty queue lets one nanosecond pass: at the nominal rate
with nothing to slew the epoch clock counts one more while the rails are up, and nothing else changes but the powered
time. -/
def Obligations.IdleStepsLetTimePass : Prop :=
  ∀ (s : State), s.pending = [] →
    ∃ t, step s = .next t ∧ t.now = s.now + 1 ∧ t.pending = [] ∧ Keeps [.now, .pck, .fb] s t ∧
      (s.sup.mstate.powered = true → s.pck.epoch.ratePpb = 0 → s.pck.epoch.slew = 0 → s.pck.epoch.rem < 1000000000 →
        t.epoch = s.epoch + 1) ∧
      (s.sup.mstate.powered = false → t.pck = s.pck ∧ t.fb = s.fb)

/-- The reset values the spec states for a sample of every block, the retrieval channels' modes among them (1 for the local
channels 0 to 11 and 2 for 12 to 15): BOOT with the window open and the Cadastre unlocked and
empty, memory zero, no context, Pack IDLE, no ring enabled, profile Sprint, no alert, and the fields of Tables 7.10, 13.9,
15.9 and 19.7 with a reset value that is not 0. -/
def Obligations.ResetHoldsTheStatedValues : Prop :=
  State.reset.pending = [] ∧ State.reset.sup.mstate = .boot ∧ State.reset.sup.profile = 0 ∧
  State.reset.cad.windowOpen = true ∧ State.reset.cad.locked = false ∧ State.reset.cad.entries = [] ∧
  (∀ a, readByte State.reset.mem.bytes a = 0) ∧ (∀ g, State.reset.poisoned g = false) ∧ State.reset.mem.scrubHours = 24 ∧
  (∀ c, (State.reset.ctx c).st = .free) ∧ (∀ n, (State.reset.slot n).state = .empty) ∧
  (∀ ch, (ch < 64 → (State.reset.chan ch).mode = if ch % 16 < 12 then 1 else 2) ∧
    (State.reset.chan ch).phase = true ∧ (State.reset.chan ch).crecLog2 = 4) ∧
  (∀ f r, (State.reset.sq f r).kind = .disabled ∧ (State.reset.oq f r).en = false) ∧
  (∀ n, (State.reset.stream n).enable = false ∧ (State.reset.stream n).maxW = 1920 ∧ (State.reset.stream n).maxH = 1080 ∧
    (State.reset.stream n).jitMib = 4 ∧ (State.reset.stream n).pt = 96) ∧
  State.reset.pck.state = .idle ∧ State.reset.pck.formTimeout = 60 ∧ State.reset.erl.alert = 0 ∧
  State.reset.thm.limit = 102 ∧ State.reset.thm.fan = 100 ∧ State.reset.thm.forecaster = false ∧
  (∀ k, State.reset.tally k = 0)

/-- The invariant of the steps: device memory and tile memory are in the canonical form of their list of bytes. -/
def MemoryCanonical (s : State) : Prop := s.mem.wf = true

/-- The invariant holds at reset. -/
def Obligations.ResetMemoryIsCanonical : Prop := MemoryCanonical State.reset

/-- Every step, of whatever command, keeps memory in its canonical form: bytes by rising address and none equal to what an
unlisted address reads as (R246), so that two memories that read alike are one. -/
def Obligations.EveryStepKeepsMemoryCanonical : Prop :=
  (∀ (s t : State), MemoryCanonical s → step s = .next t → MemoryCanonical t) ∧
  (∀ (m n : List Host.Cell), cellsOk 0 m = true → cellsOk 0 n = true → (∀ a, readByte m a = readByte n a) → m = n)

/-- Every command goes on: it ends in a next state, never in a fault or a refusal, and leaves the queue, the fuses but for
the SV floor (R612) and the model's time as they were. -/
def Obligations.EveryCommandGoesOn : Prop :=
  ∀ (c : Instr) (s : State), ∃ t, exec c s = .next t ∧ t.pending = s.pending ∧ t.now = s.now ∧
    t.fuses = { s.fuses with svFloor := t.fuses.svFloor }

/-- R615, R618, R639: the entries of a locked Cadastre whose window has closed stand as they are, under every command, until
a reset of the module leaves it unlocked with no entry. -/
def Obligations.LockedCadastreStandsUntilReset : Prop :=
  ∀ (c : Instr) (s t : State), s.cad.locked = true → s.cad.windowOpen = false → exec c s = .next t →
    (t.cad.locked = true ∧ t.cad.windowOpen = false ∧ t.cad.entries = s.cad.entries) ∨
      (t.cad.locked = false ∧ t.cad.entries = [])
end

