-- ==== Sys2Proof/Laws/Dict.lean ====
section
/-!
SUPPORT. Laws/Dict.lean: what the compressor does to its bit queue and its output: a code, a byte and a frame fit a
capacity of 32 bits for each of them.
-/
namespace Sys2Proof.Machine

/-- The run holds less than a byte of its queue, and `k` more codes of 32 bits fit its capacity of `n` bytes. -/
def Roomy (n k : Nat) (r : DictRun) : Prop :=
  r.cap = n ∧ r.full = false ∧ r.ctx.policy = 0 ∧ r.ctx.qbits < 8 ∧ 8 * r.outLen + r.ctx.qbits + 32 * k ≤ 8 * n ∧
    r.out.length = r.outLen

theorem Roomy.out_le {n k : Nat} {r : DictRun} (h : Roomy n k r) : r.full = false ∧ r.out.length ≤ n := by
  obtain ⟨_, h1, _, _, h4, h5⟩ := h
  exact ⟨h1, by omega⟩

theorem bitLenFrom_le (v n b : Nat) : bitLenFrom v n b ≤ n + b := by
  induction n generalizing b with
  | zero => simp [bitLenFrom]
  | succ n ih =>
    rw [bitLenFrom]
    split
    · omega
    · have := ih (b + 1); omega

theorem codeWidth_le (k d : Nat) : codeWidth k d ≤ 32 := by
  have := bitLenFrom_le (min (257 + k) (d - 1)) 32 0
  rw [codeWidth]; omega

/-- Flushing moves whole bytes from the queue to the output, and leaves less than one where the capacity allows. -/
theorem DictRun.flush_spec (n : Nat) (r : DictRun) (h : 8 * r.outLen + r.ctx.qbits ≤ 8 * r.cap) (hq : r.ctx.qbits < 8 * n + 8)
    (ho : r.out.length = r.outLen) :
    (r.flush n).full = r.full ∧ (r.flush n).ctx.policy = r.ctx.policy ∧ (r.flush n).ctx.qbits < 8 ∧
      8 * (r.flush n).outLen + (r.flush n).ctx.qbits = 8 * r.outLen + r.ctx.qbits ∧ (r.flush n).cap = r.cap ∧
      (r.flush n).out.length = (r.flush n).outLen := by
  induction n generalizing r with
  | zero => exact ⟨rfl, rfl, by rw [DictRun.flush]; omega, rfl, rfl, ho⟩
  | succ n ih =>
    rw [DictRun.flush]
    split
    · next hc =>
      obtain ⟨h1, h2, h3, h4, h5, h6⟩ := ih { r with
        out := BitVec.ofNat 8 (r.ctx.qval % 256) :: r.out, outLen := r.outLen + 1
        ctx := { r.ctx with qbits := r.ctx.qbits - 8, qval := r.ctx.qval / 256 } } (by simp only; omega) (by simp only; omega)
          (by simp [ho])
      exact ⟨h1, h2, h3, by rw [h4]; simp only; omega, h5, h6⟩
    · next hc => exact ⟨rfl, rfl, by omega, rfl, rfl, ho⟩

/-- A code is put where there is room for it. -/
theorem DictRun.put_spec {n k : Nat} {r : DictRun} (code : Nat) (h : Roomy n (k + 1) r) :
    ∃ t, r.put code = some t ∧ Roomy n k t := by
  obtain ⟨h0, h1, h2, h3, h4, h5⟩ := h
  obtain ⟨a1, a2, a3, a4, a5, a6⟩ := DictRun.flush_spec 4 r (by omega) (by omega) h5
  rw [DictRun.put]
  generalize r.flush 4 = a at *
  dsimp only
  rw [if_neg (by omega)]
  have hw := codeWidth_le a.ctx.k a.ctx.size
  generalize hu : ({ a with ctx := { a.ctx with qval := a.ctx.qval + code * 2 ^ a.ctx.qbits
                                                qbits := a.ctx.qbits + codeWidth a.ctx.k a.ctx.size
                                                k := a.ctx.k + 1 } } : DictRun) = u
  have e : u.cap = a.cap ∧ u.full = a.full ∧ u.ctx.policy = a.ctx.policy ∧ u.outLen = a.outLen ∧ u.out = a.out ∧
      u.ctx.qbits = a.ctx.qbits + codeWidth a.ctx.k a.ctx.size := by
    subst hu; exact ⟨rfl, rfl, rfl, rfl, rfl, rfl⟩
  obtain ⟨e1, e2, e3, e4, e5, e6⟩ := e
  obtain ⟨b1, b2, b3, b4, b5, b6⟩ := DictRun.flush_spec 4 u (by omega) (by omega) (by rw [e5, e4, a6])
  generalize u.flush 4 = t at *
  exact ⟨t, rfl, by omega, by rw [b1, e2, a1, h1], by rw [b2, e3, a2, h2], b3, by omega, b6⟩

theorem DictRun.take_spec {n k : Nat} {r : DictRun} (c : Byte) (x : Nat) (h : Roomy n k r) : Roomy n k (r.take c x) := by
  rw [DictRun.take]
  obtain ⟨h0, h1, h2, h3, h4, h5⟩ := h
  exact ⟨h0, h1, h2, h3, h4, h5⟩

theorem DictRun.resetIfFull_spec {n k : Nat} {r : DictRun} (h : Roomy n k r) : r.resetIfFull = r := by
  rw [DictRun.resetIfFull, if_neg]
  rw [h.2.2.1]
  exact fun e => absurd e.1 (by decide)

theorem DictRun.byte_spec {n k : Nat} {r : DictRun} (c : Byte) (h : Roomy n (k + 1) r) : Roomy n k (r.byte c) := by
  have hk : Roomy n k r := ⟨h.1, h.2.1, h.2.2.1, h.2.2.2.1, by have := h.2.2.2.2.1; omega, h.2.2.2.2.2⟩
  rw [DictRun.byte, if_neg (by rw [h.2.1]; decide)]
  cases hp : r.ctx.phrase with
  | none => exact DictRun.take_spec c _ hk
  | some w =>
    dsimp only
    cases hl : lookupCode r.ctx.table r.ctx.nf w c.toNat with
    | some x => exact DictRun.take_spec c _ hk
    | none =>
      obtain ⟨t, ht, hr⟩ := DictRun.put_spec w h
      rw [ht]
      dsimp only
      generalize hu : (if t.ctx.nf < t.ctx.size then
        { t with ctx := { t.ctx with nf := t.ctx.nf + 1, table := (w, c.toNat) :: t.ctx.table } } else t) = u
      have hu' : Roomy n k u := by
        rw [← hu]
        by_cases hc : t.ctx.nf < t.ctx.size
        · rw [if_pos hc]; exact hr
        · rw [if_neg hc]; exact hr
      rw [DictRun.resetIfFull_spec hu', if_neg (by rw [hu'.2.1]; decide)]
      exact DictRun.take_spec c _ hu'

theorem bytes_spec {n k : Nat} (l : List Byte) {r : DictRun} (h : Roomy n (l.length + k) r) :
    Roomy n k (l.foldl (fun r c => r.byte c) r) := by
  induction l generalizing r with
  | nil => simpa using h
  | cons c l ih =>
    rw [List.foldl_cons]
    exact ih (DictRun.byte_spec c (by rwa [List.length_cons, Nat.add_right_comm] at h))

/-- Padding writes the last bits where a byte of capacity is left. -/
theorem DictRun.pad_spec {r : DictRun} (hq : r.ctx.qbits < 8) (hc : r.outLen < r.cap) (ho : r.out.length = r.outLen) :
    r.pad.full = r.full ∧ r.pad.ctx.qbits = 0 ∧ r.pad.outLen ≤ r.outLen + 1 ∧ r.pad.cap = r.cap ∧
      r.pad.out.length = r.pad.outLen := by
  rw [DictRun.pad]
  split
  · exact ⟨rfl, rfl, Nat.le_refl _, rfl, by simp [ho]⟩
  · next h => exact ⟨rfl, by omega, Nat.le_succ _, rfl, ho⟩

/-- The queue empties, its last byte padded, and the trailer of 12 bytes follows. -/
theorem DictRun.close_spec {r : DictRun} (h : r.full = false) (hb : r.ctx.qbits < 40)
    (hc : 8 * r.outLen + r.ctx.qbits + 104 ≤ 8 * r.cap) (ho : r.out.length = r.outLen) :
    r.close.full = false ∧ r.close.out.length ≤ r.cap := by
  obtain ⟨a1, _, a3, a4, a5, a6⟩ := DictRun.flush_spec 4 r (by omega) (by omega) ho
  obtain ⟨b1, b2, b3, b4, b5⟩ := DictRun.pad_spec a3 (by omega) a6
  rw [DictRun.close]
  generalize (r.flush 4).pad = u at *
  simp only
  rw [if_neg (by omega)]
  refine ⟨b1.trans (a1.trans h), ?_⟩
  simp only [List.length_append, List.length_reverse, DictCtx.trailer, b5]
  have e : (natLe 8 u.ctx.orig).length = 8 ∧ (natLe 4 (u.ctx.crc ^^^ 0xFFFFFFFF)).length = 4 := ⟨rfl, rfl⟩
  rw [e.1, e.2]
  omega

/-- END, the padding and the trailer. -/
theorem DictRun.end_spec {n k : Nat} {u : DictRun} (h : Roomy n (k + 5) u) : ∃ t, u.put 257 = some t ∧
    (DictRun.close { t with ctx := { t.ctx with st := 2 } }).full = false ∧
    (DictRun.close { t with ctx := { t.ctx with st := 2 } }).out.length ≤ n := by
  obtain ⟨t, ht, s0, s1, s2, s3, s4, s5⟩ := DictRun.put_spec 257 h
  have hc := DictRun.close_spec (r := { t with ctx := { t.ctx with st := 2 } }) s1
    (by simp only; omega) (by simp only; omega) s5
  exact ⟨t, ht, hc.1, s0 ▸ hc.2⟩

theorem DictRun.final_spec {n k : Nat} {r : DictRun} (h : Roomy n (k + 6) r) : r.final.full = false ∧ r.final.out.length ≤ n := by
  rw [DictRun.final, if_neg (by rw [h.2.1]; decide)]
  cases hp : r.ctx.phrase with
  | none =>
    have hr : Roomy n (k + 5) r := ⟨h.1, h.2.1, h.2.2.1, h.2.2.2.1, by have := h.2.2.2.2.1; omega, h.2.2.2.2.2⟩
    obtain ⟨t, ht, hc⟩ := DictRun.end_spec hr
    dsimp only
    rw [if_neg (by rw [h.2.1]; decide), ht]
    exact hc
  | some w =>
    obtain ⟨t, ht, hr⟩ := DictRun.put_spec w h
    have hr' : Roomy n (k + 5) { t with ctx := { t.ctx with phrase := none } } := hr
    obtain ⟨u, hu, hc⟩ := DictRun.end_spec hr'
    simp only [ht]
    rw [if_neg (by rw [hr.2.1]; decide), hu]
    exact hc

/-- A whole frame of a fresh context under the freeze policy, in a capacity of four bytes for each byte and 40 more. -/
theorem DictRun.frame_fits (l : List Byte) (n d : Nat) (h : 4 * l.length + 40 ≤ n) :
    (compressRun (DictCtx.first 0 d 0) true false true n l).full = false ∧
      (compressRun (DictCtx.first 0 d 0) true false true n l).out.length ≤ n := by
  have h0 : Roomy n (l.length + 6) {
      ctx := DictCtx.first 0 d 0, out := (natLe 4 0x54434450 ++ natLe 1 d ++ natLe 1 0 ++ natLe 2 0).reverse, outLen := 8
      cap := n, consumed := 0, full := false, bad := none } :=
    ⟨rfl, rfl, rfl, Nat.zero_lt_succ _, by show 8 * 8 + 0 + 32 * (l.length + 6) ≤ 8 * n; omega, rfl⟩
  have hb := bytes_spec l (k := 6) ((DictRun.resetIfFull_spec h0).symm ▸ h0)
  have hs : ¬(DictCtx.first 0 d 0).st = 2 := fun e => absurd e (show (1 : Nat) ≠ 2 by decide)
  rw [compressRun, if_neg hs]
  simp only [if_true, Bool.false_eq_true, if_false, true_and]
  split
  · exact DictRun.final_spec (k := 0) hb
  · exact hb.out_le

end Sys2Proof.Machine
end

