-- ==== Sys2Proof/Laws/State.lean ====
section
/-!
SUPPORT. Laws/State.lean: what each named update of the state does to each field, so that no proof unfolds an update.
-/
namespace Sys2Proof.Machine

section
variable (s : State) (f : Nat) (x : Fn)
@[simp] theorem State.setFn_pending : (s.setFn f x).pending = s.pending := rfl
@[simp] theorem State.setFn_now : (s.setFn f x).now = s.now := rfl
@[simp] theorem State.setFn_freeCount : (s.setFn f x).freeCount = s.freeCount := rfl
@[simp] theorem State.setFn_out : (s.setFn f x).out = s.out := rfl
@[simp] theorem State.setFn_fuses : (s.setFn f x).fuses = s.fuses := rfl
@[simp] theorem State.setFn_pins : (s.setFn f x).pins = s.pins := rfl
@[simp] theorem State.setFn_sup : (s.setFn f x).sup = s.sup := rfl
@[simp] theorem State.setFn_erl : (s.setFn f x).erl = s.erl := rfl
@[simp] theorem State.setFn_fb : (s.setFn f x).fb = s.fb := rfl
@[simp] theorem State.setFn_hnd : (s.setFn f x).hnd = s.hnd := rfl
@[simp] theorem State.setFn_cad : (s.setFn f x).cad = s.cad := rfl
@[simp] theorem State.setFn_mem : (s.setFn f x).mem = s.mem := rfl
@[simp] theorem State.setFn_fab : (s.setFn f x).fab = s.fab := rfl
@[simp] theorem State.setFn_svy : (s.setFn f x).svy = s.svy := rfl
@[simp] theorem State.setFn_hrd : (s.setFn f x).hrd = s.hrd := rfl
@[simp] theorem State.setFn_rtv : (s.setFn f x).rtv = s.rtv := rfl
@[simp] theorem State.setFn_sys : (s.setFn f x).sys = s.sys := rfl
@[simp] theorem State.setFn_ec : (s.setFn f x).ec = s.ec := rfl
@[simp] theorem State.setFn_dce : (s.setFn f x).dce = s.dce := rfl
@[simp] theorem State.setFn_ing : (s.setFn f x).ing = s.ing := rfl
@[simp] theorem State.setFn_hst : (s.setFn f x).hst = s.hst := rfl
@[simp] theorem State.setFn_pck : (s.setFn f x).pck = s.pck := rfl
@[simp] theorem State.setFn_thm : (s.setFn f x).thm = s.thm := rfl
@[simp] theorem State.setFn_fns : (s.setFn f x).fns = Tab.put s.fns f x := rfl
end

section
variable (s : State) (c : Nat) (x : Ctx)
@[simp] theorem State.setCtx_pending : (s.setCtx c x).pending = s.pending := rfl
@[simp] theorem State.setCtx_now : (s.setCtx c x).now = s.now := rfl
@[simp] theorem State.setCtx_freeCount : (s.setCtx c x).freeCount = s.freeCount := rfl
@[simp] theorem State.setCtx_out : (s.setCtx c x).out = s.out := rfl
@[simp] theorem State.setCtx_fuses : (s.setCtx c x).fuses = s.fuses := rfl
@[simp] theorem State.setCtx_pins : (s.setCtx c x).pins = s.pins := rfl
@[simp] theorem State.setCtx_sup : (s.setCtx c x).sup = s.sup := rfl
@[simp] theorem State.setCtx_erl : (s.setCtx c x).erl = s.erl := rfl
@[simp] theorem State.setCtx_fb : (s.setCtx c x).fb = s.fb := rfl
@[simp] theorem State.setCtx_hnd : (s.setCtx c x).hnd = s.hnd := rfl
@[simp] theorem State.setCtx_cad : (s.setCtx c x).cad = s.cad := rfl
@[simp] theorem State.setCtx_mem : (s.setCtx c x).mem = s.mem := rfl
@[simp] theorem State.setCtx_fab : (s.setCtx c x).fab = s.fab := rfl
@[simp] theorem State.setCtx_svy : (s.setCtx c x).svy = s.svy := rfl
@[simp] theorem State.setCtx_hrd : (s.setCtx c x).hrd = { s.hrd with ctxs := Tab.put s.hrd.ctxs c x } := rfl
@[simp] theorem State.setCtx_rtv : (s.setCtx c x).rtv = s.rtv := rfl
@[simp] theorem State.setCtx_sys : (s.setCtx c x).sys = s.sys := rfl
@[simp] theorem State.setCtx_ec : (s.setCtx c x).ec = s.ec := rfl
@[simp] theorem State.setCtx_dce : (s.setCtx c x).dce = s.dce := rfl
@[simp] theorem State.setCtx_ing : (s.setCtx c x).ing = s.ing := rfl
@[simp] theorem State.setCtx_hst : (s.setCtx c x).hst = s.hst := rfl
@[simp] theorem State.setCtx_pck : (s.setCtx c x).pck = s.pck := rfl
@[simp] theorem State.setCtx_thm : (s.setCtx c x).thm = s.thm := rfl
@[simp] theorem State.setCtx_fns : (s.setCtx c x).fns = s.fns := rfl
end

section
variable (s : State) (c : Nat) (x : Core)
@[simp] theorem State.setCore_pending : (s.setCore c x).pending = s.pending := rfl
@[simp] theorem State.setCore_now : (s.setCore c x).now = s.now := rfl
@[simp] theorem State.setCore_freeCount : (s.setCore c x).freeCount = s.freeCount := rfl
@[simp] theorem State.setCore_out : (s.setCore c x).out = s.out := rfl
@[simp] theorem State.setCore_fuses : (s.setCore c x).fuses = s.fuses := rfl
@[simp] theorem State.setCore_pins : (s.setCore c x).pins = s.pins := rfl
@[simp] theorem State.setCore_sup : (s.setCore c x).sup = s.sup := rfl
@[simp] theorem State.setCore_erl : (s.setCore c x).erl = s.erl := rfl
@[simp] theorem State.setCore_fb : (s.setCore c x).fb = s.fb := rfl
@[simp] theorem State.setCore_hnd : (s.setCore c x).hnd = s.hnd := rfl
@[simp] theorem State.setCore_cad : (s.setCore c x).cad = s.cad := rfl
@[simp] theorem State.setCore_mem : (s.setCore c x).mem = s.mem := rfl
@[simp] theorem State.setCore_fab : (s.setCore c x).fab = s.fab := rfl
@[simp] theorem State.setCore_svy : (s.setCore c x).svy = s.svy := rfl
@[simp] theorem State.setCore_hrd : (s.setCore c x).hrd = { s.hrd with cores := Tab.put s.hrd.cores c x } := rfl
@[simp] theorem State.setCore_rtv : (s.setCore c x).rtv = s.rtv := rfl
@[simp] theorem State.setCore_sys : (s.setCore c x).sys = s.sys := rfl
@[simp] theorem State.setCore_ec : (s.setCore c x).ec = s.ec := rfl
@[simp] theorem State.setCore_dce : (s.setCore c x).dce = s.dce := rfl
@[simp] theorem State.setCore_ing : (s.setCore c x).ing = s.ing := rfl
@[simp] theorem State.setCore_hst : (s.setCore c x).hst = s.hst := rfl
@[simp] theorem State.setCore_pck : (s.setCore c x).pck = s.pck := rfl
@[simp] theorem State.setCore_thm : (s.setCore c x).thm = s.thm := rfl
@[simp] theorem State.setCore_fns : (s.setCore c x).fns = s.fns := rfl
end

section
variable (s : State) (r : Nat) (x : Route)
@[simp] theorem State.setRoute_pending : (s.setRoute r x).pending = s.pending := rfl
@[simp] theorem State.setRoute_now : (s.setRoute r x).now = s.now := rfl
@[simp] theorem State.setRoute_freeCount : (s.setRoute r x).freeCount = s.freeCount := rfl
@[simp] theorem State.setRoute_out : (s.setRoute r x).out = s.out := rfl
@[simp] theorem State.setRoute_fuses : (s.setRoute r x).fuses = s.fuses := rfl
@[simp] theorem State.setRoute_pins : (s.setRoute r x).pins = s.pins := rfl
@[simp] theorem State.setRoute_sup : (s.setRoute r x).sup = s.sup := rfl
@[simp] theorem State.setRoute_erl : (s.setRoute r x).erl = s.erl := rfl
@[simp] theorem State.setRoute_fb : (s.setRoute r x).fb = s.fb := rfl
@[simp] theorem State.setRoute_hnd : (s.setRoute r x).hnd = s.hnd := rfl
@[simp] theorem State.setRoute_cad : (s.setRoute r x).cad = s.cad := rfl
@[simp] theorem State.setRoute_mem : (s.setRoute r x).mem = s.mem := rfl
@[simp] theorem State.setRoute_fab : (s.setRoute r x).fab = { s.fab with routes := Tab.put s.fab.routes r x } := rfl
@[simp] theorem State.setRoute_svy : (s.setRoute r x).svy = s.svy := rfl
@[simp] theorem State.setRoute_hrd : (s.setRoute r x).hrd = s.hrd := rfl
@[simp] theorem State.setRoute_rtv : (s.setRoute r x).rtv = s.rtv := rfl
@[simp] theorem State.setRoute_sys : (s.setRoute r x).sys = s.sys := rfl
@[simp] theorem State.setRoute_ec : (s.setRoute r x).ec = s.ec := rfl
@[simp] theorem State.setRoute_dce : (s.setRoute r x).dce = s.dce := rfl
@[simp] theorem State.setRoute_ing : (s.setRoute r x).ing = s.ing := rfl
@[simp] theorem State.setRoute_hst : (s.setRoute r x).hst = s.hst := rfl
@[simp] theorem State.setRoute_pck : (s.setRoute r x).pck = s.pck := rfl
@[simp] theorem State.setRoute_thm : (s.setRoute r x).thm = s.thm := rfl
@[simp] theorem State.setRoute_fns : (s.setRoute r x).fns = s.fns := rfl
end

section
variable (s : State) (r : Nat)
@[simp] theorem State.dropRoute_pending : (s.dropRoute r).pending = s.pending := rfl
@[simp] theorem State.dropRoute_now : (s.dropRoute r).now = s.now := rfl
@[simp] theorem State.dropRoute_freeCount : (s.dropRoute r).freeCount = s.freeCount := rfl
@[simp] theorem State.dropRoute_out : (s.dropRoute r).out = s.out := rfl
@[simp] theorem State.dropRoute_fuses : (s.dropRoute r).fuses = s.fuses := rfl
@[simp] theorem State.dropRoute_pins : (s.dropRoute r).pins = s.pins := rfl
@[simp] theorem State.dropRoute_sup : (s.dropRoute r).sup = s.sup := rfl
@[simp] theorem State.dropRoute_erl : (s.dropRoute r).erl = s.erl := rfl
@[simp] theorem State.dropRoute_fb : (s.dropRoute r).fb = s.fb := rfl
@[simp] theorem State.dropRoute_hnd : (s.dropRoute r).hnd = s.hnd := rfl
@[simp] theorem State.dropRoute_cad : (s.dropRoute r).cad = s.cad := rfl
@[simp] theorem State.dropRoute_mem : (s.dropRoute r).mem = s.mem := rfl
@[simp] theorem State.dropRoute_fab : (s.dropRoute r).fab = { s.fab with routes := Tab.erase s.fab.routes r } := rfl
@[simp] theorem State.dropRoute_svy : (s.dropRoute r).svy = s.svy := rfl
@[simp] theorem State.dropRoute_hrd : (s.dropRoute r).hrd = s.hrd := rfl
@[simp] theorem State.dropRoute_rtv : (s.dropRoute r).rtv = s.rtv := rfl
@[simp] theorem State.dropRoute_sys : (s.dropRoute r).sys = s.sys := rfl
@[simp] theorem State.dropRoute_ec : (s.dropRoute r).ec = s.ec := rfl
@[simp] theorem State.dropRoute_dce : (s.dropRoute r).dce = s.dce := rfl
@[simp] theorem State.dropRoute_ing : (s.dropRoute r).ing = s.ing := rfl
@[simp] theorem State.dropRoute_hst : (s.dropRoute r).hst = s.hst := rfl
@[simp] theorem State.dropRoute_pck : (s.dropRoute r).pck = s.pck := rfl
@[simp] theorem State.dropRoute_thm : (s.dropRoute r).thm = s.thm := rfl
@[simp] theorem State.dropRoute_fns : (s.dropRoute r).fns = s.fns := rfl
end

section
variable (s : State) (q : Nat) (x : Quarter)
@[simp] theorem State.setQuarter_pending : (s.setQuarter q x).pending = s.pending := rfl
@[simp] theorem State.setQuarter_now : (s.setQuarter q x).now = s.now := rfl
@[simp] theorem State.setQuarter_freeCount : (s.setQuarter q x).freeCount = s.freeCount := rfl
@[simp] theorem State.setQuarter_out : (s.setQuarter q x).out = s.out := rfl
@[simp] theorem State.setQuarter_fuses : (s.setQuarter q x).fuses = s.fuses := rfl
@[simp] theorem State.setQuarter_pins : (s.setQuarter q x).pins = s.pins := rfl
@[simp] theorem State.setQuarter_sup : (s.setQuarter q x).sup = s.sup := rfl
@[simp] theorem State.setQuarter_erl : (s.setQuarter q x).erl = s.erl := rfl
@[simp] theorem State.setQuarter_fb : (s.setQuarter q x).fb = s.fb := rfl
@[simp] theorem State.setQuarter_hnd : (s.setQuarter q x).hnd = s.hnd := rfl
@[simp] theorem State.setQuarter_cad : (s.setQuarter q x).cad = s.cad := rfl
@[simp] theorem State.setQuarter_mem : (s.setQuarter q x).mem = s.mem := rfl
@[simp] theorem State.setQuarter_fab : (s.setQuarter q x).fab = { s.fab with quarters := Tab.put s.fab.quarters q x } := rfl
@[simp] theorem State.setQuarter_svy : (s.setQuarter q x).svy = s.svy := rfl
@[simp] theorem State.setQuarter_hrd : (s.setQuarter q x).hrd = s.hrd := rfl
@[simp] theorem State.setQuarter_rtv : (s.setQuarter q x).rtv = s.rtv := rfl
@[simp] theorem State.setQuarter_sys : (s.setQuarter q x).sys = s.sys := rfl
@[simp] theorem State.setQuarter_ec : (s.setQuarter q x).ec = s.ec := rfl
@[simp] theorem State.setQuarter_dce : (s.setQuarter q x).dce = s.dce := rfl
@[simp] theorem State.setQuarter_ing : (s.setQuarter q x).ing = s.ing := rfl
@[simp] theorem State.setQuarter_hst : (s.setQuarter q x).hst = s.hst := rfl
@[simp] theorem State.setQuarter_pck : (s.setQuarter q x).pck = s.pck := rfl
@[simp] theorem State.setQuarter_thm : (s.setQuarter q x).thm = s.thm := rfl
@[simp] theorem State.setQuarter_fns : (s.setQuarter q x).fns = s.fns := rfl
end

section
variable (s : State) (n : Nat) (x : Slot)
@[simp] theorem State.setSlot_pending : (s.setSlot n x).pending = s.pending := rfl
@[simp] theorem State.setSlot_now : (s.setSlot n x).now = s.now := rfl
@[simp] theorem State.setSlot_freeCount : (s.setSlot n x).freeCount = s.freeCount := rfl
@[simp] theorem State.setSlot_out : (s.setSlot n x).out = s.out := rfl
@[simp] theorem State.setSlot_fuses : (s.setSlot n x).fuses = s.fuses := rfl
@[simp] theorem State.setSlot_pins : (s.setSlot n x).pins = s.pins := rfl
@[simp] theorem State.setSlot_sup : (s.setSlot n x).sup = s.sup := rfl
@[simp] theorem State.setSlot_erl : (s.setSlot n x).erl = s.erl := rfl
@[simp] theorem State.setSlot_fb : (s.setSlot n x).fb = s.fb := rfl
@[simp] theorem State.setSlot_hnd : (s.setSlot n x).hnd = s.hnd := rfl
@[simp] theorem State.setSlot_cad : (s.setSlot n x).cad = s.cad := rfl
@[simp] theorem State.setSlot_mem : (s.setSlot n x).mem = s.mem := rfl
@[simp] theorem State.setSlot_fab : (s.setSlot n x).fab = s.fab := rfl
@[simp] theorem State.setSlot_svy : (s.setSlot n x).svy = { s.svy with slots := Tab.put s.svy.slots n x } := rfl
@[simp] theorem State.setSlot_hrd : (s.setSlot n x).hrd = s.hrd := rfl
@[simp] theorem State.setSlot_rtv : (s.setSlot n x).rtv = s.rtv := rfl
@[simp] theorem State.setSlot_sys : (s.setSlot n x).sys = s.sys := rfl
@[simp] theorem State.setSlot_ec : (s.setSlot n x).ec = s.ec := rfl
@[simp] theorem State.setSlot_dce : (s.setSlot n x).dce = s.dce := rfl
@[simp] theorem State.setSlot_ing : (s.setSlot n x).ing = s.ing := rfl
@[simp] theorem State.setSlot_hst : (s.setSlot n x).hst = s.hst := rfl
@[simp] theorem State.setSlot_pck : (s.setSlot n x).pck = s.pck := rfl
@[simp] theorem State.setSlot_thm : (s.setSlot n x).thm = s.thm := rfl
@[simp] theorem State.setSlot_fns : (s.setSlot n x).fns = s.fns := rfl
end

section
variable (s : State) (n : Nat) (x : Chan)
@[simp] theorem State.setChan_pending : (s.setChan n x).pending = s.pending := rfl
@[simp] theorem State.setChan_now : (s.setChan n x).now = s.now := rfl
@[simp] theorem State.setChan_freeCount : (s.setChan n x).freeCount = s.freeCount := rfl
@[simp] theorem State.setChan_out : (s.setChan n x).out = s.out := rfl
@[simp] theorem State.setChan_fuses : (s.setChan n x).fuses = s.fuses := rfl
@[simp] theorem State.setChan_pins : (s.setChan n x).pins = s.pins := rfl
@[simp] theorem State.setChan_sup : (s.setChan n x).sup = s.sup := rfl
@[simp] theorem State.setChan_erl : (s.setChan n x).erl = s.erl := rfl
@[simp] theorem State.setChan_fb : (s.setChan n x).fb = s.fb := rfl
@[simp] theorem State.setChan_hnd : (s.setChan n x).hnd = s.hnd := rfl
@[simp] theorem State.setChan_cad : (s.setChan n x).cad = s.cad := rfl
@[simp] theorem State.setChan_mem : (s.setChan n x).mem = s.mem := rfl
@[simp] theorem State.setChan_fab : (s.setChan n x).fab = s.fab := rfl
@[simp] theorem State.setChan_svy : (s.setChan n x).svy = s.svy := rfl
@[simp] theorem State.setChan_hrd : (s.setChan n x).hrd = s.hrd := rfl
@[simp] theorem State.setChan_rtv : (s.setChan n x).rtv = { s.rtv with chans := Tab.put s.rtv.chans n x } := rfl
@[simp] theorem State.setChan_sys : (s.setChan n x).sys = s.sys := rfl
@[simp] theorem State.setChan_ec : (s.setChan n x).ec = s.ec := rfl
@[simp] theorem State.setChan_dce : (s.setChan n x).dce = s.dce := rfl
@[simp] theorem State.setChan_ing : (s.setChan n x).ing = s.ing := rfl
@[simp] theorem State.setChan_hst : (s.setChan n x).hst = s.hst := rfl
@[simp] theorem State.setChan_pck : (s.setChan n x).pck = s.pck := rfl
@[simp] theorem State.setChan_thm : (s.setChan n x).thm = s.thm := rfl
@[simp] theorem State.setChan_fns : (s.setChan n x).fns = s.fns := rfl
end

section
variable (s : State) (n : Nat) (x : EcEngine)
@[simp] theorem State.setEcEngine_pending : (s.setEcEngine n x).pending = s.pending := rfl
@[simp] theorem State.setEcEngine_now : (s.setEcEngine n x).now = s.now := rfl
@[simp] theorem State.setEcEngine_freeCount : (s.setEcEngine n x).freeCount = s.freeCount := rfl
@[simp] theorem State.setEcEngine_out : (s.setEcEngine n x).out = s.out := rfl
@[simp] theorem State.setEcEngine_fuses : (s.setEcEngine n x).fuses = s.fuses := rfl
@[simp] theorem State.setEcEngine_pins : (s.setEcEngine n x).pins = s.pins := rfl
@[simp] theorem State.setEcEngine_sup : (s.setEcEngine n x).sup = s.sup := rfl
@[simp] theorem State.setEcEngine_erl : (s.setEcEngine n x).erl = s.erl := rfl
@[simp] theorem State.setEcEngine_fb : (s.setEcEngine n x).fb = s.fb := rfl
@[simp] theorem State.setEcEngine_hnd : (s.setEcEngine n x).hnd = s.hnd := rfl
@[simp] theorem State.setEcEngine_cad : (s.setEcEngine n x).cad = s.cad := rfl
@[simp] theorem State.setEcEngine_mem : (s.setEcEngine n x).mem = s.mem := rfl
@[simp] theorem State.setEcEngine_fab : (s.setEcEngine n x).fab = s.fab := rfl
@[simp] theorem State.setEcEngine_svy : (s.setEcEngine n x).svy = s.svy := rfl
@[simp] theorem State.setEcEngine_hrd : (s.setEcEngine n x).hrd = s.hrd := rfl
@[simp] theorem State.setEcEngine_rtv : (s.setEcEngine n x).rtv = s.rtv := rfl
@[simp] theorem State.setEcEngine_sys : (s.setEcEngine n x).sys = s.sys := rfl
@[simp] theorem State.setEcEngine_ec : (s.setEcEngine n x).ec = { s.ec with engines := Tab.put s.ec.engines n x } := rfl
@[simp] theorem State.setEcEngine_dce : (s.setEcEngine n x).dce = s.dce := rfl
@[simp] theorem State.setEcEngine_ing : (s.setEcEngine n x).ing = s.ing := rfl
@[simp] theorem State.setEcEngine_hst : (s.setEcEngine n x).hst = s.hst := rfl
@[simp] theorem State.setEcEngine_pck : (s.setEcEngine n x).pck = s.pck := rfl
@[simp] theorem State.setEcEngine_thm : (s.setEcEngine n x).thm = s.thm := rfl
@[simp] theorem State.setEcEngine_fns : (s.setEcEngine n x).fns = s.fns := rfl
end

section
variable (s : State) (n : Nat) (x : DceEngine)
@[simp] theorem State.setDceEngine_pending : (s.setDceEngine n x).pending = s.pending := rfl
@[simp] theorem State.setDceEngine_now : (s.setDceEngine n x).now = s.now := rfl
@[simp] theorem State.setDceEngine_freeCount : (s.setDceEngine n x).freeCount = s.freeCount := rfl
@[simp] theorem State.setDceEngine_out : (s.setDceEngine n x).out = s.out := rfl
@[simp] theorem State.setDceEngine_fuses : (s.setDceEngine n x).fuses = s.fuses := rfl
@[simp] theorem State.setDceEngine_pins : (s.setDceEngine n x).pins = s.pins := rfl
@[simp] theorem State.setDceEngine_sup : (s.setDceEngine n x).sup = s.sup := rfl
@[simp] theorem State.setDceEngine_erl : (s.setDceEngine n x).erl = s.erl := rfl
@[simp] theorem State.setDceEngine_fb : (s.setDceEngine n x).fb = s.fb := rfl
@[simp] theorem State.setDceEngine_hnd : (s.setDceEngine n x).hnd = s.hnd := rfl
@[simp] theorem State.setDceEngine_cad : (s.setDceEngine n x).cad = s.cad := rfl
@[simp] theorem State.setDceEngine_mem : (s.setDceEngine n x).mem = s.mem := rfl
@[simp] theorem State.setDceEngine_fab : (s.setDceEngine n x).fab = s.fab := rfl
@[simp] theorem State.setDceEngine_svy : (s.setDceEngine n x).svy = s.svy := rfl
@[simp] theorem State.setDceEngine_hrd : (s.setDceEngine n x).hrd = s.hrd := rfl
@[simp] theorem State.setDceEngine_rtv : (s.setDceEngine n x).rtv = s.rtv := rfl
@[simp] theorem State.setDceEngine_sys : (s.setDceEngine n x).sys = s.sys := rfl
@[simp] theorem State.setDceEngine_ec : (s.setDceEngine n x).ec = s.ec := rfl
@[simp] theorem State.setDceEngine_dce : (s.setDceEngine n x).dce = { s.dce with engines := Tab.put s.dce.engines n x } := rfl
@[simp] theorem State.setDceEngine_ing : (s.setDceEngine n x).ing = s.ing := rfl
@[simp] theorem State.setDceEngine_hst : (s.setDceEngine n x).hst = s.hst := rfl
@[simp] theorem State.setDceEngine_pck : (s.setDceEngine n x).pck = s.pck := rfl
@[simp] theorem State.setDceEngine_thm : (s.setDceEngine n x).thm = s.thm := rfl
@[simp] theorem State.setDceEngine_fns : (s.setDceEngine n x).fns = s.fns := rfl
end

section
variable (s : State) (p : Nat) (x : Port)
@[simp] theorem State.setPort_pending : (s.setPort p x).pending = s.pending := rfl
@[simp] theorem State.setPort_now : (s.setPort p x).now = s.now := rfl
@[simp] theorem State.setPort_freeCount : (s.setPort p x).freeCount = s.freeCount := rfl
@[simp] theorem State.setPort_out : (s.setPort p x).out = s.out := rfl
@[simp] theorem State.setPort_fuses : (s.setPort p x).fuses = s.fuses := rfl
@[simp] theorem State.setPort_pins : (s.setPort p x).pins = s.pins := rfl
@[simp] theorem State.setPort_sup : (s.setPort p x).sup = s.sup := rfl
@[simp] theorem State.setPort_erl : (s.setPort p x).erl = s.erl := rfl
@[simp] theorem State.setPort_fb : (s.setPort p x).fb = s.fb := rfl
@[simp] theorem State.setPort_hnd : (s.setPort p x).hnd = s.hnd := rfl
@[simp] theorem State.setPort_cad : (s.setPort p x).cad = s.cad := rfl
@[simp] theorem State.setPort_mem : (s.setPort p x).mem = s.mem := rfl
@[simp] theorem State.setPort_fab : (s.setPort p x).fab = s.fab := rfl
@[simp] theorem State.setPort_svy : (s.setPort p x).svy = s.svy := rfl
@[simp] theorem State.setPort_hrd : (s.setPort p x).hrd = s.hrd := rfl
@[simp] theorem State.setPort_rtv : (s.setPort p x).rtv = s.rtv := rfl
@[simp] theorem State.setPort_sys : (s.setPort p x).sys = s.sys := rfl
@[simp] theorem State.setPort_ec : (s.setPort p x).ec = s.ec := rfl
@[simp] theorem State.setPort_dce : (s.setPort p x).dce = s.dce := rfl
@[simp] theorem State.setPort_ing : (s.setPort p x).ing = { s.ing with ports := Tab.put s.ing.ports p x } := rfl
@[simp] theorem State.setPort_hst : (s.setPort p x).hst = s.hst := rfl
@[simp] theorem State.setPort_pck : (s.setPort p x).pck = s.pck := rfl
@[simp] theorem State.setPort_thm : (s.setPort p x).thm = s.thm := rfl
@[simp] theorem State.setPort_fns : (s.setPort p x).fns = s.fns := rfl
end

section
variable (s : State) (n : Nat) (x : Stream)
@[simp] theorem State.setStream_pending : (s.setStream n x).pending = s.pending := rfl
@[simp] theorem State.setStream_now : (s.setStream n x).now = s.now := rfl
@[simp] theorem State.setStream_freeCount : (s.setStream n x).freeCount = s.freeCount := rfl
@[simp] theorem State.setStream_out : (s.setStream n x).out = s.out := rfl
@[simp] theorem State.setStream_fuses : (s.setStream n x).fuses = s.fuses := rfl
@[simp] theorem State.setStream_pins : (s.setStream n x).pins = s.pins := rfl
@[simp] theorem State.setStream_sup : (s.setStream n x).sup = s.sup := rfl
@[simp] theorem State.setStream_erl : (s.setStream n x).erl = s.erl := rfl
@[simp] theorem State.setStream_fb : (s.setStream n x).fb = s.fb := rfl
@[simp] theorem State.setStream_hnd : (s.setStream n x).hnd = s.hnd := rfl
@[simp] theorem State.setStream_cad : (s.setStream n x).cad = s.cad := rfl
@[simp] theorem State.setStream_mem : (s.setStream n x).mem = s.mem := rfl
@[simp] theorem State.setStream_fab : (s.setStream n x).fab = s.fab := rfl
@[simp] theorem State.setStream_svy : (s.setStream n x).svy = s.svy := rfl
@[simp] theorem State.setStream_hrd : (s.setStream n x).hrd = s.hrd := rfl
@[simp] theorem State.setStream_rtv : (s.setStream n x).rtv = s.rtv := rfl
@[simp] theorem State.setStream_sys : (s.setStream n x).sys = s.sys := rfl
@[simp] theorem State.setStream_ec : (s.setStream n x).ec = s.ec := rfl
@[simp] theorem State.setStream_dce : (s.setStream n x).dce = s.dce := rfl
@[simp] theorem State.setStream_ing : (s.setStream n x).ing = { s.ing with streams := Tab.put s.ing.streams n x } := rfl
@[simp] theorem State.setStream_hst : (s.setStream n x).hst = s.hst := rfl
@[simp] theorem State.setStream_pck : (s.setStream n x).pck = s.pck := rfl
@[simp] theorem State.setStream_thm : (s.setStream n x).thm = s.thm := rfl
@[simp] theorem State.setStream_fns : (s.setStream n x).fns = s.fns := rfl
end

section
variable (s : State) (n : Nat) (x : Decoder)
@[simp] theorem State.setDecoder_pending : (s.setDecoder n x).pending = s.pending := rfl
@[simp] theorem State.setDecoder_now : (s.setDecoder n x).now = s.now := rfl
@[simp] theorem State.setDecoder_freeCount : (s.setDecoder n x).freeCount = s.freeCount := rfl
@[simp] theorem State.setDecoder_out : (s.setDecoder n x).out = s.out := rfl
@[simp] theorem State.setDecoder_fuses : (s.setDecoder n x).fuses = s.fuses := rfl
@[simp] theorem State.setDecoder_pins : (s.setDecoder n x).pins = s.pins := rfl
@[simp] theorem State.setDecoder_sup : (s.setDecoder n x).sup = s.sup := rfl
@[simp] theorem State.setDecoder_erl : (s.setDecoder n x).erl = s.erl := rfl
@[simp] theorem State.setDecoder_fb : (s.setDecoder n x).fb = s.fb := rfl
@[simp] theorem State.setDecoder_hnd : (s.setDecoder n x).hnd = s.hnd := rfl
@[simp] theorem State.setDecoder_cad : (s.setDecoder n x).cad = s.cad := rfl
@[simp] theorem State.setDecoder_mem : (s.setDecoder n x).mem = s.mem := rfl
@[simp] theorem State.setDecoder_fab : (s.setDecoder n x).fab = s.fab := rfl
@[simp] theorem State.setDecoder_svy : (s.setDecoder n x).svy = s.svy := rfl
@[simp] theorem State.setDecoder_hrd : (s.setDecoder n x).hrd = s.hrd := rfl
@[simp] theorem State.setDecoder_rtv : (s.setDecoder n x).rtv = s.rtv := rfl
@[simp] theorem State.setDecoder_sys : (s.setDecoder n x).sys = s.sys := rfl
@[simp] theorem State.setDecoder_ec : (s.setDecoder n x).ec = s.ec := rfl
@[simp] theorem State.setDecoder_dce : (s.setDecoder n x).dce = s.dce := rfl
@[simp] theorem State.setDecoder_ing : (s.setDecoder n x).ing = { s.ing with decoders := Tab.put s.ing.decoders n x } := rfl
@[simp] theorem State.setDecoder_hst : (s.setDecoder n x).hst = s.hst := rfl
@[simp] theorem State.setDecoder_pck : (s.setDecoder n x).pck = s.pck := rfl
@[simp] theorem State.setDecoder_thm : (s.setDecoder n x).thm = s.thm := rfl
@[simp] theorem State.setDecoder_fns : (s.setDecoder n x).fns = s.fns := rfl
end

section
variable (s : State) (p : Nat) (x : PckPort)
@[simp] theorem State.setLink_pending : (s.setLink p x).pending = s.pending := rfl
@[simp] theorem State.setLink_now : (s.setLink p x).now = s.now := rfl
@[simp] theorem State.setLink_freeCount : (s.setLink p x).freeCount = s.freeCount := rfl
@[simp] theorem State.setLink_out : (s.setLink p x).out = s.out := rfl
@[simp] theorem State.setLink_fuses : (s.setLink p x).fuses = s.fuses := rfl
@[simp] theorem State.setLink_pins : (s.setLink p x).pins = s.pins := rfl
@[simp] theorem State.setLink_sup : (s.setLink p x).sup = s.sup := rfl
@[simp] theorem State.setLink_erl : (s.setLink p x).erl = s.erl := rfl
@[simp] theorem State.setLink_fb : (s.setLink p x).fb = s.fb := rfl
@[simp] theorem State.setLink_hnd : (s.setLink p x).hnd = s.hnd := rfl
@[simp] theorem State.setLink_cad : (s.setLink p x).cad = s.cad := rfl
@[simp] theorem State.setLink_mem : (s.setLink p x).mem = s.mem := rfl
@[simp] theorem State.setLink_fab : (s.setLink p x).fab = s.fab := rfl
@[simp] theorem State.setLink_svy : (s.setLink p x).svy = s.svy := rfl
@[simp] theorem State.setLink_hrd : (s.setLink p x).hrd = s.hrd := rfl
@[simp] theorem State.setLink_rtv : (s.setLink p x).rtv = s.rtv := rfl
@[simp] theorem State.setLink_sys : (s.setLink p x).sys = s.sys := rfl
@[simp] theorem State.setLink_ec : (s.setLink p x).ec = s.ec := rfl
@[simp] theorem State.setLink_dce : (s.setLink p x).dce = s.dce := rfl
@[simp] theorem State.setLink_ing : (s.setLink p x).ing = s.ing := rfl
@[simp] theorem State.setLink_hst : (s.setLink p x).hst = s.hst := rfl
@[simp] theorem State.setLink_pck : (s.setLink p x).pck = { s.pck with ports := Tab.put s.pck.ports p x } := rfl
@[simp] theorem State.setLink_thm : (s.setLink p x).thm = s.thm := rfl
@[simp] theorem State.setLink_fns : (s.setLink p x).fns = s.fns := rfl
end

section
variable (s : State) (j : Nat) (x : Job)
@[simp] theorem State.setJob_pending : (s.setJob j x).pending = s.pending := rfl
@[simp] theorem State.setJob_now : (s.setJob j x).now = s.now := rfl
@[simp] theorem State.setJob_freeCount : (s.setJob j x).freeCount = s.freeCount := rfl
@[simp] theorem State.setJob_out : (s.setJob j x).out = s.out := rfl
@[simp] theorem State.setJob_fuses : (s.setJob j x).fuses = s.fuses := rfl
@[simp] theorem State.setJob_pins : (s.setJob j x).pins = s.pins := rfl
@[simp] theorem State.setJob_sup : (s.setJob j x).sup = s.sup := rfl
@[simp] theorem State.setJob_erl : (s.setJob j x).erl = s.erl := rfl
@[simp] theorem State.setJob_fb : (s.setJob j x).fb = s.fb := rfl
@[simp] theorem State.setJob_hnd : (s.setJob j x).hnd = s.hnd := rfl
@[simp] theorem State.setJob_cad : (s.setJob j x).cad = s.cad := rfl
@[simp] theorem State.setJob_mem : (s.setJob j x).mem = s.mem := rfl
@[simp] theorem State.setJob_fab : (s.setJob j x).fab = s.fab := rfl
@[simp] theorem State.setJob_svy : (s.setJob j x).svy = s.svy := rfl
@[simp] theorem State.setJob_hrd : (s.setJob j x).hrd = s.hrd := rfl
@[simp] theorem State.setJob_rtv : (s.setJob j x).rtv = s.rtv := rfl
@[simp] theorem State.setJob_sys : (s.setJob j x).sys = s.sys := rfl
@[simp] theorem State.setJob_ec : (s.setJob j x).ec = s.ec := rfl
@[simp] theorem State.setJob_dce : (s.setJob j x).dce = s.dce := rfl
@[simp] theorem State.setJob_ing : (s.setJob j x).ing = s.ing := rfl
@[simp] theorem State.setJob_hst : (s.setJob j x).hst = s.hst := rfl
@[simp] theorem State.setJob_pck : (s.setJob j x).pck = { s.pck with jobs := Tab.put s.pck.jobs j x } := rfl
@[simp] theorem State.setJob_thm : (s.setJob j x).thm = s.thm := rfl
@[simp] theorem State.setJob_fns : (s.setJob j x).fns = s.fns := rfl
end

section
variable (s : State) (u : Nat) (x : ThmUnit)
@[simp] theorem State.setThmUnit_pending : (s.setThmUnit u x).pending = s.pending := rfl
@[simp] theorem State.setThmUnit_now : (s.setThmUnit u x).now = s.now := rfl
@[simp] theorem State.setThmUnit_freeCount : (s.setThmUnit u x).freeCount = s.freeCount := rfl
@[simp] theorem State.setThmUnit_out : (s.setThmUnit u x).out = s.out := rfl
@[simp] theorem State.setThmUnit_fuses : (s.setThmUnit u x).fuses = s.fuses := rfl
@[simp] theorem State.setThmUnit_pins : (s.setThmUnit u x).pins = s.pins := rfl
@[simp] theorem State.setThmUnit_sup : (s.setThmUnit u x).sup = s.sup := rfl
@[simp] theorem State.setThmUnit_erl : (s.setThmUnit u x).erl = s.erl := rfl
@[simp] theorem State.setThmUnit_fb : (s.setThmUnit u x).fb = s.fb := rfl
@[simp] theorem State.setThmUnit_hnd : (s.setThmUnit u x).hnd = s.hnd := rfl
@[simp] theorem State.setThmUnit_cad : (s.setThmUnit u x).cad = s.cad := rfl
@[simp] theorem State.setThmUnit_mem : (s.setThmUnit u x).mem = s.mem := rfl
@[simp] theorem State.setThmUnit_fab : (s.setThmUnit u x).fab = s.fab := rfl
@[simp] theorem State.setThmUnit_svy : (s.setThmUnit u x).svy = s.svy := rfl
@[simp] theorem State.setThmUnit_hrd : (s.setThmUnit u x).hrd = s.hrd := rfl
@[simp] theorem State.setThmUnit_rtv : (s.setThmUnit u x).rtv = s.rtv := rfl
@[simp] theorem State.setThmUnit_sys : (s.setThmUnit u x).sys = s.sys := rfl
@[simp] theorem State.setThmUnit_ec : (s.setThmUnit u x).ec = s.ec := rfl
@[simp] theorem State.setThmUnit_dce : (s.setThmUnit u x).dce = s.dce := rfl
@[simp] theorem State.setThmUnit_ing : (s.setThmUnit u x).ing = s.ing := rfl
@[simp] theorem State.setThmUnit_hst : (s.setThmUnit u x).hst = s.hst := rfl
@[simp] theorem State.setThmUnit_pck : (s.setThmUnit u x).pck = s.pck := rfl
@[simp] theorem State.setThmUnit_thm : (s.setThmUnit u x).thm = { s.thm with units := Tab.put s.thm.units u x } := rfl
@[simp] theorem State.setThmUnit_fns : (s.setThmUnit u x).fns = s.fns := rfl
end

section
variable (s : State) (o : Out)
@[simp] theorem State.emit_pending : (s.emit o).pending = s.pending := rfl
@[simp] theorem State.emit_now : (s.emit o).now = s.now := rfl
@[simp] theorem State.emit_freeCount : (s.emit o).freeCount = s.freeCount := rfl
@[simp] theorem State.emit_out : (s.emit o).out = s.out ++ [o] := rfl
@[simp] theorem State.emit_fuses : (s.emit o).fuses = s.fuses := rfl
@[simp] theorem State.emit_pins : (s.emit o).pins = s.pins := rfl
@[simp] theorem State.emit_sup : (s.emit o).sup = s.sup := rfl
@[simp] theorem State.emit_erl : (s.emit o).erl = s.erl := rfl
@[simp] theorem State.emit_fb : (s.emit o).fb = s.fb := rfl
@[simp] theorem State.emit_hnd : (s.emit o).hnd = s.hnd := rfl
@[simp] theorem State.emit_cad : (s.emit o).cad = s.cad := rfl
@[simp] theorem State.emit_mem : (s.emit o).mem = s.mem := rfl
@[simp] theorem State.emit_fab : (s.emit o).fab = s.fab := rfl
@[simp] theorem State.emit_svy : (s.emit o).svy = s.svy := rfl
@[simp] theorem State.emit_hrd : (s.emit o).hrd = s.hrd := rfl
@[simp] theorem State.emit_rtv : (s.emit o).rtv = s.rtv := rfl
@[simp] theorem State.emit_sys : (s.emit o).sys = s.sys := rfl
@[simp] theorem State.emit_ec : (s.emit o).ec = s.ec := rfl
@[simp] theorem State.emit_dce : (s.emit o).dce = s.dce := rfl
@[simp] theorem State.emit_ing : (s.emit o).ing = s.ing := rfl
@[simp] theorem State.emit_hst : (s.emit o).hst = s.hst := rfl
@[simp] theorem State.emit_pck : (s.emit o).pck = s.pck := rfl
@[simp] theorem State.emit_thm : (s.emit o).thm = s.thm := rfl
@[simp] theorem State.emit_fns : (s.emit o).fns = s.fns := rfl
end

section
variable (s : State) 
@[simp] theorem State.takeFree_pending : (s.takeFree).pending = s.pending := rfl
@[simp] theorem State.takeFree_now : (s.takeFree).now = s.now := rfl
@[simp] theorem State.takeFree_freeCount : (s.takeFree).freeCount = s.freeCount + 1 := rfl
@[simp] theorem State.takeFree_out : (s.takeFree).out = s.out := rfl
@[simp] theorem State.takeFree_fuses : (s.takeFree).fuses = s.fuses := rfl
@[simp] theorem State.takeFree_pins : (s.takeFree).pins = s.pins := rfl
@[simp] theorem State.takeFree_sup : (s.takeFree).sup = s.sup := rfl
@[simp] theorem State.takeFree_erl : (s.takeFree).erl = s.erl := rfl
@[simp] theorem State.takeFree_fb : (s.takeFree).fb = s.fb := rfl
@[simp] theorem State.takeFree_hnd : (s.takeFree).hnd = s.hnd := rfl
@[simp] theorem State.takeFree_cad : (s.takeFree).cad = s.cad := rfl
@[simp] theorem State.takeFree_mem : (s.takeFree).mem = s.mem := rfl
@[simp] theorem State.takeFree_fab : (s.takeFree).fab = s.fab := rfl
@[simp] theorem State.takeFree_svy : (s.takeFree).svy = s.svy := rfl
@[simp] theorem State.takeFree_hrd : (s.takeFree).hrd = s.hrd := rfl
@[simp] theorem State.takeFree_rtv : (s.takeFree).rtv = s.rtv := rfl
@[simp] theorem State.takeFree_sys : (s.takeFree).sys = s.sys := rfl
@[simp] theorem State.takeFree_ec : (s.takeFree).ec = s.ec := rfl
@[simp] theorem State.takeFree_dce : (s.takeFree).dce = s.dce := rfl
@[simp] theorem State.takeFree_ing : (s.takeFree).ing = s.ing := rfl
@[simp] theorem State.takeFree_hst : (s.takeFree).hst = s.hst := rfl
@[simp] theorem State.takeFree_pck : (s.takeFree).pck = s.pck := rfl
@[simp] theorem State.takeFree_thm : (s.takeFree).thm = s.thm := rfl
@[simp] theorem State.takeFree_fns : (s.takeFree).fns = s.fns := rfl
end

section
variable (s : State) (a : Nat) (d : List Byte)
@[simp] theorem State.writeTile_pending : (s.writeTile a d).pending = s.pending := rfl
@[simp] theorem State.writeTile_now : (s.writeTile a d).now = s.now := rfl
@[simp] theorem State.writeTile_freeCount : (s.writeTile a d).freeCount = s.freeCount := rfl
@[simp] theorem State.writeTile_out : (s.writeTile a d).out = s.out := rfl
@[simp] theorem State.writeTile_fuses : (s.writeTile a d).fuses = s.fuses := rfl
@[simp] theorem State.writeTile_pins : (s.writeTile a d).pins = s.pins := rfl
@[simp] theorem State.writeTile_sup : (s.writeTile a d).sup = s.sup := rfl
@[simp] theorem State.writeTile_erl : (s.writeTile a d).erl = s.erl := rfl
@[simp] theorem State.writeTile_fb : (s.writeTile a d).fb = s.fb := rfl
@[simp] theorem State.writeTile_hnd : (s.writeTile a d).hnd = s.hnd := rfl
@[simp] theorem State.writeTile_cad : (s.writeTile a d).cad = s.cad := rfl
@[simp] theorem State.writeTile_mem : (s.writeTile a d).mem = { s.mem with tile := writeBytes s.mem.tile a d } := rfl
@[simp] theorem State.writeTile_fab : (s.writeTile a d).fab = s.fab := rfl
@[simp] theorem State.writeTile_svy : (s.writeTile a d).svy = s.svy := rfl
@[simp] theorem State.writeTile_hrd : (s.writeTile a d).hrd = s.hrd := rfl
@[simp] theorem State.writeTile_rtv : (s.writeTile a d).rtv = s.rtv := rfl
@[simp] theorem State.writeTile_sys : (s.writeTile a d).sys = s.sys := rfl
@[simp] theorem State.writeTile_ec : (s.writeTile a d).ec = s.ec := rfl
@[simp] theorem State.writeTile_dce : (s.writeTile a d).dce = s.dce := rfl
@[simp] theorem State.writeTile_ing : (s.writeTile a d).ing = s.ing := rfl
@[simp] theorem State.writeTile_hst : (s.writeTile a d).hst = s.hst := rfl
@[simp] theorem State.writeTile_pck : (s.writeTile a d).pck = s.pck := rfl
@[simp] theorem State.writeTile_thm : (s.writeTile a d).thm = s.thm := rfl
@[simp] theorem State.writeTile_fns : (s.writeTile a d).fns = s.fns := rfl
end

section
variable (s : State) (a : Nat) (d : List Byte)
@[simp] theorem State.writeDev_pending : (s.writeDev a d).pending = s.pending := rfl
@[simp] theorem State.writeDev_now : (s.writeDev a d).now = s.now := rfl
@[simp] theorem State.writeDev_freeCount : (s.writeDev a d).freeCount = s.freeCount := rfl
@[simp] theorem State.writeDev_out : (s.writeDev a d).out = s.out := rfl
@[simp] theorem State.writeDev_fuses : (s.writeDev a d).fuses = s.fuses := rfl
@[simp] theorem State.writeDev_pins : (s.writeDev a d).pins = s.pins := rfl
@[simp] theorem State.writeDev_sup : (s.writeDev a d).sup = s.sup := rfl
@[simp] theorem State.writeDev_erl : (s.writeDev a d).erl = s.erl := rfl
@[simp] theorem State.writeDev_fb : (s.writeDev a d).fb = s.fb := rfl
@[simp] theorem State.writeDev_hnd : (s.writeDev a d).hnd = s.hnd := rfl
@[simp] theorem State.writeDev_cad : (s.writeDev a d).cad = s.cad := rfl
@[simp] theorem State.writeDev_fab : (s.writeDev a d).fab = s.fab := rfl
@[simp] theorem State.writeDev_svy : (s.writeDev a d).svy = s.svy := rfl
@[simp] theorem State.writeDev_hrd : (s.writeDev a d).hrd = s.hrd := rfl
@[simp] theorem State.writeDev_rtv : (s.writeDev a d).rtv = s.rtv := rfl
@[simp] theorem State.writeDev_sys : (s.writeDev a d).sys = s.sys := rfl
@[simp] theorem State.writeDev_ec : (s.writeDev a d).ec = s.ec := rfl
@[simp] theorem State.writeDev_dce : (s.writeDev a d).dce = s.dce := rfl
@[simp] theorem State.writeDev_ing : (s.writeDev a d).ing = s.ing := rfl
@[simp] theorem State.writeDev_hst : (s.writeDev a d).hst = s.hst := rfl
@[simp] theorem State.writeDev_pck : (s.writeDev a d).pck = s.pck := rfl
@[simp] theorem State.writeDev_thm : (s.writeDev a d).thm = s.thm := rfl
@[simp] theorem State.writeDev_fns : (s.writeDev a d).fns = s.fns := rfl
end

section
variable (s : State) (k : Nat) (v : Word)
@[simp] theorem State.setTally_pending : (s.setTally k v).pending = s.pending := rfl
@[simp] theorem State.setTally_now : (s.setTally k v).now = s.now := rfl
@[simp] theorem State.setTally_freeCount : (s.setTally k v).freeCount = s.freeCount := rfl
@[simp] theorem State.setTally_out : (s.setTally k v).out = s.out := rfl
@[simp] theorem State.setTally_fuses : (s.setTally k v).fuses = s.fuses := rfl
@[simp] theorem State.setTally_pins : (s.setTally k v).pins = s.pins := rfl
@[simp] theorem State.setTally_sup : (s.setTally k v).sup = s.sup := rfl
@[simp] theorem State.setTally_erl : (s.setTally k v).erl = s.erl := rfl
@[simp] theorem State.setTally_fb : (s.setTally k v).fb = s.fb := rfl
@[simp] theorem State.setTally_hnd : (s.setTally k v).hnd = s.hnd := rfl
@[simp] theorem State.setTally_cad : (s.setTally k v).cad = s.cad := rfl
@[simp] theorem State.setTally_mem : (s.setTally k v).mem = { s.mem with tallies := Tab.put s.mem.tallies k v } := rfl
@[simp] theorem State.setTally_fab : (s.setTally k v).fab = s.fab := rfl
@[simp] theorem State.setTally_svy : (s.setTally k v).svy = s.svy := rfl
@[simp] theorem State.setTally_hrd : (s.setTally k v).hrd = s.hrd := rfl
@[simp] theorem State.setTally_rtv : (s.setTally k v).rtv = s.rtv := rfl
@[simp] theorem State.setTally_sys : (s.setTally k v).sys = s.sys := rfl
@[simp] theorem State.setTally_ec : (s.setTally k v).ec = s.ec := rfl
@[simp] theorem State.setTally_dce : (s.setTally k v).dce = s.dce := rfl
@[simp] theorem State.setTally_ing : (s.setTally k v).ing = s.ing := rfl
@[simp] theorem State.setTally_hst : (s.setTally k v).hst = s.hst := rfl
@[simp] theorem State.setTally_pck : (s.setTally k v).pck = s.pck := rfl
@[simp] theorem State.setTally_thm : (s.setTally k v).thm = s.thm := rfl
@[simp] theorem State.setTally_fns : (s.setTally k v).fns = s.fns := rfl
end

@[simp] theorem State.modFn_eq (s : State) (n : Nat) (g : Fn → Fn) : s.modFn n g = s.setFn n (g (s.fn n)) := rfl
@[simp] theorem State.modCtx_eq (s : State) (n : Nat) (g : Ctx → Ctx) : s.modCtx n g = s.setCtx n (g (s.ctx n)) := rfl
@[simp] theorem State.modCore_eq (s : State) (n : Nat) (g : Core → Core) : s.modCore n g = s.setCore n (g (s.core n)) := rfl
@[simp] theorem State.modQuarter_eq (s : State) (n : Nat) (g : Quarter → Quarter) : s.modQuarter n g = s.setQuarter n (g (s.quarter n)) := rfl
@[simp] theorem State.modChan_eq (s : State) (n : Nat) (g : Chan → Chan) : s.modChan n g = s.setChan n (g (s.chan n)) := rfl
@[simp] theorem State.modStream_eq (s : State) (n : Nat) (g : Stream → Stream) : s.modStream n g = s.setStream n (g (s.stream n)) := rfl
@[simp] theorem State.modLink_eq (s : State) (n : Nat) (g : PckPort → PckPort) : s.modLink n g = s.setLink n (g (s.link n)) := rfl
@[simp] theorem State.modJob_eq (s : State) (n : Nat) (g : Job → Job) : s.modJob n g = s.setJob n (g (s.job n)) := rfl

section
variable (s : State) (b : Bool) (o : Out)
@[simp] theorem State.emitIf_pending : (s.emitIf b o).pending = s.pending := by unfold State.emitIf; split <;> rfl
@[simp] theorem State.emitIf_now : (s.emitIf b o).now = s.now := by unfold State.emitIf; split <;> rfl
@[simp] theorem State.emitIf_freeCount : (s.emitIf b o).freeCount = s.freeCount := by unfold State.emitIf; split <;> rfl
@[simp] theorem State.emitIf_fuses : (s.emitIf b o).fuses = s.fuses := by unfold State.emitIf; split <;> rfl
@[simp] theorem State.emitIf_pins : (s.emitIf b o).pins = s.pins := by unfold State.emitIf; split <;> rfl
@[simp] theorem State.emitIf_sup : (s.emitIf b o).sup = s.sup := by unfold State.emitIf; split <;> rfl
@[simp] theorem State.emitIf_erl : (s.emitIf b o).erl = s.erl := by unfold State.emitIf; split <;> rfl
@[simp] theorem State.emitIf_fb : (s.emitIf b o).fb = s.fb := by unfold State.emitIf; split <;> rfl
@[simp] theorem State.emitIf_hnd : (s.emitIf b o).hnd = s.hnd := by unfold State.emitIf; split <;> rfl
@[simp] theorem State.emitIf_cad : (s.emitIf b o).cad = s.cad := by unfold State.emitIf; split <;> rfl
@[simp] theorem State.emitIf_mem : (s.emitIf b o).mem = s.mem := by unfold State.emitIf; split <;> rfl
@[simp] theorem State.emitIf_fab : (s.emitIf b o).fab = s.fab := by unfold State.emitIf; split <;> rfl
@[simp] theorem State.emitIf_svy : (s.emitIf b o).svy = s.svy := by unfold State.emitIf; split <;> rfl
@[simp] theorem State.emitIf_hrd : (s.emitIf b o).hrd = s.hrd := by unfold State.emitIf; split <;> rfl
@[simp] theorem State.emitIf_rtv : (s.emitIf b o).rtv = s.rtv := by unfold State.emitIf; split <;> rfl
@[simp] theorem State.emitIf_sys : (s.emitIf b o).sys = s.sys := by unfold State.emitIf; split <;> rfl
@[simp] theorem State.emitIf_ec : (s.emitIf b o).ec = s.ec := by unfold State.emitIf; split <;> rfl
@[simp] theorem State.emitIf_dce : (s.emitIf b o).dce = s.dce := by unfold State.emitIf; split <;> rfl
@[simp] theorem State.emitIf_ing : (s.emitIf b o).ing = s.ing := by unfold State.emitIf; split <;> rfl
@[simp] theorem State.emitIf_hst : (s.emitIf b o).hst = s.hst := by unfold State.emitIf; split <;> rfl
@[simp] theorem State.emitIf_pck : (s.emitIf b o).pck = s.pck := by unfold State.emitIf; split <;> rfl
@[simp] theorem State.emitIf_thm : (s.emitIf b o).thm = s.thm := by unfold State.emitIf; split <;> rfl
@[simp] theorem State.emitIf_fns : (s.emitIf b o).fns = s.fns := by unfold State.emitIf; split <;> rfl
end

section
variable (s : State) (f a : Nat) (d : List Byte)
@[simp] theorem State.hostWrite_pending : (s.hostWrite f a d).pending = s.pending := by simp [State.hostWrite]
@[simp] theorem State.hostWrite_now : (s.hostWrite f a d).now = s.now := by simp [State.hostWrite]
@[simp] theorem State.hostWrite_freeCount : (s.hostWrite f a d).freeCount = s.freeCount := by simp [State.hostWrite]
@[simp] theorem State.hostWrite_fuses : (s.hostWrite f a d).fuses = s.fuses := by simp [State.hostWrite]
@[simp] theorem State.hostWrite_pins : (s.hostWrite f a d).pins = s.pins := by simp [State.hostWrite]
@[simp] theorem State.hostWrite_sup : (s.hostWrite f a d).sup = s.sup := by simp [State.hostWrite]
@[simp] theorem State.hostWrite_erl : (s.hostWrite f a d).erl = s.erl := by simp [State.hostWrite]
@[simp] theorem State.hostWrite_fb : (s.hostWrite f a d).fb = s.fb := by simp [State.hostWrite]
@[simp] theorem State.hostWrite_hnd : (s.hostWrite f a d).hnd = s.hnd := by simp [State.hostWrite]
@[simp] theorem State.hostWrite_cad : (s.hostWrite f a d).cad = s.cad := by simp [State.hostWrite]
@[simp] theorem State.hostWrite_mem : (s.hostWrite f a d).mem = s.mem := by simp [State.hostWrite]
@[simp] theorem State.hostWrite_fab : (s.hostWrite f a d).fab = s.fab := by simp [State.hostWrite]
@[simp] theorem State.hostWrite_svy : (s.hostWrite f a d).svy = s.svy := by simp [State.hostWrite]
@[simp] theorem State.hostWrite_hrd : (s.hostWrite f a d).hrd = s.hrd := by simp [State.hostWrite]
@[simp] theorem State.hostWrite_rtv : (s.hostWrite f a d).rtv = s.rtv := by simp [State.hostWrite]
@[simp] theorem State.hostWrite_sys : (s.hostWrite f a d).sys = s.sys := by simp [State.hostWrite]
@[simp] theorem State.hostWrite_ec : (s.hostWrite f a d).ec = s.ec := by simp [State.hostWrite]
@[simp] theorem State.hostWrite_dce : (s.hostWrite f a d).dce = s.dce := by simp [State.hostWrite]
@[simp] theorem State.hostWrite_ing : (s.hostWrite f a d).ing = s.ing := by simp [State.hostWrite]
@[simp] theorem State.hostWrite_hst : (s.hostWrite f a d).hst = s.hst := by simp [State.hostWrite]
@[simp] theorem State.hostWrite_pck : (s.hostWrite f a d).pck = s.pck := by simp [State.hostWrite]
@[simp] theorem State.hostWrite_thm : (s.hostWrite f a d).thm = s.thm := by simp [State.hostWrite]
@[simp] theorem State.hostWrite_fns : (s.hostWrite f a d).fns = s.fns := by simp [State.hostWrite]
end

section
variable (s : State) (a : Nat) (d : List Byte)
@[simp] theorem State.write_pending : (s.write a d).pending = s.pending := by unfold State.write; split <;> rfl
@[simp] theorem State.write_now : (s.write a d).now = s.now := by unfold State.write; split <;> rfl
@[simp] theorem State.write_freeCount : (s.write a d).freeCount = s.freeCount := by unfold State.write; split <;> rfl
@[simp] theorem State.write_out : (s.write a d).out = s.out := by unfold State.write; split <;> rfl
@[simp] theorem State.write_fuses : (s.write a d).fuses = s.fuses := by unfold State.write; split <;> rfl
@[simp] theorem State.write_pins : (s.write a d).pins = s.pins := by unfold State.write; split <;> rfl
@[simp] theorem State.write_sup : (s.write a d).sup = s.sup := by unfold State.write; split <;> rfl
@[simp] theorem State.write_erl : (s.write a d).erl = s.erl := by unfold State.write; split <;> rfl
@[simp] theorem State.write_fb : (s.write a d).fb = s.fb := by unfold State.write; split <;> rfl
@[simp] theorem State.write_hnd : (s.write a d).hnd = s.hnd := by unfold State.write; split <;> rfl
@[simp] theorem State.write_cad : (s.write a d).cad = s.cad := by unfold State.write; split <;> rfl
@[simp] theorem State.write_fab : (s.write a d).fab = s.fab := by unfold State.write; split <;> rfl
@[simp] theorem State.write_svy : (s.write a d).svy = s.svy := by unfold State.write; split <;> rfl
@[simp] theorem State.write_hrd : (s.write a d).hrd = s.hrd := by unfold State.write; split <;> rfl
@[simp] theorem State.write_rtv : (s.write a d).rtv = s.rtv := by unfold State.write; split <;> rfl
@[simp] theorem State.write_sys : (s.write a d).sys = s.sys := by unfold State.write; split <;> rfl
@[simp] theorem State.write_ec : (s.write a d).ec = s.ec := by unfold State.write; split <;> rfl
@[simp] theorem State.write_dce : (s.write a d).dce = s.dce := by unfold State.write; split <;> rfl
@[simp] theorem State.write_ing : (s.write a d).ing = s.ing := by unfold State.write; split <;> rfl
@[simp] theorem State.write_hst : (s.write a d).hst = s.hst := by unfold State.write; split <;> rfl
@[simp] theorem State.write_pck : (s.write a d).pck = s.pck := by unfold State.write; split <;> rfl
@[simp] theorem State.write_thm : (s.write a d).thm = s.thm := by unfold State.write; split <;> rfl
@[simp] theorem State.write_fns : (s.write a d).fns = s.fns := by unfold State.write; split <;> rfl
end

section
variable (s : State) (f v : Nat)
@[simp] theorem State.msix_pending : (s.msix f v).pending = s.pending := by unfold State.msix; dsimp only; split; rfl; split <;> rfl
@[simp] theorem State.msix_now : (s.msix f v).now = s.now := by unfold State.msix; dsimp only; split; rfl; split <;> rfl
@[simp] theorem State.msix_freeCount : (s.msix f v).freeCount = s.freeCount := by unfold State.msix; dsimp only; split; rfl; split <;> rfl
@[simp] theorem State.msix_fuses : (s.msix f v).fuses = s.fuses := by unfold State.msix; dsimp only; split; rfl; split <;> rfl
@[simp] theorem State.msix_pins : (s.msix f v).pins = s.pins := by unfold State.msix; dsimp only; split; rfl; split <;> rfl
@[simp] theorem State.msix_sup : (s.msix f v).sup = s.sup := by unfold State.msix; dsimp only; split; rfl; split <;> rfl
@[simp] theorem State.msix_erl : (s.msix f v).erl = s.erl := by unfold State.msix; dsimp only; split; rfl; split <;> rfl
@[simp] theorem State.msix_fb : (s.msix f v).fb = s.fb := by unfold State.msix; dsimp only; split; rfl; split <;> rfl
@[simp] theorem State.msix_hnd : (s.msix f v).hnd = s.hnd := by unfold State.msix; dsimp only; split; rfl; split <;> rfl
@[simp] theorem State.msix_cad : (s.msix f v).cad = s.cad := by unfold State.msix; dsimp only; split; rfl; split <;> rfl
@[simp] theorem State.msix_mem : (s.msix f v).mem = s.mem := by unfold State.msix; dsimp only; split; rfl; split <;> rfl
@[simp] theorem State.msix_fab : (s.msix f v).fab = s.fab := by unfold State.msix; dsimp only; split; rfl; split <;> rfl
@[simp] theorem State.msix_svy : (s.msix f v).svy = s.svy := by unfold State.msix; dsimp only; split; rfl; split <;> rfl
@[simp] theorem State.msix_hrd : (s.msix f v).hrd = s.hrd := by unfold State.msix; dsimp only; split; rfl; split <;> rfl
@[simp] theorem State.msix_rtv : (s.msix f v).rtv = s.rtv := by unfold State.msix; dsimp only; split; rfl; split <;> rfl
@[simp] theorem State.msix_sys : (s.msix f v).sys = s.sys := by unfold State.msix; dsimp only; split; rfl; split <;> rfl
@[simp] theorem State.msix_ec : (s.msix f v).ec = s.ec := by unfold State.msix; dsimp only; split; rfl; split <;> rfl
@[simp] theorem State.msix_dce : (s.msix f v).dce = s.dce := by unfold State.msix; dsimp only; split; rfl; split <;> rfl
@[simp] theorem State.msix_ing : (s.msix f v).ing = s.ing := by unfold State.msix; dsimp only; split; rfl; split <;> rfl
@[simp] theorem State.msix_hst : (s.msix f v).hst = s.hst := by unfold State.msix; dsimp only; split; rfl; split <;> rfl
@[simp] theorem State.msix_pck : (s.msix f v).pck = s.pck := by unfold State.msix; dsimp only; split; rfl; split <;> rfl
@[simp] theorem State.msix_thm : (s.msix f v).thm = s.thm := by unfold State.msix; dsimp only; split; rfl; split <;> rfl
end

end Sys2Proof.Machine
end

