-- ==== Sys2Proof/Laws/Tab.lean ====
section
/-!
SUPPORT. Laws/Tab.lean: reading a keyed table after writing it.
-/
namespace Sys2Proof.Machine

@[simp] theorem Tab.find?_put_same {α : Type} (t : Tab α) (a : Nat) (x : α) : Tab.find? (Tab.put t a x) a = some x := by
  induction t with
  | nil => simp [Tab.put, Tab.find?]
  | cons p r ih =>
    obtain ⟨k, v⟩ := p
    simp only [Tab.put]
    split
    · simp [Tab.find?, *]
    · split
      · simp [Tab.find?]
      · simp [Tab.find?, *]

theorem Tab.find?_put_other {α : Type} (t : Tab α) (a b : Nat) (x : α) (h : b ≠ a) :
    Tab.find? (Tab.put t a x) b = Tab.find? t b := by
  induction t with
  | nil => simp [Tab.put, Tab.find?, Ne.symm h]
  | cons p r ih =>
    obtain ⟨k, v⟩ := p
    simp only [Tab.put]
    split
    · subst_vars; simp [Tab.find?, Ne.symm h]
    · split
      · simp [Tab.find?, Ne.symm h]
      · simp only [Tab.find?, ih]

@[simp] theorem Tab.getD_put_same {α : Type} (t : Tab α) (a : Nat) (x d : α) : Tab.getD (Tab.put t a x) a d = x := by
  simp [Tab.getD]

theorem Tab.getD_put_other {α : Type} (t : Tab α) (a b : Nat) (x d : α) (h : b ≠ a) :
    Tab.getD (Tab.put t a x) b d = Tab.getD t b d := by
  simp [Tab.getD, Tab.find?_put_other t a b x h]

@[simp] theorem Tab.find?_mapVal {α : Type} (g : Nat → α → α) (t : Tab α) (a : Nat) :
    Tab.find? (Tab.mapVal g t) a = (Tab.find? t a).map (g a) := by
  induction t with
  | nil => rfl
  | cons p r ih =>
    obtain ⟨k, v⟩ := p
    simp only [Tab.mapVal, List.map_cons, Tab.find?] at *
    split
    · subst_vars; rfl
    · exact ih

theorem Tab.find?_erase_same {α : Type} (t : Tab α) (a : Nat) : Tab.find? (Tab.erase t a) a = none := by
  simp only [Tab.erase]
  induction t with
  | nil => rfl
  | cons p r ih =>
    obtain ⟨k, v⟩ := p
    by_cases h : k = a
    · simp only [List.filter_cons, h, ne_eq, not_true, decide_false, Bool.false_eq_true, if_false]; exact ih
    · simp only [List.filter_cons, ne_eq, h, not_false_iff, decide_true, if_true, Tab.find?, if_false]; exact ih

theorem Tab.find?_erase_other {α : Type} (t : Tab α) (a b : Nat) (h : b ≠ a) :
    Tab.find? (Tab.erase t a) b = Tab.find? t b := by
  simp only [Tab.erase]
  induction t with
  | nil => rfl
  | cons p r ih =>
    obtain ⟨k, v⟩ := p
    by_cases hk : k = a
    · simp only [List.filter_cons, hk, ne_eq, not_true, decide_false, Bool.false_eq_true, if_false, Tab.find?, Ne.symm h]
      exact ih
    · simp only [List.filter_cons, ne_eq, hk, not_false_iff, decide_true, if_true, Tab.find?]
      rw [show List.filter (fun p => decide (¬p.1 = a)) r = List.filter (fun p => decide (p.1 ≠ a)) r from rfl, ih]

/-! What the readers of the replicated state answer after their writers -/

@[simp] theorem State.fn_setFn (s : State) (f : Nat) (x : Fn) : (s.setFn f x).fn f = x := by simp [State.fn, State.setFn]
@[simp] theorem State.ctx_setCtx (s : State) (c : Nat) (x : Ctx) : (s.setCtx c x).ctx c = x := by simp [State.ctx, State.setCtx]
@[simp] theorem State.core_setCore (s : State) (c : Nat) (x : Core) : (s.setCore c x).core c = x := by
  simp [State.core, State.setCore]
@[simp] theorem State.route?_setRoute (s : State) (r : Nat) (x : Route) : (s.setRoute r x).route? r = some x := by
  simp [State.route?, State.setRoute]
@[simp] theorem State.quarter_setQuarter (s : State) (q : Nat) (x : Quarter) : (s.setQuarter q x).quarter q = x := by
  simp [State.quarter, State.setQuarter]
@[simp] theorem State.slot_setSlot (s : State) (n : Nat) (x : Slot) : (s.setSlot n x).slot n = x := by
  simp [State.slot, State.setSlot]
@[simp] theorem State.chan_setChan (s : State) (n : Nat) (x : Chan) : (s.setChan n x).chan n = x := by
  simp [State.chan, State.setChan]
@[simp] theorem State.ecEngine_setEcEngine (s : State) (n : Nat) (x : EcEngine) : (s.setEcEngine n x).ecEngine n = x := by
  simp [State.ecEngine, State.setEcEngine]
@[simp] theorem State.dceEngine_setDceEngine (s : State) (n : Nat) (x : DceEngine) :
    (s.setDceEngine n x).dceEngine n = x := by
  simp [State.dceEngine, State.setDceEngine]
@[simp] theorem State.port_setPort (s : State) (p : Nat) (x : Port) : (s.setPort p x).port p = x := by
  simp [State.port, State.setPort]
@[simp] theorem State.stream_setStream (s : State) (n : Nat) (x : Stream) : (s.setStream n x).stream n = x := by
  simp [State.stream, State.setStream]
@[simp] theorem State.decoder_setDecoder (s : State) (n : Nat) (x : Decoder) : (s.setDecoder n x).decoder n = x := by
  simp [State.decoder, State.setDecoder]
@[simp] theorem State.link_setLink (s : State) (p : Nat) (x : PckPort) : (s.setLink p x).link p = x := by
  simp [State.link, State.setLink]
@[simp] theorem State.job_setJob (s : State) (j : Nat) (x : Job) : (s.setJob j x).job j = x := by
  simp [State.job, State.setJob]
@[simp] theorem State.thmUnit_setThmUnit (s : State) (u : Nat) (x : ThmUnit) : (s.setThmUnit u x).thmUnit u = x := by
  simp [State.thmUnit, State.setThmUnit]
@[simp] theorem State.tally_setTally (s : State) (k : Nat) (v : Word) : (s.setTally k v).tally k = v := by
  simp [State.tally, State.setTally]

end Sys2Proof.Machine
end

