-- ==== Sys2Proof/Laws/Report.lean ====
section
/-!
SUPPORT. Laws/Report.lean: everything a report of an error code can change, and what it records.
-/
namespace Sys2Proof
open Machine

theorem Keeps.rfl' (l : List Part) (s : State) : Keeps l s s := fun p _ => by cases p <;> rfl

theorem Keeps.trans' {l : List Part} {s t u : State} (h : Keeps l s t) (k : Keeps l t u) : Keeps l s u := fun p hp => by
  have a := h p hp; have b := k p hp; cases p <;> exact Eq.trans b a

theorem Keeps.mono {l m : List Part} {s t : State} (h : Keeps l s t) (hlm : ∀ p, p ∈ l → p ∈ m) : Keeps m s t :=
  fun p hp => h p fun q => hp (hlm p q)

theorem Keeps.foldl {α : Type} (l : List Part) (g : State → α → State) (h : ∀ s a, Keeps l s (g s a)) (xs : List α) :
    ∀ s, Keeps l s (xs.foldl g s) := by
  induction xs with
  | nil => exact fun s => Keeps.rfl' l s
  | cons x r ih => exact fun s => (h s x).trans' (ih _)

end Sys2Proof

namespace Sys2Proof.Machine
open Sys2Proof

/-- A platform event changes the Handler's list of events and what is sent, no more. -/
theorem platformEvent_keeps (s : State) (c : Nat) (b : List Byte) : Keeps [.hnd, .out] s (s.platformEvent c b) := by
  unfold State.platformEvent
  split
  · exact Keeps.rfl' _ _
  · split
    · exact Keeps.rfl' _ _
    · intro p hp; cases p <;> simp_all [Part.same]

theorem raiseAlert_keeps (s : State) (n : Nat) : Keeps [.erl, .hnd, .out] s (s.raiseAlert n) := by
  unfold State.raiseAlert
  refine Keeps.trans' (t := { s with erl := { s.erl with alert := s.erl.alert ||| BitVec.ofNat 13 n } }) ?_
    (Keeps.foldl _ _ (fun t i => (platformEvent_keeps t _ _).mono (by simp)) _ _)
  intro p hp; cases p <;> simp_all [Part.same]

theorem raiseReplace_keeps (s : State) (n : Nat) : Keeps [.erl, .hnd, .out, .fb, .sup] s (s.raiseReplace n) := by
  unfold State.raiseReplace
  split
  · exact Keeps.rfl' _ _
  · refine Keeps.trans' ?_ ((raiseAlert_keeps _ _).mono (by simp))
    intro p hp; cases p <;> simp_all [Part.same]

theorem raiseFor_keeps (s : State) (e : Ev) : Keeps [.erl, .hnd, .out, .fb, .sup] s (s.raiseFor e) :=
  ((raiseAlert_keeps s _).mono (by simp)).trans' (raiseReplace_keeps _ _)

theorem msix_keeps (s : State) (f v : Nat) : Keeps [.fns, .out] s (s.msix f v) := by
  intro p hp; cases p <;> simp_all [Part.same]

theorem ringPut_keeps (s : State) (f : Nat) (r : Rec) : Keeps [.fns, .out, .mem] s (s.ringPut f r) := by
  unfold State.ringPut
  dsimp only
  split
  · exact Keeps.rfl' _ _
  · intro p hp; cases p <;> simp_all [Part.same]
  · intro p hp; cases p <;> simp_all [Part.same]
  · split <;> split <;> (intro p hp; cases p <;> simp_all [Part.same])

theorem fieldBookPut_keeps (s : State) (c : ErrClass) (r : Rec) : Keeps [.fb] s (s.fieldBookPut c r) := by
  unfold State.fieldBookPut
  split
  · exact Keeps.rfl' _ _
  · split
    · intro p hp; cases p <;> simp_all [Part.same]
    · split <;> intro p hp <;> cases p <;> simp_all [Part.same]

theorem countDenial_keeps (s : State) (c p : Nat) (w : Bool) : Keeps [.cad] s (s.countDenial c p w).2 := by
  intro q hq; cases q <;> simp_all [Part.same, State.countDenial]

/-- A report changes the record store, the Field book's share, platform events, SERVICE_N's latch, the Cadastre's counts,
log rings with the memory they lie in, and what is sent; nothing else. -/
theorem reportWith_keeps (n : Nat) : ∀ (e : Ev) (s : State), Keeps reportParts s (reportWith n e s) := by
  induction n with
  | zero => exact fun e s => Keeps.rfl' _ _
  | succ n ih =>
    intro e s
    unfold reportWith
    dsimp only
    have h1 : Keeps reportParts s (s.raiseFor e) := (raiseFor_keeps s e).mono (by simp [reportParts])
    split
    · refine h1.trans' ?_
      intro p hp; cases p <;> simp_all [Part.same, reportParts]
    · refine Keeps.trans' ?_ (Keeps.foldl _ _ ?_ _ _)
      · have hput : ∀ (t : State) (r : Rec), Keeps reportParts t
            (if e.class = .unitFatal ∨ e.class = .moduleFatal then
              (t.fieldBookPut e.class r).platformEvent 0xF0 (r.bytes false) else t.fieldBookPut e.class r) := by
          intro t r
          have h2 : Keeps reportParts t (t.fieldBookPut e.class r) := (fieldBookPut_keeps t _ _).mono (by simp [reportParts])
          split
          · exact h2.trans' ((platformEvent_keeps _ _ _).mono (by simp [reportParts]))
          · exact h2
        refine Keeps.trans' (h1.trans' ?_) (hput _ _)
        intro p hp; cases p <;> simp_all [Part.same, reportParts]
      · intro t f
        unfold ringStep
        split
        · refine Keeps.trans' ?_ (ih _ _)
          have h3 : ∀ (r : Rec) p, Keeps reportParts t (((t.ringPut f r).countDenial f p true).2) := fun r p =>
            ((ringPut_keeps t f r).mono (by simp [reportParts])).trans' ((countDenial_keeps _ _ _ _).mono (by simp [reportParts]))
          have h4 : ∀ (b : Bool) (d : Ev) (x : State), Keeps reportParts t x →
              Keeps reportParts t (if b = true then reportWith n d x else x) := by
            intro b d x hx
            cases b
            · exact hx
            · exact hx.trans' (ih _ _)
          exact h4 _ _ _ (h3 _ _)
        · exact (ringPut_keeps _ _ _).mono (by simp [reportParts])

/-- A report of a class that leaves the module running, as the shared report. -/
theorem report_eq (s : State) (e : Ev) (h : e.class = .moduleFatal → e.blk = .sup) : s.report e = reportWith 3 e s := by
  unfold State.report
  rw [if_neg]
  rintro ⟨a, b⟩; exact b (h a)

section
variable (n : Nat) (e : Ev) (s : State)
@[simp] theorem reportWith_pending : (reportWith n e s).pending = s.pending := reportWith_keeps n e s .pending (by decide)
@[simp] theorem reportWith_now : (reportWith n e s).now = s.now := reportWith_keeps n e s .now (by decide)
@[simp] theorem reportWith_freeCount : (reportWith n e s).freeCount = s.freeCount := reportWith_keeps n e s .freeCount (by decide)
@[simp] theorem reportWith_fuses : (reportWith n e s).fuses = s.fuses := reportWith_keeps n e s .fuses (by decide)
@[simp] theorem reportWith_pins : (reportWith n e s).pins = s.pins := reportWith_keeps n e s .pins (by decide)
@[simp] theorem reportWith_fab : (reportWith n e s).fab = s.fab := reportWith_keeps n e s .fab (by decide)
@[simp] theorem reportWith_svy : (reportWith n e s).svy = s.svy := reportWith_keeps n e s .svy (by decide)
@[simp] theorem reportWith_hrd : (reportWith n e s).hrd = s.hrd := reportWith_keeps n e s .hrd (by decide)
@[simp] theorem reportWith_rtv : (reportWith n e s).rtv = s.rtv := reportWith_keeps n e s .rtv (by decide)
@[simp] theorem reportWith_sys : (reportWith n e s).sys = s.sys := reportWith_keeps n e s .sys (by decide)
@[simp] theorem reportWith_ec : (reportWith n e s).ec = s.ec := reportWith_keeps n e s .ec (by decide)
@[simp] theorem reportWith_dce : (reportWith n e s).dce = s.dce := reportWith_keeps n e s .dce (by decide)
@[simp] theorem reportWith_ing : (reportWith n e s).ing = s.ing := reportWith_keeps n e s .ing (by decide)
@[simp] theorem reportWith_hst : (reportWith n e s).hst = s.hst := reportWith_keeps n e s .hst (by decide)
@[simp] theorem reportWith_pck : (reportWith n e s).pck = s.pck := reportWith_keeps n e s .pck (by decide)
@[simp] theorem reportWith_thm : (reportWith n e s).thm = s.thm := reportWith_keeps n e s .thm (by decide)
end

/-! Where the rings lie at the host, a report writes no memory and its record is the newest -/

theorem Tab.all_put {α : Type} (g : Nat × α → Bool) (t : Tab α) (a : Nat) (x : α) (h : t.all g = true)
    (hx : g (a, x) = true) : (Tab.put t a x).all g = true := by
  induction t with
  | nil => simp [Tab.put, hx]
  | cons q r ih =>
    obtain ⟨k, v⟩ := q
    simp only [List.all_cons, Bool.and_eq_true] at h
    simp only [Tab.put]
    split
    · subst_vars; simp [hx]; simpa using h.2
    · split
      · simp only [List.all_cons, hx, h.1, Bool.true_and]; exact h.2
      · simp only [List.all_cons, h.1, ih h.2, Bool.and_self]

theorem ringsAtHost_fn (s : State) (h : ringsAtHost s = true) (f : Nat) :
    (!(s.fn f).ring.en || (s.fn f).ring.host) = true := by
  unfold State.fn Tab.getD
  unfold ringsAtHost at h
  generalize s.fns = t at h
  induction t with
  | nil => rfl
  | cons q r ih =>
    obtain ⟨k, v⟩ := q
    simp only [List.all_cons, Bool.and_eq_true] at h
    simp only [Tab.find?]
    split
    · exact h.1
    · exact ih h.2

theorem ringsAtHost_setFn (s : State) (h : ringsAtHost s = true) (f : Nat) (x : Fn)
    (hx : (!x.ring.en || x.ring.host) = true) : ringsAtHost (s.setFn f x) = true :=
  Tab.all_put _ _ _ _ h hx

theorem ringsAtHost_congr {s t : State} (h : t.fns = s.fns) : ringsAtHost t = ringsAtHost s := by
  simp [ringsAtHost, h]

theorem ringTry_atHost (s : State) (h : ringsAtHost s = true) (f p : Nat) : s.ringTry f ≠ .denied p := by
  have hf := ringsAtHost_fn s h f
  unfold State.ringTry
  dsimp only
  split
  · simp
  · split
    · simp
    · split
      · simp
      · simp_all

theorem msix_atHost (s : State) (h : ringsAtHost s = true) (f v : Nat) : ringsAtHost (s.msix f v) = true := by
  unfold State.msix
  dsimp only
  split
  · exact h
  · split
    · exact ringsAtHost_setFn s h f _ (ringsAtHost_fn s h f)
    · exact h

theorem ringPut_atHost (s : State) (h : ringsAtHost s = true) (f : Nat) (r : Rec) :
    ringsAtHost (s.ringPut f r) = true ∧ (s.ringPut f r).mem = s.mem ∧ (s.ringPut f r).erl = s.erl := by
  have hf := ringsAtHost_fn s h f
  refine ⟨?_, ?_, ringPut_keeps s f r .erl (by decide)⟩
  · unfold State.ringPut
    dsimp only
    split
    · exact h
    · exact ringsAtHost_setFn s h f _ hf
    · exact ringsAtHost_setFn s h f _ (by simp)
    · have h2 : ∀ d, ringsAtHost (s.hostWrite f ((s.fn f).ring.slotAddr (s.fn f).ring.head.toNat) d) = true := fun d => by
        rw [ringsAtHost_congr (s := s) (by simp)]; exact h
      have h3 : ∀ d, ringsAtHost (s.write ((s.fn f).ring.slotAddr (s.fn f).ring.head.toNat) d) = true := fun d => by
        rw [ringsAtHost_congr (s := s) (by simp)]; exact h
      have h4 : ∀ (b : Bool) (g : Fn → Fn), (∀ y, ringsAtHost y = true → ringsAtHost (y.modFn f g) = true) →
          ringsAtHost (State.modFn (if b then s.hostWrite f ((s.fn f).ring.slotAddr (s.fn f).ring.head.toNat)
            (r.bytes (s.fn f).ring.lost) else s.write ((s.fn f).ring.slotAddr (s.fn f).ring.head.toNat)
            (r.bytes (s.fn f).ring.lost)) f g) = true := fun b g k => by
        split
        · exact k _ (h2 _)
        · exact k _ (h3 _)
      have h5 := h4 (s.fn f).ring.host (fun x => { x with ring := { (s.fn f).ring with
            head := BitVec.ofNat 16 (((s.fn f).ring.head.toNat + 1) % 2 ^ (s.fn f).ring.log2.toNat), lost := false } })
          fun y hy => ringsAtHost_setFn y hy f _ hf
      revert h5
      generalize State.modFn _ f _ = z
      intro h5
      split
      · exact msix_atHost _ h5 _ _
      · exact h5
  · unfold State.ringPut
    dsimp only
    split
    · rfl
    · simp
    · simp
    · rename_i hw
      have hh : (s.fn f).ring.host = true := by
        unfold State.ringTry at hw
        dsimp only at hw
        split at hw
        · simp at hw
        · simp_all
      rw [if_pos hh]
      split <;> simp

/-- A report with every enabled ring at the host writes no memory. -/
theorem reportWith_atHost (n : Nat) (e : Ev) (s : State) (h : ringsAtHost s = true) :
    (reportWith n e s).mem = s.mem ∧ ringsAtHost (reportWith n e s) = true := by
  cases n with
  | zero => exact ⟨rfl, h⟩
  | succ n =>
    have hm : ∀ t : State, (∀ p, p ∈ [Part.mem, Part.fns] → p.same s t) → t.mem = s.mem ∧ ringsAtHost t = true := fun t k =>
      ⟨k .mem (by simp), (ringsAtHost_congr (k .fns (by simp))).trans h⟩
    unfold reportWith
    dsimp only
    have k1 := raiseFor_keeps s e
    split
    · exact hm _ (fun p hp => by cases p <;> simp_all [Part.same] <;>
        first | exact k1 .mem (by decide) | exact k1 .fns (by decide))
    · have hfold : ∀ (l : List Nat) (r : Rec) (u : State), u.mem = s.mem ∧ ringsAtHost u = true →
          (l.foldl (ringStep (reportWith n) r) u).mem = s.mem ∧
          ringsAtHost (l.foldl (ringStep (reportWith n) r) u) = true := by
        intro l r
        induction l with
        | nil => exact fun u hu => hu
        | cons f l ih =>
          intro u hu
          simp only [List.foldl_cons]
          apply ih
          unfold ringStep
          split
          · rename_i p hp
            exact absurd hp (ringTry_atHost u hu.2 f p)
          · have := ringPut_atHost u hu.2 f r
            exact ⟨this.2.1.trans hu.1, this.1⟩
      apply hfold
      have k2 : ∀ (t : State) (c : ErrClass) (r : Rec), Keeps [.fb, .hnd, .out] t
          (if e.class = .unitFatal ∨ e.class = .moduleFatal then (t.fieldBookPut c r).platformEvent 0xF0 (r.bytes false)
            else t.fieldBookPut c r) := fun t c r => by
        have k3 : Keeps [.fb, .hnd, .out] t (t.fieldBookPut c r) := (fieldBookPut_keeps t c r).mono (by simp)
        split
        · exact k3.trans' ((platformEvent_keeps _ _ _).mono (by simp))
        · exact k3
      refine hm _ (fun p hp => ?_)
      simp only [List.mem_cons, List.not_mem_nil, or_false] at hp
      obtain rfl | rfl := hp
      · exact ((k2 _ _ _) .mem (by decide)).trans (k1 .mem (by decide))
      · exact ((k2 _ _ _) .fns (by decide)).trans (k1 .fns (by decide))

theorem rateLimit_new (now : Nat) (c : ErrClass) (e : Err) (u : UnitRef) (l : List RateCell)
    (h : (l.any fun x => x.err == e && x.unit == u) = false) : (rateLimit now c e u l).1 = some 0 := by
  induction l with
  | nil => rfl
  | cons x r ih =>
    simp only [List.any_cons, Bool.or_eq_false_iff] at h
    unfold rateLimit
    have hx : ¬(x.err = e ∧ x.unit = u) := by rintro ⟨a, b⟩; simp [a, b] at h
    rw [if_neg hx]
    exact ih h.2

theorem foldl_platformEvent_erl {α : Type} (l : List α) (c : Nat) (g : α → List Byte) (s : State) :
    (l.foldl (fun t i => t.platformEvent c (g i)) s).erl = s.erl :=
  Keeps.foldl [.hnd, .out] _ (fun t i => platformEvent_keeps t c (g i)) l s .erl (by decide)

/-- Raising causes changes of the record store only the alert and replace causes. -/
theorem raiseFor_erl (s : State) (e : Ev) :
    (s.raiseFor e).erl.rate = s.erl.rate ∧ (s.raiseFor e).erl.seq = s.erl.seq ∧ (s.raiseFor e).erl.history = s.erl.history := by
  have h : ∀ (t : State) n, (t.raiseAlert n).erl.rate = t.erl.rate ∧ (t.raiseAlert n).erl.seq = t.erl.seq ∧
      (t.raiseAlert n).erl.history = t.erl.history := by
    intro t n
    unfold State.raiseAlert
    dsimp only
    rw [foldl_platformEvent_erl]
    exact ⟨rfl, rfl, rfl⟩
  unfold State.raiseFor State.raiseReplace
  split
  · exact h s _
  · have a := h s e.alerts
    have b := h { s.raiseAlert e.alerts with
        erl := { (s.raiseAlert e.alerts).erl with
          replace := (s.raiseAlert e.alerts).erl.replace ||| BitVec.ofNat 4 e.replaces }
        fb := { (s.raiseAlert e.alerts).fb with work := { (s.raiseAlert e.alerts).fb.work with
          replace := (s.raiseAlert e.alerts).fb.work.replace ||| BitVec.ofNat 4 e.replaces } }
        sup := { (s.raiseAlert e.alerts).sup with service := true } } (2 ^ 10)
    exact ⟨b.1.trans a.1, b.2.1.trans a.2.1, b.2.2.trans a.2.2⟩

/-- What a report records (R672): one record with the next sequence number. -/
theorem reportWith_records (n : Nat) (e : Ev) (s : State) :
    Records s (reportWith (n + 1) e s) e.err e.class e.unit e.detail := by
  intro hr hl
  have hk := raiseFor_erl s e
  have hlim : (if e.limited then rateLimit (s.raiseFor e).now e.class e.err e.unit (s.raiseFor e).erl.rate
      else (some 0, (s.raiseFor e).erl.rate)).1 = some 0 := by
    split
    · rw [hk.1]; exact rateLimit_new _ _ _ _ _ hl
    · rfl
  unfold reportWith
  dsimp only
  rw [hlim]
  dsimp only
  have hfold : ∀ (l : List Nat) (r : Rec) (u : State), ringsAtHost u = true →
      (l.foldl (ringStep (reportWith n) r) u).erl = u.erl := by
    intro l r
    induction l with
    | nil => exact fun u _ => rfl
    | cons f l ih =>
      intro u hu
      have := ringPut_atHost u hu f r
      have hs : ringStep (reportWith n) r u f = u.ringPut f r := by
        unfold ringStep
        split
        · rename_i p hp
          exact absurd hp (ringTry_atHost u hu f p)
        · rfl
      rw [List.foldl_cons, hs]
      exact (ih _ this.1).trans this.2.2
  have k2 : ∀ (t : State) (c : ErrClass) (r : Rec), Keeps [.fb, .hnd, .out] t
      (if e.class = .unitFatal ∨ e.class = .moduleFatal then (t.fieldBookPut c r).platformEvent 0xF0 (r.bytes false)
        else t.fieldBookPut c r) := fun t c r => by
    have k3 : Keeps [.fb, .hnd, .out] t (t.fieldBookPut c r) := (fieldBookPut_keeps t c r).mono (by simp)
    split
    · exact k3.trans' ((platformEvent_keeps _ _ _).mono (by simp))
    · exact k3
  rw [hfold]
  · rw [(k2 _ _ _) .erl (by decide)]
    simp [hk.2.1]
  · refine (ringsAtHost_congr (s := s) ?_).trans hr
    exact ((k2 _ _ _) .fns (by decide)).trans ((raiseFor_keeps s e) .fns (by decide))

end Sys2Proof.Machine
end

