-- ==== Sys2Proof/Laws/FieldBook.lean ====
section
/-!
SUPPORT. Laws/FieldBook.lean: what a write to the Field book's flash can change.
-/
namespace Sys2Proof.Machine
open Sys2Proof

/-- A flash write changes the Field book, or fails and changes what a report of E-ERL-04 changes. -/
theorem flashWrite_keeps (s : State) (n : Nat) (good lost : FieldBook) : Keeps reportParts s (s.flashWrite n good lost) := by
  unfold State.flashWrite
  split
  · intro p hp; cases p <;> simp_all [Part.same, reportParts]
  · exact Keeps.trans' (t := { s with fb := { lost with retired := Config.flashSpares } })
      (by intro p hp; cases p <;> simp_all [Part.same, reportParts]) (reportWith_keeps _ _ _)

/-- Where the spares suffice it is the write asked for, with the failed blocks retired. -/
theorem flashWrite_good (s : State) (n : Nat) (good lost : FieldBook) (h : s.fb.sparesFor n = true) :
    s.flashWrite n good lost = { s with fb := { good with retired := s.fb.retired + n } } := by
  simp [State.flashWrite, h]

end Sys2Proof.Machine
end

