-- ==== Sys2Proof/Laws/Memory.lean ====
section
/-!
SUPPORT. Laws/Memory.lean: a byte read after a write, the other bytes after it, and the canonical form, which every memory
operation keeps.
-/
namespace Sys2Proof.Machine
open Sys2Proof

theorem cellsOk_mono {lo lo' : Nat} {m : List Host.Cell} (h : cellsOk lo m = true) (hl : lo' ≤ lo) :
    cellsOk lo' m = true := by
  cases m with
  | nil => rfl
  | cons p r =>
    obtain ⟨k, v⟩ := p
    simp only [cellsOk, Bool.and_eq_true, decide_eq_true_eq] at h ⊢
    exact ⟨⟨by omega, h.1.2⟩, h.2⟩

/-- Below the first address that a canonical list may hold, every byte reads 0. -/
theorem readByte_below {lo a : Nat} {m : List Host.Cell} (h : cellsOk lo m = true) (ha : a < lo) : readByte m a = 0 := by
  induction m generalizing lo with
  | nil => rfl
  | cons p r ih =>
    obtain ⟨k, v⟩ := p
    simp only [cellsOk, Bool.and_eq_true, decide_eq_true_eq] at h
    have : k ≠ a := by omega
    simp only [readByte, this, if_false]
    exact ih h.2 (by omega)

theorem cellsOk_writeByte {lo a : Nat} {m : List Host.Cell} (v : Byte) (h : cellsOk lo m = true) (ha : lo ≤ a) :
    cellsOk lo (writeByte m a v) = true := by
  induction m generalizing lo with
  | nil => simp only [writeByte]; split <;> simp_all [cellsOk]
  | cons p r ih =>
    obtain ⟨k, w⟩ := p
    simp only [cellsOk, Bool.and_eq_true, decide_eq_true_eq] at h
    obtain ⟨⟨hk, hw⟩, hr⟩ := h
    simp only [writeByte]
    split
    · split
      · exact cellsOk_mono hr (by omega)
      · simp_all [cellsOk]
    · split
      · split
        · simp_all [cellsOk]
        · simp only [cellsOk, Bool.and_eq_true, decide_eq_true_eq]
          exact ⟨⟨ha, by assumption⟩, ⟨by omega, hw⟩, hr⟩
      · simp only [cellsOk, Bool.and_eq_true, decide_eq_true_eq]
        exact ⟨⟨hk, hw⟩, ih hr (by omega)⟩

theorem cellsOk_writeBytes {m : List Host.Cell} (a : Nat) (d : List Byte) (h : cellsOk 0 m = true) :
    cellsOk 0 (writeBytes m a d) = true := by
  induction d generalizing a m with
  | nil => exact h
  | cons b r ih => exact ih (a + 1) (cellsOk_writeByte b h (Nat.zero_le a))

theorem cellsOk_filter {lo : Nat} {m : List Host.Cell} (f : Host.Cell → Bool) (h : cellsOk lo m = true) :
    cellsOk lo (m.filter f) = true := by
  induction m generalizing lo with
  | nil => rfl
  | cons p r ih =>
    obtain ⟨k, v⟩ := p
    simp only [cellsOk, Bool.and_eq_true, decide_eq_true_eq] at h
    simp only [List.filter_cons]
    split
    · simp only [cellsOk, Bool.and_eq_true, decide_eq_true_eq]
      exact ⟨h.1, ih h.2⟩
    · exact cellsOk_mono (ih h.2) (by omega)

theorem readByte_writeByte_other {a b : Nat} (m : List Host.Cell) (v : Byte) (h : b ≠ a) :
    readByte (writeByte m a v) b = readByte m b := by
  induction m with
  | nil => simp only [writeByte]; split <;> simp [readByte, Ne.symm h]
  | cons p r ih =>
    obtain ⟨k, w⟩ := p
    simp only [writeByte]
    split
    · subst_vars
      split <;> simp [readByte, Ne.symm h]
    · split
      · split <;> simp [readByte, Ne.symm h]
      · simp only [readByte, ih]

theorem readByte_writeByte_same {a lo : Nat} {m : List Host.Cell} (v : Byte) (h : cellsOk lo m = true) :
    readByte (writeByte m a v) a = v := by
  induction m generalizing lo with
  | nil => simp only [writeByte]; split <;> simp_all [readByte]
  | cons p r ih =>
    obtain ⟨k, w⟩ := p
    simp only [cellsOk, Bool.and_eq_true, decide_eq_true_eq] at h
    simp only [writeByte]
    split
    · split
      · subst_vars; exact readByte_below h.2 (by omega)
      · simp [readByte, *]
    · split
      · split
        · rename_i hk hlt hv
          simp only [readByte, hk, if_false, hv]
          exact readByte_below h.2 (by omega)
        · simp [readByte]
      · rename_i hk _
        simp only [readByte, hk, if_false]
        exact ih h.2

/-- A write leaves every byte outside it. -/
theorem readByte_writeBytes_other {a b : Nat} (m : List Host.Cell) (d : List Byte) (h : b < a ∨ a + d.length ≤ b) :
    readByte (writeBytes m a d) b = readByte m b := by
  induction d generalizing a m with
  | nil => rfl
  | cons v r ih =>
    simp only [List.length_cons] at h
    simp only [writeBytes]
    rw [ih _ (by omega), readByte_writeByte_other _ _ (by omega)]

@[simp] theorem readBytes_length (m : List Host.Cell) (a n : Nat) : (readBytes m a n).length = n := by
  induction n generalizing a with
  | zero => rfl
  | succ n ih => simp [readBytes, ih]

/-- The bytes just written read back. -/
theorem readBytes_writeBytes_same (m : List Host.Cell) (a : Nat) (d : List Byte) (h : cellsOk 0 m = true) :
    readBytes (writeBytes m a d) a d.length = d := by
  induction d generalizing a m with
  | nil => rfl
  | cons v r ih =>
    simp only [List.length_cons, readBytes, writeBytes]
    rw [readByte_writeBytes_other _ _ (by omega), readByte_writeByte_same v h, ih _ _ (cellsOk_writeByte v h (Nat.zero_le a))]

/-- A range put to zero reads as zero, and every other byte as before. -/
theorem readByte_zeroCells (m : List Host.Cell) (a n b : Nat) :
    readByte (zeroCells m a n) b = if a ≤ b ∧ b < a + n then 0 else readByte m b := by
  unfold zeroCells
  induction m with
  | nil => simp [readByte]
  | cons p r ih =>
    obtain ⟨k, v⟩ := p
    by_cases hk : k = b
    · subst hk
      by_cases hc : a ≤ k ∧ k < a + n
      · have hd : (decide (k < a) || decide (a + n ≤ k)) = false := by
          simp only [Bool.or_eq_false_iff, decide_eq_false_iff_not]; omega
        simp only [List.filter_cons, hd, hc, and_self, if_true, Bool.false_eq_true, if_false] at ih ⊢
        exact ih
      · have hd : (decide (k < a) || decide (a + n ≤ k)) = true := by
          simp only [Bool.or_eq_true, decide_eq_true_eq]; omega
        simp [hd, hc, readByte]
    · simp only [List.filter_cons]
      split
      · simp only [readByte, hk, if_false]; exact ih
      · simp only [readByte, hk, if_false]; exact ih

/-! ### Every memory operation keeps the canonical form -/

theorem Mem.wf_iff (m : Mem) : m.wf = true ↔ cellsOk 0 m.bytes = true ∧ cellsOk 0 m.tile = true := by
  simp [Mem.wf]

theorem writeDev_wf (s : State) (a : Nat) (d : List Byte) (h : s.mem.wf = true) : (s.writeDev a d).mem.wf = true := by
  rw [Mem.wf_iff] at h ⊢
  exact ⟨cellsOk_writeBytes a d h.1, h.2⟩

theorem writeTile_wf (s : State) (a : Nat) (d : List Byte) (h : s.mem.wf = true) : (s.writeTile a d).mem.wf = true := by
  rw [Mem.wf_iff] at h ⊢
  exact ⟨h.1, cellsOk_writeBytes a d h.2⟩

theorem write_wf (s : State) (a : Nat) (d : List Byte) (h : s.mem.wf = true) : (s.write a d).mem.wf = true := by
  unfold State.write
  split
  · exact writeDev_wf s a d h
  · exact writeTile_wf s a d h

theorem cellsOk_zeroCells {m : List Host.Cell} (a n : Nat) (h : cellsOk 0 m = true) : cellsOk 0 (zeroCells m a n) = true :=
  cellsOk_filter _ h

theorem zeroTile_wf (s : State) (a n : Nat) (h : s.mem.wf = true) : (s.zeroTile a n).mem.wf = true := by
  rw [Mem.wf_iff] at h ⊢
  exact ⟨h.1, cellsOk_zeroCells a n h.2⟩

theorem zeroDev_wf (s : State) (a n : Nat) (h : s.mem.wf = true) : (s.zeroDev a n).mem.wf = true := by
  rw [Mem.wf_iff] at h ⊢
  exact ⟨cellsOk_zeroCells a n h.1, h.2⟩

/-- Lines dropped from the caches leave memory's bytes. -/
theorem dropLines_wf (s : State) (p : Nat → Bool) (h : s.mem.wf = true) : (s.dropLines p).mem.wf = true := h

theorem Mem.warm_wf (m : Mem) (h : m.wf = true) : m.warm.wf = true := h

end Sys2Proof.Machine
end

