-- ==== Sys2Proof/Laws/Units.lean ====
section
/-!
SUPPORT. Laws/Units.lean: a unit's wait, its end of waiting and its core's choice change the Herder's tables only.
-/
namespace Sys2Proof.Machine
open Sys2Proof

theorem modCtx_keeps (s : State) (c : Nat) (g : Ctx → Ctx) : Keeps [.hrd] s (s.modCtx c g) := by
  intro p hp; cases p <;> simp_all [Part.same]

theorem modUnit_keeps (s : State) (c u : Nat) (g : UnitRun → UnitRun) : Keeps [.hrd] s (s.modUnit c u g) :=
  modCtx_keeps s c _

theorem modCore_keeps (s : State) (c : Nat) (g : Core → Core) : Keeps [.hrd] s (s.modCore c g) := by
  intro p hp; cases p <;> simp_all [Part.same]

/-- A core's choice of the unit it issues from. -/
theorem schedule_keeps (s : State) (k : Nat) : Keeps [.hrd] s (s.schedule k) := by
  unfold State.schedule
  split
  · exact Keeps.rfl' _ _
  · split
    · split
      · exact Keeps.rfl' _ _
      · exact modCore_keeps _ _ _
    · exact (Keeps.foldl _ _ (fun t y => modUnit_keeps t _ _ _) _ _).trans' (modCore_keeps _ _ _)

theorem scheduleAll_keeps (s : State) (l : List Nat) : Keeps [.hrd] s (s.scheduleAll l) :=
  Keeps.foldl _ _ (fun t k => schedule_keeps t k) l s

theorem block_keeps (s : State) (c : Nat) (x : UnitRun) (b : Blocked) : Keeps [.hrd] s (s.block c x b) := by
  unfold State.block
  dsimp only
  split
  · exact (modUnit_keeps _ _ _ _).trans' (schedule_keeps _ _)
  · exact modUnit_keeps _ _ _ _

theorem unblock_keeps (s : State) (c : Nat) (x : UnitRun) (g : UnitRun → UnitRun) : Keeps [.hrd] s (s.unblock c x g) := by
  unfold State.unblock
  dsimp only
  split
  · exact (modUnit_keeps _ _ _ _).trans' (schedule_keeps _ _)
  · exact modUnit_keeps _ _ _ _

/-- Agreement on a part, read through a frame. -/
theorem Keeps.field {l : List Part} {s t : State} (h : Keeps l s t) (p : Part) (hp : p ∉ l) : p.same s t := h p hp

/-- A change of one unit, read back. -/
theorem unitRun_modUnit (s : State) (c u : Nat) (g : UnitRun → UnitRun) (hg : ∀ x, (g x).unit = x.unit) :
    (s.modUnit c u g).unitRun c u = (s.unitRun c u).map g := by
  unfold State.modUnit State.modRun State.modHead State.unitRun Ctx.modHead Ctx.running
  simp only [State.modCtx_eq, State.ctx_setCtx]
  cases hh : (s.ctx c).held with
  | nil => simp
  | cons f r =>
    cases hr : f.run with
    | none => simp [hr]
    | some q =>
      simp only [hr, Option.map_some, Option.bind_some]
      induction q.units with
      | nil => rfl
      | cons y l ih =>
        simp only [List.map_cons, List.find?_cons]
        by_cases hy : y.unit = u
        · simp [hy, hg]
        · simp only [hy, if_false]
          have : (y.unit == u) = false := by simp [hy]
          simp only [this]
          exact ih

end Sys2Proof.Machine
end

