-- ==== Sys2Proof/Laws/Shared.lean ====
section
/-!
SUPPORT. Laws/Shared.lean: what the shared operations of links, audits, streams, caches and error counts can change. A proof
about a command cites these frames and does not unfold the operations.
-/
namespace Sys2Proof.Machine
open Sys2Proof

/-- An output changes what has been sent, no more. -/
theorem emit_keeps (s : State) (o : Out) : Keeps [.out] s (s.emit o) := by
  intro p hp; cases p <;> simp_all [Part.same]

theorem emitIf_keeps (s : State) (b : Bool) (o : Out) : Keeps [.out] s (s.emitIf b o) := by
  cases b
  · exact Keeps.rfl' _ _
  · exact emit_keeps s o

theorem takeFree_keeps (s : State) : Keeps [.freeCount] s s.takeFree := by
  intro p hp; cases p <;> simp_all [Part.same]

/-- The release of the SMBus lines. -/
theorem smbusSettled_keeps (s old : State) : Keeps [.out] s (s.smbusSettled old) := emitIf_keeps _ _ _

/-! ### Traverse links (R513) -/

theorem setLink_keeps (s : State) (p : Nat) (x : PckPort) : Keeps [.pck] s (s.setLink p x) := by
  intro q hq; cases q <;> simp_all [Part.same]

/-- Writing one channel of a port leaves the others. -/
theorem chan_setChan (x : PckPort) (v w : Nat) (c : LinkChan) : (x.setChan v c).chan w = if w = v then c else x.chan w := by
  unfold PckPort.setChan PckPort.chan
  by_cases h : w = v
  · subst h; simp
  · simp [h, Tab.getD_put_other _ _ _ _ _ h]

theorem sendLink_keeps (s : State) (port vc : Nat) (o : Out) : Keeps [.pck, .out] s (s.sendLink port vc o) := by
  unfold State.sendLink
  dsimp only
  split
  · exact ((setLink_keeps _ _ _).mono (by simp)).trans' ((emit_keeps _ _).mono (by simp))
  · exact (setLink_keeps _ _ _).mono (by simp)

theorem drainChan_keeps (port : Nat) (s : State) (vc : Nat) : Keeps [.pck, .out] s (State.drainChan port s vc) := by
  unfold State.drainChan
  dsimp only
  split
  · exact Keeps.rfl' _ _
  · intro p hp; cases p <;> simp_all [Part.same]

theorem drainLink_keeps (s : State) (port : Nat) : Keeps [.pck, .out] s (s.drainLink port) := by
  unfold State.drainLink
  split
  · exact Keeps.rfl' _ _
  · exact Keeps.foldl _ _ (fun t v => drainChan_keeps port t v) _ _

theorem returnCredits_keeps (s : State) (port : Nat) : Keeps [.pck, .out, .freeCount] s (s.returnCredits port) :=
  (((takeFree_keeps s).mono (by simp)).trans' ((setLink_keeps _ _ _).mono (by simp))).trans'
    ((drainLink_keeps _ _).mono (by simp))

theorem sendControl_keeps (s : State) (port : Nat) (m : LinkMsg) : Keeps [.pck, .out] s (s.sendControl port m) :=
  sendLink_keeps _ _ _ _

theorem sendMember_keeps (s : State) (m : Nat) (b : Bool) (o : Out) : Keeps [.pck, .out] s (s.sendMember m b o) := by
  unfold State.sendMember
  split
  · exact sendLink_keeps _ _ _ _
  · exact (emit_keeps _ _).mono (by simp)

theorem toParent_keeps (s : State) (m : LinkMsg) : Keeps [.pck, .out] s (s.toParent m) := by
  unfold State.toParent
  split
  · exact sendControl_keeps _ _ _
  · exact Keeps.rfl' _ _

theorem toChildren_keeps (s : State) (m : LinkMsg) : Keeps [.pck, .out] s (s.toChildren m) :=
  Keeps.foldl _ _ (fun t q => sendControl_keeps t q m) _ _

/-! ### Routes and audits (R61 to R66) -/

theorem setRoute_keeps (s : State) (r : Nat) (x : Route) : Keeps [.fab] s (s.setRoute r x) := by
  intro p hp; cases p <;> simp_all [Part.same]

theorem modQuarter_keeps (s : State) (q : Nat) (g : Quarter → Quarter) : Keeps [.fab] s (s.modQuarter q g) := by
  intro p hp; cases p <;> simp_all [Part.same]

theorem moved_keeps (s : State) (c : Nat) : Keeps [.fab] s (s.moved c) := by
  intro p hp; cases p <;> simp_all [Part.same, State.moved]

theorem startAudit_keeps (s : State) (q r : Nat) (d : Bool) : Keeps [.fab] s (s.startAudit q r d) := by
  unfold State.startAudit
  split
  · exact Keeps.rfl' _ _
  · exact (setRoute_keeps _ _ _).trans' (modQuarter_keeps _ _ _)

theorem nextAudit_keeps (s : State) (q : Nat) : Keeps [.fab] s (s.nextAudit q) := by
  unfold State.nextAudit
  dsimp only
  split
  · exact Keeps.rfl' _ _
  · split
    · exact startAudit_keeps _ _ _ _
    · split
      · exact Keeps.rfl' _ _
      · split
        · exact modQuarter_keeps _ _ _
        · split
          · exact Keeps.rfl' _ _
          · exact startAudit_keeps _ _ _ _

theorem kickAudits_keeps (s : State) : Keeps [.fab] s s.kickAudits := Keeps.foldl _ _ (fun t q => nextAudit_keeps t q) _ _

theorem sendLeashes_keeps (s : State) (r : Nat) (x : Route) (n : Nat) : Keeps [.pck, .out] s (s.sendLeashes r x n) := by
  unfold State.sendLeashes
  split
  · exact Keeps.rfl' _ _
  · split
    · exact Keeps.foldl _ _ (fun t _ => sendLink_keeps t _ _ _) _ _
    · exact Keeps.rfl' _ _

/-- An audit's end changes the fabric, and on a route from another member the Leashes that its freeze held back leave. -/
theorem endAudit_keeps (s : State) (q : Nat) (a : Audit) (x : Route) (c : BitVec 2) (n : Nat) :
    Keeps [.fab, .pck, .out] s (s.endAudit q a x c n) := by
  unfold State.endAudit
  dsimp only
  refine Keeps.trans' ?_ ((modQuarter_keeps _ _ _).mono (by simp))
  split
  · exact ((setRoute_keeps _ _ _).mono (by simp)).trans' ((sendLeashes_keeps _ _ _ _).mono (by simp))
  · exact (((setRoute_keeps _ _ _).mono (by simp)).trans' ((sendLeashes_keeps _ _ _ _).mono (by simp))).trans'
      ((moved_keeps _ _).mono (by simp))

/-! ### Streams (R394) -/

theorem putUnit_keeps (s : State) (c : Nat) (u : List Byte) (g : StreamOut → StreamOut) :
    Keeps [.hrd, .out] s (s.putUnit c u g) :=
  ((modCtx_keeps _ _ _).mono (by simp)).trans' ((emit_keeps _ _).mono (by simp))

theorem putMarker_keeps (s : State) (c : Nat) (m : Nat × Nat × DWord) : Keeps [.hrd, .out] s (s.putMarker c m) := by
  unfold State.putMarker
  split
  · exact putUnit_keeps _ _ _ _
  · exact Keeps.rfl' _ _

theorem flushMarkers_keeps (s : State) (c : Nat) (b : Bool) : Keeps [.hrd, .out] s (s.flushMarkers c b) := by
  unfold State.flushMarkers
  dsimp only
  split
  · exact Keeps.rfl' _ _
  · exact ((modCtx_keeps _ _ _).mono (by simp)).trans' (Keeps.foldl _ _ (fun t m => putMarker_keeps t c m) _ _)

theorem loseUnit_keeps (s : State) (c : Nat) (f : Frame) (n : Nat) : Keeps [.hrd, .out] s (s.loseUnit c f n) := by
  unfold State.loseUnit
  split
  · exact Keeps.rfl' _ _
  · exact ((modCtx_keeps _ _ _).mono (by simp)).trans' (flushMarkers_keeps _ _ _)

theorem putFrameUnit_keeps (s : State) (c : Nat) (f : Frame) (p : StreamParts) : Keeps [.hrd, .out] s (s.putFrameUnit c f p) := by
  unfold State.putFrameUnit
  dsimp only
  split
  · exact Keeps.rfl' _ _
  · refine Keeps.trans' ?_ (putUnit_keeps _ _ _ _)
    split
    · exact Keeps.rfl' _ _
    · exact putUnit_keeps _ _ _ _

theorem putEnd_keeps (s : State) (c : Nat) : Keeps [.hrd, .out] s (s.putEnd c) := by
  unfold State.putEnd
  dsimp only
  split
  · exact (flushMarkers_keeps _ _ _).trans' (putUnit_keeps _ _ _ _)
  · exact flushMarkers_keeps _ _ _

/-! ### Caches and error counts (R228 to R232, R253) -/

theorem dropLines_keeps (s : State) (p : Nat → Bool) : Keeps [.hrd, .mem, .ec] s (s.dropLines p) := by
  intro q hq; cases q <;> simp_all [Part.same, State.dropLines]

theorem invalidate_keeps (s : State) (ps : List Nat) : Keeps [.hrd, .mem, .ec] s (s.invalidate ps) := by
  unfold State.invalidate
  split
  · exact Keeps.rfl' _ _
  · exact dropLines_keeps _ _

theorem streamRead_keeps (s : State) (q : Nat) (v : Bool) (a n : Nat) : Keeps [.mem, .freeCount] s (s.streamRead q v a n).2 := by
  unfold State.streamRead
  split
  · exact Keeps.rfl' _ _
  · intro p hp; cases p <;> simp_all [Part.same]

theorem countUe_keeps (s : State) (q : Nat) : Keeps [.mem, .fb] s (s.countUe q) := by
  intro p hp; cases p <;> simp_all [Part.same, State.countUe]

/-- A line dropped from a cache is held no more. -/
theorem dropLine_find (c : Cache) (g : Nat) : Tab.find? (c.dropLine g).lines g = none := by
  simp [Cache.dropLine, Tab.find?_erase_same]

end Sys2Proof.Machine
end

