-- ==== Sys2Proof/WellFormed.lean ====
section
/-!
DEFINITION. WellFormed.lean: the operand ranges a command must keep: numbers of functions, contexts, cores, channels,
engines, ports, routes and jobs as the spec counts them (R19, R286, R480), and register offsets inside BAR0 (R718).
-/
namespace Sys2Proof

/-- Host functions 0 to 15 (R480). -/
def wfFn (f : Nat) : Bool := f < 16
/-- Contexts 0 to 4,095 (R286). -/
def wfCtx (c : Nat) : Bool := c < 4096
/-- Global core numbers (R19). -/
def wfCore (c : Nat) : Bool := c < 144
/-- Retriever channels (R19). -/
def wfChan (c : Nat) : Bool := c < 64
/-- Entropy engines (R19). -/
def wfEc (e : Nat) : Bool := e < 16
/-- Dictionary engines (R19). -/
def wfDce (e : Nat) : Bool := e < 8
/-- Quarters (R19). -/
def wfQuarter (q : Nat) : Bool := q < 4
/-- Route IDs: quarter in bits 11:10, index in bits 9:0 (R40). -/
def wfRoute (r : Nat) : Bool := r < 4096
/-- Gate ports (chapter 13). -/
def wfGate (p : Nat) : Bool := p < 2
/-- Traverse ports (chapter 15). -/
def wfTraverse (p : Nat) : Bool := p < 8
/-- Survey slots (R117). -/
def wfSlot (n : Nat) : Bool := n < 16
/-- Ingest streams (chapter 13). -/
def wfStream (n : Nat) : Bool := n < 4096
/-- Ingest decoders (chapter 13). -/
def wfDecoder (d : Nat) : Bool := d < 4
/-- Pack jobs (R534). -/
def wfJob (j : Nat) : Bool := j < 256
/-- Submission rings (R487) and output rings (R492). -/
def wfSq (r : Nat) : Bool := r < 32
def wfOq (r : Nat) : Bool := r < 64
/-- Unit numbers of a template variant are one byte (Table 3.5). -/
def wfUnit (u : Nat) : Bool := u < 256
/-- Offsets inside BAR0 (R718). -/
def wfOff (o : Nat) : Bool := o < 0x4000000
/-- Members of a Pack (R514). -/
def wfMember (m : Nat) : Bool := m < 2048

def wfSrc : Src → Bool
  | .tile off => off < 0x200000
  | .msg off => off < 65536
  | .data off => off < 65536
  | .imm bytes => bytes.length ≤ 65536

/-- Every operand lies in the range the spec gives it. -/
def Instr.wellFormed : Instr → Bool
  | .registerWrite f o _ _ => wfFn f && wfOff o
  | .badAccess f o n _ => wfFn f && wfOff o && decide (0 < n)
  | .routeSend c u p src _ => wfCtx c && wfUnit u && wfUnit p && wfSrc src
  | .blockedSendProceed r | .blockedReadProceed r | .slotFree r | .leashReceive r | .routeReclaimDone r => wfRoute r
  | .messageArrive r _ _ => wfRoute r
  | .routeRead c u p => wfCtx c && wfUnit u && wfUnit p
  | .auditPeriodTick q => wfQuarter q
  | .auditDrainDone d | .auditDrainTimeout d => wfQuarter d.quarter && decide (d.peerLeash < 512)
  | .auditRequest f q r => wfFn f && wfQuarter q && wfRoute r
  | .stallDetected c => wfCtx c
  | .crossingParityError r _ => wfRoute r
  | .loadRequest f n | .replaceRequest f n | .unloadRequest f n | .invalidSurveyOp f n => wfFn f && wfSlot n
  | .loadStart | .slotCommit _ | .loadRefused _ => true
  | .gridOp c u g => wfCtx c && wfUnit u && wfSrc g.a && wfSrc g.b
  | .exportPartial c u _ _ => wfCtx c && wfUnit u
  | .mergePartial c u _ src => wfCtx c && wfUnit u && wfSrc src
  | .vectorOp c u v => wfCtx c && wfUnit u && wfSrc v.a && wfSrc v.b && wfSrc v.c
  | .functionUnitEval c u _ _ _ src _ _ => wfCtx c && wfUnit u && wfSrc src
  | .rowReduce c u a | .softMaximum c u a | .normalisation c u a _ | .rowPartialEmit c u a _ =>
    wfCtx c && wfUnit u && wfSrc a.src
  | .rowPartialMerge c u a b _ => wfCtx c && wfUnit u && wfSrc a && wfSrc b
  | .reachLoad c u _ _ _ _ | .reachLoadReturn c u _ | .tallyWait c u _ _ | .tallyWaitRelease c u | .unitEnd c u =>
    wfCtx c && wfUnit u
  | .coreEccCorrected k | .coreCacheParityError k _ | .coreFatalError k | .fenceCancelDone k | .coreWatchdogExpiry k
  | .extendedTestDone k _ => wfCore k
  | .driverFence f | .unfenceRequest f | .contextAdmit ⟨f, _⟩ | .contextEndAfterFrame f | .contextEndNow f => wfFn f
  | .contextFreed c | .frameArrive c | .frameDispatch c _ | .frameCommit ⟨c, _⟩ => wfCtx c
  | .rngCompute f _ | .rngComplete f => wfFn f
  | .copy c _ | .copy2d c _ | .gather c _ _ | .fill c _ | .gateSend c _ | .peerPut c _ | .peerGet c _ | .dictCompress c _
  | .dictExpand c _ => wfChan c
  | .rtvCommandComplete c _ | .recordRingRelease c | .rtvCommandFail c _ _ | .channelFatalError c
  | .peerReportReceive c _ _ _ | .peerReportTimeout c _ => wfChan c
  | .channelResume f c | .channelDrop f c | .crecTailWrite f c _ => wfFn f && wfChan c
  | .tallyValueWrite f _ => wfFn f
  | .peerPutArrive m j _ _ _ | .peerGetArrive m j _ _ _ => wfMember m && wfJob j
  | .encode e c u _ | .decode e c u _ => wfEc e && wfCtx c && wfUnit u
  | .ecCommandComplete e _ | .ecEngineFatal e => wfEc e
  | .dceEngineFatal e => wfDce e
  | .memInvalRequest f => wfFn f
  | .memInvalDone => true
  | .patrolScrub a => decide (a < 0x1800000000)
  | .memCorrectedError q _ => wfQuarter q
  | .memFatalError q kind _ => wfQuarter q && (kind == 0 || kind == 1 || kind == 3)
  | .gateFrameReceive p _ | .gateLinkUp p | .gateLinkDown p => wfGate p
  | .auCloseTimeout n | .auRelease n => wfStream n
  | .pictureDecodeStart ⟨d, _⟩ | .pictureWritten d | .decoderFatalError d => wfDecoder d
  | .streamEnable f _ | .streamDisable f _ | .hostFeedDoorbell f _ | .hostFeedDescriptor f _ _ _ _ | .excTailWrite f _ =>
    wfFn f
  | .portEnable f p _ => wfFn f && wfGate p
  | .bar2Read f _ _ _ | .bar2Write f _ _ _ | .bar2BaseWrite f _ => wfFn f
  | .sqBind f r _ | .sqDoorbell f r _ | .sqEntryFetch f r _ _ | .frameSubmission f r _ _ | .sqResume f r | .sqDrop f r =>
    wfFn f && wfSq r
  | .waitingEntryPlaced f r | .oqCidxWrite f r _ | .oqIrqCoalesceExpiry f r | .drainBoundExpiry f r => wfFn f && wfOq r
  | .functionLevelReset f | .warmResetRequest f => wfFn f
  | .vfEnableChange n _ => decide (n < 16)
  | .perstAssert | .perstRelease | .pcieLinkDown | .endpointFatalError => true
  | .pcieLinkUp sp w => decide (1 ≤ sp && sp ≤ 5 && 1 ≤ w && w ≤ 16)
  | .packForm f | .packLeave f | .epochLoadRequest f => wfFn f
  | .traverseLinkUp p _ | .linkGreetingReceive p _ _ _ _ _ | .fingerprintReceive p _ _ _ | .formedReceive p _ _
  | .calibrationRoundStart p | .probeSend p | .probeReceive p _ _ | .probeReplyReceive p _
  | .probeTimestampsReceive p _ _ _ | .rateAnnounceReceive p _ _ => wfTraverse p
  | .refusedReceive p m => wfTraverse p && wfMember m
  | .formTimeoutExpiry | .syntonisationLoss | .rateChangeApply | .epochPpsEdge | .externalSourceTimeout => true
  | .whistleArrive p j _ _ _ _ _ | .whistleRelease p j _ _ | .whistleAbort p j _ _ | .whistleFail p j _ _ =>
    wfTraverse p && wfJob j
  | .whistleReleaseTime j | .barrierTimeout j | .arriveTimeout j | .failTimeout j => wfJob j
  | .flitReceive p _ _ _ | .replayRequestReceive p _ | .fecLockLossTimeout p | .retrainDone p _ | .traverseLinkDown p
  | .portStateFatal p => wfTraverse p
  | .pwrEnRise i | .slotIdRecheck i | .inputGood i => decide (i < 64)
  | .pwrEnFall | .undervoltageFault | .overvoltageFault | .restartRecordTimeout | .shutdownACancel | .shutdownAExpiry
  | .shutdownBDone | .wakeStepComplete | .wakeRetryTimer => true
  | .wakeStepTimeout k => decide (k < 256)
  | .statusState | .statusCause | .statusWakeInfo | .statusSlot | .statusVin | .statusIdent | .statusRrCount | .retry _
  | .alertResponse | .smbusClockTimeout => true
  | .profileChange f p => wfFn f && decide (p < 4)
  | .restartRecordsClear f => wfFn f
  | .profileChangeComplete | .powerLimiterStep _ | .powerLimitPersist | .vinMarginalTimeout _ | .resetNAssert
  | .resetNRelease | .readbackCheck _ => true
  | .tapInstructionLoad k => decide (k < 64)
  | .fbRead i => decide (i < 2 ^ 24)
  | .selfTestComplete k i _ => decide (k < 4) && decide (i < 144)
  | .zeroFillDone | .firmwareCheckDone | .bootWindowTimeout | .bootComplete => true
  | .cadRegisterWrite f o _ _ => wfFn f && wfOff o
  | .cadPortWrite _ | .policyInstall _ | .firmwareUpdate _ | .firmwareActivate => true
  | .forecasterStep ss fs => decide (ss.length = 174) && decide (fs.length = 174)
  | .fallbackStep q ss => wfQuarter q && decide (ss.length = 174)
  | .thermalTrip q => wfQuarter q
  | .fanDemandUpdate | .thermalCeilingUpdate | .cycleSample | .hourBandUpdate | .fieldBookPeriodicWrite _ | .fieldBookAppend _
  | .handlerWatchdogExpiry | .handlerReturn | .handlerReturnTimeout => true
  | .alertClear f _ | .errorRingEnable f _ | .erlRingTailWrite f _ | .handlerResetRequest f | .fbCopy f | .fbExport f
  | .note f | .mailboxComplete f => wfFn f
  | .mctpSetEndpointId _ _ | .mctpGetEndpointId _ _ | .mctpGetEndpointUuid _ _ | .mctpGetVersionSupport _ _
  | .mctpGetMessageTypeSupport _ _ | .mctpPacketError | .getTid _ _ | .setTid _ _ | .getPldmVersion _ _
  | .getPldmTypes _ _ | .getPldmCommands _ _ | .pdrRepositoryCommand _ _ | .getSensorReading _ _
  | .getStateSensorReadings _ _ | .setStateEffecterStates _ _ | .setEventReceiver _ _ | .platformEventAck _
  | .platformEventRetry _ => true
  | .quarterFatalError u => decide (u < 4)
  | .syntonisationLock => true

end Sys2Proof
end

