-- ==== Sys2Proof/Tests/Slice0.lean ====
section
/-!
SUPPORT. Tests/Slice0.lean: values of the spec's own tables on single steps, the ill-formed term that each check of
WellFormed refuses, and for every statement a state and operands that meet its hypotheses (`witness_<statement>`).
-/
namespace Sys2Proof.Tests
set_option Elab.async false
open Sys2Proof Sys2Proof.Machine

/-! ### A state of the module in RUN -/

/-- An entry of the Cadastre that grants every requester every page. -/
def openEntry : CadEntry := ⟨0, 0xFFFFFFFF, 0xFFFF, 0xFFFF, 0xFFFF, 0xFFFF, 0xFF, 0xFF⟩

/-- RUN with the link up, the Handler running and the Cadastre locked over one entry that grants everything. -/
def w : State :=
  { State.reset with
    pins := { perstN := true }
    sup := { mstate := .run }
    hst := { linkUp := true, speed := 5, width := 16 }
    hnd := { running := true }
    cad := { windowOpen := false, locked := true, entries := [openEntry], fwOk := true, coldBoot := false
             selfTests := [], zeroFill := false }
    thm := { forecaster := true } }

/-- A unit of kind `kind` at `place`, with the given next certificate steps. -/
def unitAt (unit kind place : Nat) (steps : List (CertStep × Nat)) : UnitRun :=
  { unit := unit, kind := kind, place := place, base := 0, size := 4096, codeLen := 64, steps := steps, ended := false
    blocked := none, passes := 0, accs := [], msg := [], data := [], queue := [], qPasses := 0, qAge := 0 }

def runOf (units : List UnitRun) (routes : List Nat) : FrameRun :=
  { k := 1, gen := 0, tier := 0, units := units, routes := routes, cancelling := false }

def frameOf (no : Nat) (run : Option FrameRun) : Frame :=
  { no := no, arrival := 0, deadline := 0, input := 0, inputLen := 0, inputLoss := false, concealed := false, restarts := 0
    passes := 0, run := run, firstGen := some 0, firstSig := 0, firstTier := 0, whistle := none, moved := false
    pinBroken := false }

/-- Context 0 runs a frame of the given units, of which the first issues from core 0. -/
def running (units : List UnitRun) (routes : List Nat) : State :=
  { w with hrd := { ctxs := [(0, { st := .admitted, held := [frameOf 0 (some (runOf units routes))], cores := [0] })]
                    cores := [(0, { issuing := some (0, 0) })] } }

/-- A route of context 0 from unit 0 to unit 1 with the given counters. -/
def routeOf (leash : Nat) (flight : List Msg) (occ : List Kept) (back readCnt nextSeq nextArrive : Nat) : Route :=
  { ctx := 0, frame := 0, index := 0, prodUnit := 0, prodPort := 0, consUnit := 1, consPort := 0, host := 1
    prodCore := some 0, consCore := some 1, slotSize := 64, cap := 4, base := 0x10000200000, leash := leash
    flight := flight, occ := occ, heldFrees := 0, endAudited := false
    back := back, readCnt := readCnt, nextSeq := nextSeq, nextArrive := nextArrive, crossesLink := false, peer := 0
    frozen := false, reclaiming := false, waitSend := none, waitRead := false, waitSince := 0, reclaimAudit := false }

def withRoute (s : State) (x : Route) : State := s.setRoute 0 x

/-- The state after a command that goes on. -/
def after (c : Instr) (s : State) : State :=
  match exec c s with
  | .next t => t
  | _ => s

/-! ### Fabric -/

def sender : UnitRun := unitAt 0 0 0 [(.send 0, 1)]
def reader : UnitRun := unitAt 0 0 0 [(.read 0, 1)]
def msg0 : Msg := ⟨0, [1]⟩
def kept0 : Kept := ⟨0, 1, 0⟩
/-- Unit 0 may send at once (a Leash is left), or must wait (none is). -/
def sending (leash : Nat) : State := withRoute (running [sender] [0]) (routeOf leash [] [] 0 0 0 0)
/-- Unit 0 reads at a route that ends at it, with a message to read or without. -/
def reading (occ : List Kept) : State :=
  withRoute (running [reader] [0]) { routeOf 3 [] occ 0 0 1 1 with prodUnit := 1, consUnit := 0 }

theorem witness_SendSpendsOneLeashOrBlocks :
    (∀ n, n = 1 ∨ n = 0 → ∃ f r, (sending n).issuer? 0 0 = some (f, r, sender) ∧
      (sending n).routeFrom r 0 0 = some (0, routeOf n [] [] 0 0 0 0) ∧
      sender.inOrder (.send 0) = true ∧ 64 ≤ (routeOf n [] [] 0 0 0 0).slotSize) ∧
    (routeOf 1 [] [] 0 0 0 0).canSend = true ∧ (routeOf 0 [] [] 0 0 0 0).canSend = false := by
  refine ⟨?_, by decide, by decide⟩
  rintro n (rfl | rfl) <;>
    exact ⟨frameOf 0 (some (runOf [sender] [0])), runOf [sender] [0], by decide +kernel, by decide +kernel, by decide,
      by decide⟩

theorem witness_MessagesOccupySlotsInOrder :
    (let x := routeOf 0 [msg0] [kept0, kept0, kept0] 0 0 1 0;
      (withRoute w x).route? 0 = some x ∧ x.flight = msg0 :: [] ∧ msg0.seq = x.nextArrive ∧ x.reclaiming = false ∧
      x.crossesLink = false ∧ x.leash + x.occ.length < x.cap ∧ 1 ≠ x.nextArrive) ∧
    (let x := { routeOf 2 [] [kept0] 0 0 1 0 with crossesLink := true }; let s := withRoute (running [reader] [0]) x;
      s.route? 0 = some x ∧ x.crossesLink = true ∧ x.occ.length < x.cap ∧ (s.ctx x.ctx).running.isSome = true ∧
      s.alive = true) ∧
    (∀ o, o = [kept0] ∨ o = [] → ∃ f r x, (reading o).issuer? 0 0 = some (f, r, reader) ∧
      (reading o).routeTo r 0 0 = some (0, x) ∧ reader.inOrder (.read x.index) = true ∧ x.occ[x.readCnt]? = o.head?) ∧
    w.alive = true := by
  refine ⟨by decide +kernel, by decide +kernel, ?_, by decide +kernel⟩
  rintro o (rfl | rfl)
  · exact ⟨frameOf 0 (some (runOf [reader] [0])), runOf [reader] [0],
      { routeOf 3 [] [kept0] 0 0 1 1 with prodUnit := 1, consUnit := 0 }, by decide +kernel, by decide +kernel, by decide, rfl⟩
  · exact ⟨frameOf 0 (some (runOf [reader] [0])), runOf [reader] [0],
      { routeOf 3 [] [] 0 0 1 1 with prodUnit := 1, consUnit := 0 }, by decide +kernel, by decide +kernel, by decide, rfl⟩

/-- A link whose channels are clear. -/
def clearLink : PckPort := { en := true, link := true, greeted := true }

/-- A Pack of two members on dimension 0, this module the second, with a clear link on each of its ports. -/
def wPack : State := { w with
  pck := { w.pck with state := .formed, shape := 1, member := 1, ports := [(0, clearLink), (1, clearLink)] } }

/-- A route to the other member, whose link is clear in both directions. -/
theorem witness_SendSpendsOneLeashOrBlocks_link :
    (let x := { routeOf 1 [] [] 0 0 0 0 with crossesLink := true, peer := 1 };
      wPack.pck.portTowards (wPack.pck.atOffset x.peer) = some 1 ∧
      (wPack.link 1).clear (wPack.pck.channel false 1) = true ∧
      wPack.pck.portTowards (wPack.pck.atOffset (wPack.pck.size - x.peer % wPack.pck.size)) = some 1 ∧
      (wPack.link 1).clear (wPack.pck.channel true 1) = true) := by decide +kernel

/-- A unit that waits to send and one that waits to read, with what they wait for at hand. -/
theorem witness_BlockedSendsReadsAndSlotsProceed :
    (let x := { routeOf 1 [] [] 0 0 0 0 with waitSend := some [7] };
      let s := withRoute (running [{ sender with blocked := some (.send 0) }] [0]) x;
      s.route? 0 = some x ∧ x.waitSend = some [7] ∧ (s.waiter? x.ctx x.prodUnit).isSome = true ∧ x.canSend = true) ∧
    (let x := { routeOf 3 [] [kept0] 0 0 1 1 with waitRead := true, consUnit := 0 };
      let s := withRoute (running [{ reader with blocked := some (.read 0) }] [0]) x;
      s.route? 0 = some x ∧ x.waitRead = true ∧ (s.waiter? x.ctx x.consUnit).isSome = true ∧
        x.occ[x.readCnt]? = some kept0) ∧
    (∀ p ∈ [(false, false), (false, true), (true, false), (true, true)],
      let x := { routeOf 2 [] [kept0] 1 1 1 1 with crossesLink := p.1, frozen := p.2 };
      let s := withRoute (running [reader] [0]) x;
      s.route? 0 = some x ∧ s.alive = true ∧ x.reclaiming = false ∧ x.heldFrees < x.readCnt ∧
        (s.ctx x.ctx).running.isSome = true ∧ 0 < x.back ∧ x.leash + 1 + x.occ.length ≤ x.cap ∧
        x.leash < x.cap) := by decide +kernel

theorem witness_ConservationOverMovements :
    (let x := { routeOf 1 [msg0] [kept0] 1 1 1 0 with waitSend := some [7] };
      let s := withRoute (running [{ sender with blocked := some (.send 0) }] [0]) x;
      s.route? 0 = some x ∧ x.crossesLink = false ∧ x.readCnt ≤ x.occ.length ∧ x.occ.length < x.cap ∧
      (∀ i ∈ [Instr.blockedSendProceed 0, .messageArrive 0 0 [], .slotFree 0, .leashReceive 0],
        ((after i s).route? 0).isSome = true ∧ (after i s).route? 0 ≠ some x)) := by decide +kernel

/-- An audit starts by the period and by request where none runs; a request names no route, or finds one under way. -/
theorem witness_AuditsFreezeCompareRelease :
    (let x := routeOf 4 [] [] 0 0 0 0;
      let s := withRoute w x;
      s.alive = true ∧ (s.quarter 0).audit = none ∧ s.robinNext 0 = some 0 ∧ s.route? 0 = some x ∧ s.hostReach 0 = true ∧
      (s.quarter 0).driverBusy = false ∧ s.route? 1023 = none ∧ routeQuarter 1024 ≠ 0 ∧ routeQuarter 0 = 0 ∧
      x.reclaiming = false ∧ (s.fab.routes.all fun p => !s.auditDue p.2) = true ∧
      ((s.modQuarter 0 fun k => { k with driverBusy := true }).quarter 0).driverBusy = true) := by decide +kernel

/-- An audit of the route of a running instance, at the edge of each clause: drained and equal, drained and unequal, not
drained, and on a link. -/
theorem witness_AuditsFreezeCompareRelease_ends :
    (∀ p ∈ [(routeOf 3 [] [kept0] 0 1 1 1, true, true), (routeOf 2 [] [kept0] 0 1 1 1, true, false),
        (routeOf 2 [msg0] [kept0] 0 1 1 1, false, false), ({ routeOf 4 [] [] 0 0 0 0 with crossesLink := true }, true, true)],
      let a : Audit := ⟨0, true⟩;
      let s := (withRoute (running [sender] [0]) p.1).modQuarter 0 fun k => { k with audit := some a };
      s.alive = true ∧ (s.quarter 0).audit = some a ∧ s.route? a.route = some p.1 ∧ routeQuarter a.route = 0 ∧
      s.drained p.1 = p.2.1 ∧ decide (p.1.auditLeash 4 + p.1.occ.length = p.1.cap) = p.2.2 ∧
      (s.fab.routes.all fun y => !s.auditDue y.2) = true ∧ (s.ctx p.1.ctx).st ≠ .free) := by decide +kernel

theorem witness_FabricFaultsAreContained :
    (let x := { routeOf 2 [msg0] [] 1 0 1 0 with reclaiming := true };
      let s := withRoute (running [sender] [0]) x;
      s.alive = true ∧ s.route? 0 = some x ∧ x.flight ≠ [] ∧ x.back ≠ 0 ∧ x.reclaiming = true ∧
      (s.ctx 0).running.isSome = true ∧ s.fab.stalled.contains 0 = false) ∧
    (∀ q, ((running [sender] [0]).quarter q).stallMs ≠ 0) ∧
    messageHops 0 (.core 0) 0 35 = 10 ∧
    arbiterGrant [⟨2, true⟩, ⟨1, true⟩] 16 = some ⟨1, true⟩ :=
  ⟨by decide +kernel, fun _ => by show (100 : BitVec 14) ≠ 0; decide, by decide +kernel, by decide +kernel⟩

/-! ### BAR0 and the host interface -/

/-- Three virtual functions in being. -/
def wVf : State := { w with hst := { w.hst with numVfs := 3, vfEnable := true } }

theorem witness_AccessesByTheirTarget :
    w.hostReach 0 = true ∧ wVf.hostReach 3 = true ∧ accessOf 0x100018 4 = .register ∧ accessOf 0x400018 8 = .register ∧
    accessOf 0x100018 8 = .bad ∧ accessOf 0x400018 4 = .bad ∧ accessOf 0x3FFFFF8 8 = .nothing ∧
    accessOf 0x3FFFFFC 4 = .nothing ∧ accessOf 0x100019 1 = .bad ∧ accessOf 0x100018 2 = .bad ∧ accessOf 0 16 = .bad := by
  decide +kernel

theorem witness_RegisterFieldsByAccessAndClass :
    w.hostReach 0 = true ∧ wVf.hostReach 3 = true ∧ (w.hrd.ctxs.any fun p => p.2.st != .free) = false ∧
    ((running [] []).hrd.ctxs.any fun p => p.2.st != .free) = true ∧ (running [] []).hostReach 0 = true := by decide +kernel

theorem witness_Bar2ReadsAndWritesMemory :
    w.hostReach 0 = true ∧ ringsAtHost w = true ∧ w.mem.wf = true ∧
    (∀ off ∈ [0, 0x17DFFFFFF8], off + 8 ≤ w.bar2Size 0 ∧ w.bar2Addr 0 off + 8 ≤ 0x17E0000000 ∧
      w.cadDenied 0 (w.bar2Addr 0 off) 8 false = none ∧ w.cadDenied 0 (w.bar2Addr 0 off) 8 true = none ∧
      w.badGranule [] (granules (w.bar2Addr 0 off) 8) = none ∧ w.badGranule [] (partGranules (w.bar2Addr 0 off) 8) = none) ∧
    (let s := { w with cad := { w.cad with entries := [] } };
      s.hostReach 0 = true ∧ s.cadDenied 0 (s.bar2Addr 0 0x17DFFFFFF8) 8 true = some 0x17DFFFF ∧ ringsAtHost s = true) := by
  decide +kernel

/-- Ring `ring` of the physical function as given, channel 0 being the driver's. -/
def withSq (ring : Nat) (q : Sq) : State := (w.setSq 0 ring q).modChan 0 fun x => { x with mode := 2 }

theorem witness_SubmissionRingsBindRingAndResume :
    (∀ ring ∈ [0, 31], let s := withSq ring {};
      s.hostReach 0 = true ∧ ring < 32 ∧ (s.sq 0 ring).head = (s.sq 0 ring).tail ∧
      ((s.sq 0 ring).withCfg 0x24).kind ≠ .command ∧ ((s.sq 0 ring).withCfg 0x14).kind = .command ∧
      s.ownsChan 0 ((s.sq 0 ring).withCfg 0x14).channel.toNat = true ∧
      s.channelBound 0 ring ((s.sq 0 ring).withCfg 0x14).channel.toNat = false ∧
      producerOk (s.sq 0 ring).size 0 15 0 = true ∧ producerOk (s.sq 0 ring).size 0 16 0 = false) ∧
    ((withSq 31 { halted := true }).sq 0 31).halted = true := by decide +kernel

/-- A submission of frame data at offset 0 of context 0, 64 bytes. -/
def submission : List Byte := List.replicate 16 0 ++ [64] ++ List.replicate 47 0

theorem witness_SubmissionEntriesAreTaken :
    (∀ k ∈ [SqKind.command, SqKind.frame],
      let s := (withSq 31 { host := true, kind := k, tail := 1 }).setCtx 0 { st := .admitted, len := 4096 };
      s.alive = true ∧ s.fnExists 0 = true ∧ s.hst.linkUp = true ∧ (s.sq 0 31).host = true ∧ (s.sq 0 31).halted = false ∧
      (s.sq 0 31).head ≠ (s.sq 0 31).tail ∧ (s.sq 0 31).kind = k ∧ s.ownsChan 0 0 = true ∧
      s.submissionOk 0 submission = true ∧ s.submissionOk 0 (List.replicate 64 1) = false) ∧
    submission.length = 64 ∧ (List.replicate 64 (1 : Byte)).length = 64 := by decide +kernel

theorem witness_OutputRingsPublishAndDrain :
    (let e : OqEntry := ⟨0, 0, 0, 0, [1], none⟩;
      let s := w.setOq 0 63 { host := true, wbHost := true, en := true, waiting := [e], unsignalled := 1, pidx := 1 };
      let s := s.setCtx 0 { st := .admitted, rings := [some 63] };
      s.alive = true ∧ (s.oq 0 63).disabled = false ∧ (s.oq 0 63).waiting = [e] ∧ (s.oq 0 63).fits e = true ∧
      (s.oq 0 63).host = true ∧ (s.oq 0 63).wbHost = true ∧ s.hostReach 0 = true ∧
      (1 - (s.oq 0 63).cidx).toNat ≤ ((s.oq 0 63).pidx - (s.oq 0 63).cidx).toNat ∧
      ((s.oq 0 63).pidx - (s.oq 0 63).cidx).toNat < (2 - (s.oq 0 63).cidx).toNat ∧ (s.oq 0 63).unsignalled ≠ 0 ∧
      (s.oq 0 63).en = true ∧ (s.oq 0 63).pidx ≠ (s.oq 0 63).cidx ∧ (s.oq 0 63).lateTo = none ∧
      s.boundStrict 0 63 = true) := by decide +kernel

theorem witness_LinkResetsHoldAndWarmReset :
    wVf.hostReach 3 = true ∧ ((running [] []).slot 0).owner.toNat = 0 ∧ w.hst.vfEnable = false ∧ w.hostReach 0 = true ∧
    (let s := { w with hst := {} }; s.alive = true ∧ s.pins.perstN = true ∧ s.hst.linkUp = false) ∧
    w.sup.mstate ≠ .shutdownA ∧ w.pins.resetN = true ∧ w.alive = true ∧
    (let u := after .resetNAssert w; u.sup.mstate = .boot ∧ u.sup.heldInReset = true) := by decide +kernel

/-! ### Survey images, contexts and cores -/

/-- A template of one core unit, without routes, in variant 1 alone. -/
def tmpl1 : TmplRec :=
  { nameId := 1, span := 1, variants := 1, boundary := 0, cost := 1000, deadline := 40000, role := 0, profile := 0
    lossy := false, packBound := false, rings := 0, drainMs := 0, maxInst := 4, instKib := 4, compatKey := 0 }
def prog1 : ProgRec := { template := 0, variant := 1, kind := 0, unit := 0, tileBytes := 4096, codeLen := 64, code := [] }
def image1 : Image :=
  { id := 0, signed := false, packBound := false, progs := [prog1], kennels := [], routes := [], leashes := [], wrefs := []
    tmpls := [tmpl1], nums := [], certs := [], pack := none, opens := [] }
def loaded1 : Loaded := { gen := 0, image := image1, hash := [] }
/-- RUN with that image in slot 0 and a heap of 16 MiB. -/
def wImage : State := { w with
  svy := { slots := [(0, { state := .loaded, current := some loaded1 })], nextGen := 1 }
  hrd := { heapBase := 0x100, heapLen := 0x1000 } }

theorem witness_AdmissionTakesZeroedMemory :
    (let s := wImage;
      s.hostReach 0 = true ∧ s.goBusy 0 = false ∧ s.sup.mstate ≠ .shutdownA ∧ (asked s 0).admitRefusal [] 0 0 = none ∧
      ((asked s 0).askedFor 0).map (fun p => p.1) = some loaded1 ∧
      (asked s 0).heapAlloc (heapBytes tmpl1.instKib) = some 0x100000 ∧ ringsAtHost s = true ∧ (s.fn 0).hrd.ctxSel = 0) ∧
    (let s := w.modFn 0 fun g => { g with hrd := { g.hrd with ctxSel := 4095 } };
      s.hostReach 0 = true ∧ s.goBusy 0 = false ∧ (s.fn 0).hrd.ctxSel.toNat = 4095 ∧ s.sup.mstate ≠ .shutdownA ∧
      (asked s 0).admitRefusal [] 0 4095 = some ⟨.hrd, 2⟩ ∧ (s.ctx 4095).st = .free) ∧
    (let s := { w with sup := { w.sup with mstate := .shutdownA } };
      s.hostReach 0 = true ∧ s.goBusy 0 = false ∧ s.sup.mstate = .shutdownA) := by decide +kernel

theorem witness_ContextsEndAndBecomeFree :
    (let s := running [sender] [];
      s.hostReach 0 = true ∧ s.goBusy 0 = false ∧ (s.fn 0).hrd.ctxSel = 0 ∧ s.ownsCtx 0 0 = true ∧
      (s.ctx 0).st ≠ .ending ∧ ((s.ctx 0).current?).isSome = true) ∧
    (let s := w.setCtx 0 { st := .admitted };
      s.hostReach 0 = true ∧ s.goBusy 0 = false ∧ s.ownsCtx 0 0 = true ∧ (s.ctx 0).st ≠ .ending ∧
      ((s.ctx 0).current?).isSome = false) ∧
    (let s := w.setCtx 4095 { st := .ending };
      s.alive = true ∧ (s.ctx 4095).st = .ending ∧ ((s.ctx 4095).current?).isSome = false ∧
      (s.fab.routes.all fun p => p.2.ctx != 4095 || (p.2.endAudited && !p.2.reclaiming)) = true) := by decide +kernel

/-- A frame that has arrived, not yet dispatched. -/
def fresh (no : Nat) : Frame := { frameOf no none with firstGen := none }

/-- What a commit is given for a template with no stream. -/
def noParts : StreamParts :=
  { intraMax := 0, sourceId := 0, digest := [], media := .audio 1, layers := [], intra := false, tiles := [], recon := [] }

theorem witness_FramesArriveDispatchCommit :
    (let f : Arriving := ⟨fresh 3, none⟩;
      let s := w.setCtx 0 { st := .admitted, arriving := [f, ⟨fresh 4, none⟩], held := [fresh 0, fresh 1, fresh 2] };
      s.alive = true ∧ s.jobOfCtx 0 = none ∧ (s.ctx 0).arriving = [f, ⟨fresh 4, none⟩] ∧ (s.ctx 0).st = .admitted ∧
      (s.ctx 0).held.length < 4) ∧
    (let f : Arriving := ⟨fresh 4, none⟩;
      let s := w.setCtx 0 { st := .admitted, arriving := [f], held := [fresh 0, fresh 1, fresh 2, fresh 3] };
      s.alive = true ∧ s.jobOfCtx 0 = none ∧ (s.ctx 0).arriving = [f] ∧ (s.ctx 0).st = .admitted ∧
      4 ≤ (s.ctx 0).held.length) ∧
    (let s := wImage.setCtx 0 { st := .admitted, held := [fresh 0], len := 4096 };
      s.alive = true ∧ s.jobOfCtx 0 = none ∧ (s.ctx 0).readyFrame = some (fresh 0) ∧ s.dispatching = true ∧
      s.routesAtRest 0 = true ∧ s.tooWide 0 (fresh 0) = false ∧
      s.turnOf 0 (fresh 0) = true ∧
      ((s.wantFor 0 (fresh 0)).any fun v => s.placementOk 0 v { cores := [0], places := [] }) = true) ∧
    (let f := frameOf 0 (some (runOf [{ sender with ended := true }] []));
      let s := w.setCtx 0 { st := .admitted, held := [f], len := 4096 };
      s.alive = true ∧ s.jobOfCtx 0 = none ∧ (s.ctx 0).running.isSome = true ∧
      s.frameDone 0 f (runOf [{ sender with ended := true }] []) = true ∧ s.commitHeld 0 = false ∧
      s.partsFit 0 noParts = true ∧
      (s.ctx 0).endAfter = false ∧ (s.ctx 0).rings.head?.join = none ∧ ringsAtHost s = true) := by decide +kernel

/-- A context of a template with a stream, before its first unit, within it, and at its end. -/
theorem witness_FramesArriveDispatchCommit_streams :
    (∀ b ∈ [false, true],
      let s := { wImage with svy := { slots := [(0, { state := .loaded, current := some { loaded1 with image := { image1 with
        tmpls := [{ tmpl1 with profile := 2 }] } } })], nextGen := 1 } };
      let s := s.setCtx 0 { st := .admitted, stream := { started := b } };
      s.ctxProfile 0 = 2 ∧ (s.ctx 0).stream.started = b ∧ (s.ctx 0).stream.waiting = [] ∧ (s.ctx 0).stream.ended = false) := by
  decide +kernel

/-- The physical function selects an admitted context whose template has variant 1 alone. -/
theorem witness_RegisterFieldsByAccessAndClass_pins :
    (let s := wImage.setCtx 0 { st := .admitted };
      s.hostReach 0 = true ∧ (s.fn 0).hrd.ctxSel = 0 ∧ s.ownsCtx 0 0 = true ∧ s.ctxTmpl 0 = some tmpl1 ∧
      (∀ v ∈ [0, 1], s.pinValid tmpl1 v = true) ∧ s.pinValid tmpl1 2 = false) := by decide +kernel

theorem witness_FencedCoresLeaveAndReturn :
    (∀ k ∈ [0, 139], let s := w.modFn 0 fun g => { g with hrd := { g.hrd with fenceSel := BitVec.ofNat 8 k } };
      s.coreWorks k = true ∧ s.hostReach 0 = true ∧ (s.fn 0).hrd.fenceSel.toNat = k) ∧
    w.coreWorks 32 = false ∧ w.coreWorks 144 = false ∧
    (let s := w.setCtx 0 { st := .admitted, held := [frameOf 0 (some { runOf [sender] [] with cancelling := true })] };
      s.alive = true ∧ s.cancelledOn 0 = [0] ∧ (s.ctx 0).running.isSome = true) ∧
    (let s := w.setCore 0 { fence := some .driver };
      s.hostReach 0 = true ∧ (s.fn 0).hrd.fenceSel = 0 ∧ s.enabled 0 = true ∧ s.fenced 0 = true ∧
      s.hnd.unfenceQueue = [] ∧ s.hnd.running = true) ∧
    (let s := w.setCore 139 { fence := some .driver, underTest := true };
      s.alive = true ∧ s.hnd.running = true ∧ (s.core 139).underTest = true) ∧
    (let s := w.setCore 0 { cache := { lines := [(64, List.replicate 64 0)] } };
      s.coreWorks 0 = true ∧ (Tab.find? (s.core 0).cache.lines (granule 127)).isSome = true) := by decide +kernel

/-! ### Survey slots -/

/-- An image with no template: header, the seven sections every image has, all empty, and an unsigned signature block. -/
def emptyImage : List Byte :=
  natLe 4 0x59565350 ++ natLe 2 1 ++ natLe 2 0 ++ natLe 4 512 ++ natLe 2 128 ++ natLe 2 7 ++ natLe 4 384 ++ [2, 0, 0, 0] ++
  List.replicate 104 0 ++
  ([(1, 32), (2, 16), (3, 16), (4, 16), (6, 64), (7, 16), (8, 8)].flatMap fun x =>
    natLe 2 x.1 ++ natLe 2 x.2 ++ natLe 4 0 ++ natLe 4 384 ++ List.replicate 20 0) ++ List.replicate 160 0

/-- A load of 512 bytes at address 0 into slot 15, where the given bytes stand. -/
def loading (bytes : List Byte) (running : Bool) : State :=
  let q : LoadReq := { fn := 0, slot := 15, replace := false, addr := 0, len := 512, fwMajor := 2 };
  { w with
    cad := { w.cad with allowUnsigned := true }
    mem := { bytes := writeBytes [] 0 bytes }
    svy := if running then { slots := [(15, { state := .loading })], running := some q } else { queue := [q] } }

theorem witness_SurveyRequestsQueueOrEnd :
    (∀ n ∈ [0, 15], w.hostReach 0 = true ∧ n < 16 ∧ (w.fn 0).svy.busy = false ∧ w.pck.busy = false ∧
      w.svyRefusal 0 n 0 = 0 ∧ (w.slot n).owner.toNat = 0) ∧
    (let s := { wImage with svy := { slots := [(15, { state := .loaded, current := some loaded1 })] } };
      s.hostReach 0 = true ∧ (s.fn 0).svy.busy = false ∧ s.pck.busy = false ∧ s.svyRefusal 0 15 1 = 0 ∧
      s.svyRefusal 0 15 2 = 0 ∧ (s.slot 15).current = some loaded1 ∧ (s.slot 15).retained = none ∧
      s.usersOf 15 loaded1.gen = 0) ∧
    (let s := w.setSlot 15 { owner := 3 };
      s.hostReach 0 = true ∧ (s.fn 0).svy.busy = false ∧ s.pck.busy = false ∧ (s.slot 15).owner.toNat ≠ 0) := by
  decide +kernel

theorem witness_LoaderCommitsOrRefuses :
    (let s := loading [] false; let q : LoadReq := { fn := 0, slot := 15, replace := false, addr := 0, len := 512, fwMajor := 2 };
      s.alive = true ∧ s.svy.running = none ∧ s.svy.queue = [q]) ∧
    (let s := loading emptyImage true; let q : LoadReq := { fn := 0, slot := 15, replace := false, addr := 0, len := 512, fwMajor := 2 };
      s.alive = true ∧ s.svy.running = some q ∧ (match s.checkLoad [] q with | .ok _ => true | .error _ => false) = true) ∧
    (let s := loading [] true; let q : LoadReq := { fn := 0, slot := 15, replace := false, addr := 0, len := 512, fwMajor := 2 };
      s.alive = true ∧ s.svy.running = some q ∧
        (match s.checkLoad [] q with | .ok _ => 0 | .error e => e.code) = 1) := by decide +kernel

/-! ### Core arithmetic -/

/-- Unit 0 issues with one exact accumulation, one element of BF16 1.0 in its message. -/
def issuing : State := running [{ sender with accs := [(0, .exact 5 1 false false false false)], msg := [0x80, 0x3F] }] []

def grid1 : GridArgs :=
  { free := false, fmtA := 0x13, fmtB := 0x13, m := 1, n := 1, k := 1, a := .msg 0, b := .msg 0, acc := 0, continues := false
    epilogue := none }
def epi1 : Epilogue :=
  { int32 := false, bias := none, act := 5, actArg := none, scale := none, fmt := 0x14, stochastic := none, dst := 4092 }

theorem witness_GridAccumulates :
    (∃ f r x, issuing.coreIssuer? 0 0 = some (f, r, x) ∧
      ((gridAccs x grid1 (issuing.operand x (.msg 0) 2) (issuing.operand x (.msg 0) 2)).any fun y => 2 ^ 24 < y.count) = false ∧
      Tab.find? x.accs 0 = some (.exact 5 1 false false false false) ∧
      (let p := readPartial (issuing.operand x (.imm (List.replicate 80 0)) 80);
        Tab.find? x.accs 1 = none ∧ p.count ≤ 2 ^ 24 ∧
        ((Tab.find? x.accs 0).bind fun q => q.merge p) = some (.exact 5 1 false false false false))) ∧
    gridPairOk grid1.fmtA grid1.fmtB = true ∧ epi1.act ≤ 5 ∧ (epi1.int32 || outFmtOk epi1.fmt) = true :=
  ⟨⟨_, _, _, rfl, by decide +kernel, by decide +kernel, by decide +kernel⟩, by decide, by decide, by decide⟩

theorem witness_ExactSumsDependOnNoOrder :
    [Fl.zero, .fin false 1 0].Perm [.fin false 1 0, Fl.zero] ∧ -(2 ^ 575 : Int) ≤ -(2 ^ 575) ∧ (2 ^ 575 - 1 : Int) < 2 ^ 575 ∧
      2 ^ 32 - 1 < 2 ^ 32 ∧ -(2 ^ 47 : Int) ≤ -(2 ^ 47) ∧ (2 ^ 47 - 1 : Int) < 2 ^ 47 := by
  refine ⟨List.Perm.swap _ _ _, ?_⟩
  decide +kernel

def vec1 : VecArgs :=
  { op := .add, free := false, fmt := 0x14, n := 1, a := .imm [0, 0, 0x80, 0x3F], b := .imm [0, 0, 0x80, 0x3F], c := .imm []
    dst := 0 }
def row1 (n : Nat) : RowArgs := { free := false, fmt := 0x14, n := n, src := .tile 0, outFmt := 0x14, dst := 0, parts := [] }

theorem witness_VectorFunctionAndRowUnitsWrite :
    (∃ f r x, issuing.coreIssuer? 0 0 = some (f, r, x) ∧ (vectorBytes issuing x (issuing.ctx 0).key f.no vec1).isSome = true) ∧
    (vectorFmt 0x14).isSome = true ∧ (fmtOf 0x10).isSome = true ∧ (fmtOf 0x14).isSome = true ∧ outFmtOk 0x14 = true ∧
    (∀ n ∈ [1, 2 ^ 24], 1 ≤ (row1 n).n ∧ (row1 n).n ≤ 2 ^ 24) ∧
    (mergeRowPartials (rowPartial 3 0 0 ⟨0, 0, 0⟩) (rowPartial 3 0 1 ⟨0, 0, 0⟩)).isSome = true :=
  ⟨⟨_, _, _, rfl, by decide +kernel⟩, by decide, by decide, by decide, by decide, by decide, by decide +kernel⟩

/-- An empty read cache is within its ways. -/
theorem witness_LoadsAndWaitsOfUnits_cache :
    ∀ h ∈ [coreCache, streamCache], ∀ k, (({} : Cache).sharing h k).length ≤ h.ways := by
  intro h _ k
  simp [Cache.sharing]

theorem witness_LoadsAndWaitsOfUnits :
    (∃ f r x, issuing.issuer? 0 0 = some (f, r, x) ∧ x.kind = 0 ∧
      (∀ p ∈ [(0, 2), (devTop - 64, 64)], loadOk p.1 p.2 = true ∧
        issuing.cadDenied (0x10 + issuing.ctxOwner 0) p.1 p.2 false = none ∧
        issuing.badGranule [] (granules p.1 p.2) = none ∧
        Tab.find? (issuing.core x.place).cache.lines (granule p.1) = none) ∧
      (∀ n ∈ [0, 255], n < 256 ∧
        reached ((issuing.instTally 0 n).2.tally (issuing.instTally 0 n).1) 0 = true ∧
        reached ((issuing.instTally 0 n).2.tally (issuing.instTally 0 n).1) 1 = false)) ∧
    (∃ f r x, (running [{ sender with blocked := some (.load 64 2 true) }] []).waiter? 0 0 = some (f, r, x) ∧
      x.blocked = some (.load 64 2 true)) ∧
    (∃ f r x, (running [{ sender with blocked := some (.tally 9 0) }] []).waiter? 0 0 = some (f, r, x) ∧
      x.blocked = some (.tally 9 0) ∧ reached (issuing.tally 9) 0 = true ∧ reached (issuing.tally 9) 1 = false) ∧
    (∃ f r x, (running [unitAt 0 3 0 []] []).issuer? 0 0 = some (f, r, x) ∧ x.kind = 3 ∧
      (running [unitAt 0 3 0 []] []).engineDone 0 f r x = true) :=
  ⟨⟨_, _, _, rfl, by decide, by decide +kernel, by decide +kernel⟩, ⟨_, _, _, rfl, by decide⟩,
    ⟨_, _, _, rfl, by decide, by decide, by decide⟩, ⟨_, _, _, rfl, by decide, by decide +kernel⟩⟩

theorem witness_CounterGeneratorTestRegisters :
    w.hostReach 0 = true ∧ (w.fn 0).rng.busy = false ∧
    (let s := after (.rngCompute 0 3) w;
      s.hostReach 0 = true ∧ s.alive = true ∧ (s.fn 0).rng.busy = true ∧ (s.fn 0).rng.seedMode = true) := by decide +kernel

/-! ### Retrievers, dictionary and entropy engines -/

/-- A driver's descriptor: opcode, spaces, source, destination, length and argument bytes; volatile, with tally 768. -/
def descOf (op spaces src dst len : Nat) (arg : List Byte) : Desc :=
  { opcode := BitVec.ofNat 8 op, flags := 1, spaces := BitVec.ofNat 8 spaces, res3 := 0, tally := 768, vector := 0
    src := BitVec.ofNat 64 src, dst := BitVec.ofNat 64 dst, len := BitVec.ofNat 32 len, tagId := 7, arg := padTo 24 arg
    waitTally := 0, peer := 0, waitValue := 0 }
def fill1 : Desc := descOf 4 0 0 0x1000 65 [1, 2, 3]
def copy1 : Desc := descOf 1 0 0x1000 0x2000 65 []
def compress1 : Desc := descOf 8 0 0x1000 0x2000 65 (natLe 8 0x4000 ++ natLe 4 4096 ++ natLe 2 1)
/-- A COPY of no bytes, which R281's checks refuse. -/
def badCopy : Desc := descOf 1 0 0x1000 0x2000 0 []
def args0 : StartArgs := { queue := 0, host := [], hostFail := false, ue := [] }

/-- The driver's channel 0 with a queue and started commands. -/
def channel (q : List Desc) (started : List Cmd) : State :=
  w.modChan 0 fun x => { x with mode := 2, driverQ := q, started := started, crecHost := true }

/-- A started command of a descriptor. -/
def cmdOf (d : Desc) (i : Issuer) : Cmd :=
  { tag := 0, issuer := i, desc := d, tally := 768, todo := [], pages := [], resultLen := 0, info := 0, status := 0
    unpublished := false, heldRecord := false, engine := none, ctxOut := none, fate := none, waitPeer := false }

theorem witness_CommandsStartAndTakeATag :
    startsOn (.fill 0 args0) 4 0 args0 [] ∧ startsOn (.copy 0 args0) 1 0 args0 [] ∧
    startsOn (.dictCompress 0 args0) 8 0 args0 [] ∧
    (w.starting 0 4 args0 []).isNone = true ∧
    (∀ p ∈ [(4, fill1), (1, copy1)], ((channel [p.2] []).starting 0 p.1 args0 []).any
      (fun y => y.2.startFault y.1 == none) = true) ∧
    ((channel [compress1] []).starting 0 8 args0 []).any
      (fun y => y.2.startFault y.1 == none && !(channel [compress1] []).recordBusy y.1) = true ∧
    ((channel [compress1] []).pickEngine 0).isSome = true ∧
    ((channel [badCopy] []).starting 0 1 args0 []).any (fun y => y.2.startFault y.1 == some (.code 1) &&
      y.1.issuer == .driver 0 && !y.1.desc.record) = true :=
  ⟨by simp [startsOn], by simp [startsOn], by simp [startsOn], by decide +kernel⟩

theorem witness_FillAndCopyLandTheirBytes :
    (∀ p ∈ [(4, fill1), (1, copy1)], ((channel [p.2] []).starting 0 p.1 args0 []).any
      (fun y => y.2.startFault y.1 == none && y.1.issuer == .driver 0 && !y.1.desc.record && y.1.desc.isVolatile &&
        y.1.desc.srcSpace == 0 && y.1.desc.dstSpace == 0) = true) ∧
    (channel [copy1] []).mem.wf = true ∧ (channel [copy1] []).mem.poison = [] ∧ args0.ue = [] ∧
    copy1.src.toNat + copy1.len.toNat ≤ devTop ∧ copy1.src.toNat + copy1.len.toNat ≤ copy1.dst.toNat ∧
    copy1.dst.toNat + copy1.len.toNat ≤ devTop := by decide +kernel

theorem witness_CommandsCompleteOrFail :
    (∀ i ∈ [Issuer.driver 0, .unit 0 0 1], let k := cmdOf copy1 i;
      (channel [] [k]).alive = true ∧ (channel [] [k]).cmd? 0 0 = some k ∧ k.ready = true ∧
      (k.issuer.isUnit = true ∨ k.desc.record = false) ∧ k.succeeded = true) ∧
    (∀ i ∈ [Issuer.driver 0, .unit 0 0 1], let k := { cmdOf copy1 i with fate := some (5, ⟨.mem, 2⟩, 64) };
      (channel [] [k]).cmd? 0 0 = some k ∧ k.failure 5 = some (5, ⟨.mem, 2⟩, 64)) ∧
    (let k := { cmdOf copy1 (.driver 0) with fate := some (13, ⟨.dce, 1⟩, 0) };
      (channel [] [k]).cmd? 0 0 = some k ∧ k.failure 13 = some (13, ⟨.dce, 1⟩, 0) ∧ k.desc.record = false) ∧
    ringsAtHost (channel [] []) = true := by decide +kernel

theorem witness_ChannelRegistersAct :
    (let s := (channel [] []).modFn 0 fun g => { g with tallySel := 768 };
      s.hostReach 0 = true ∧ s.ownsChan 0 0 = true ∧ s.ownsTally 0 (tallyKey 0 768) = true ∧
      (s.fn 0).tallySel.toNat / 1024 = 0 ∧ (s.fn 0).tallySel.toNat % 1024 = 768 ∧
      s.rtv.chans.any (fun p => p.2.names (tallyKey 0 768)) = false) ∧
    (channel [copy1] []).rtv.chans.any (fun p => p.2.names (tallyKey 0 768)) = true ∧
    (let s := w.modChan 0 fun x => { x with mode := 2, head := 15, tail := 14 };
      s.ownsChan 0 0 = true ∧ consumerOk (s.chan 0).recordSize 14 15 15 = true ∧
      consumerOk (s.chan 0).recordSize 14 0 15 = false) ∧
    (let k := { cmdOf copy1 (.driver 0) with heldRecord := true };
      ((channel [] [k]).chan 0).started.find? (fun y => y.heldRecord) = some k ∧
      ((channel [] [k]).chan 0).recordFull = false ∧ k.succeeded = true ∧ ((channel [] [k]).chan 0).crecHost = true) := by
  decide +kernel

/-- A formed Pack whose ID the policy names. -/
def formed : State := { channel [] [] with cad := { w.cad with packIds := [0] }, pck := { state := .formed } }

theorem witness_PeerRequestsAreServed :
    (let a := devTop - 64;
      formed.alive = true ∧ formed.pck.state = .formed ∧ formed.peerRange 256 a 64 = some a ∧
      (formed.peerTally 256 768).map (fun p => p.1) = some (some 768) ∧
      formed.cadDenied formed.packClass a 64 true = none ∧ formed.cadDenied formed.packClass a 64 false = none ∧
      formed.mem.poison = [] ∧ formed.badGranule [] (granules a 64) = none ∧
      formed.peerRange 256 (a + 1) 64 = none ∧ formed.peerRange 0 0 64 = none) ∧
    (∀ op ∈ [6, 7], let k := { cmdOf (descOf op (4 * 8) 0 0 64 []) (.driver 0) with waitPeer := true };
      (channel [] [k]).alive = true ∧ (channel [] [k]).cmd? 0 0 = some k ∧ k.waitPeer = true ∧ k.desc.record = false ∧
      k.desc.op = op ∧ k.peerTally = none ∧ (List.replicate 64 (0 : Byte)).length = k.desc.len.toNat ∧
      (let s := channel [] [k]; s.badMerge [] (s.getWrites k.issuer k.desc [] (List.replicate 64 0)) = none)) ∧
    leavesNow formed 0 true = true := by decide +kernel

/-- A volatile ENCODE or DECODE of one symbol of context 0, its data, its slot, its record and its table set in instance memory. -/
def ecCommand (op : Byte) : List Byte :=
  [op, 1, 0x55, 0, 0, 0, 1, 1] ++ natLe 8 0x800 ++ natLe 8 0x900 ++ natLe 8 0xA00 ++ natLe 4 16 ++ natLe 4 0 ++
  natLe 8 0xB00 ++ natLe 8 0x400 ++ List.replicate 8 0
/-- Context 0 runs an entropy unit on engine 0 with a command at the head of its queue; a table set of one table of one
symbol stands at 0x400. -/
def coding (d : List Byte) : State :=
  let s := running [{ unitAt 0 1 0 [] with queue := [d] }] [];
  let s := s.modCtx 0 fun x => { x with len := 4096 };
  { s with mem := { bytes := [(0x400, 1), (0x405, 3), (0x4C0, 1)] } }

theorem witness_EntropyCommandsRunAndEnginesFail :
    (w.ecHead 0 0 0).isNone = true ∧
    (∀ op ∈ [(1 : Byte), 2], ((coding (ecCommand op)).ecHead 0 0 0).any (fun x =>
      let s := (coding (ecCommand op)).modUnit 0 0 fun y => { y with queue := y.queue.drop 1 };
      (x.decodes == (op == 2)) && x.formOk && decide (8 + 2 * x.symbols ≤ x.cap) &&
      ([x.values, x.params, x.slot, x.record, s.ecTables x].all fun r =>
        (s.ecPlace x r).any fun p => (s.rangeDenied x.issuer r.space p r.len r.write).isNone) &&
      (readTableSet (s.ecRead x (s.ecTables x)).1).isSome && s.mem.poison.isEmpty) = true) ∧
    ((coding [1]).ecHead 0 0 0).any (fun x => !x.decodes && !x.formOk) = true ∧
    (let k : EcCmd := ⟨9, 0, 0, 0, false, 5, [], [], 1, false, 0⟩;
      let s := w.setEcEngine 15 { started := [k] };
      s.alive = true ∧ (s.ecEngine 15).started.find? (fun y => y.serial == 9) = some k ∧ k.flags = 0) ∧
    w.alive = true ∧ (w.chan 63).disabled = false ∧ w.boundTo 3 63 = [] ∧ (w.chan 63).started = [] ∧
    (w.ecEngine 15).disabled = false ∧ w.boundTo 1 15 = [] ∧ (w.dceEngine 7).disabled = false ∧ w.boundTo 2 7 = [] ∧
    w.engineCmds 7 = [] ∧ ((w.setEcEngine 15 { disabled := true }).ecEngine 15).disabled = true ∧
    ((w.setDceEngine 7 { disabled := true }).dceEngine 7).disabled = true ∧
    ((w.modChan 63 fun x => { x with disabled := true }).chan 63).disabled = true := by decide +kernel

theorem witness_MemoryInvalidatesScrubsReports :
    w.hostReach 0 = true ∧ w.alive = true ∧ ({ w with mem := { invalBusy := true } } : State).mem.invalBusy = true ∧
    3 < 4 ∧ w.sup.mstate = .run ∧ Tab.find? (Tab.getD w.mem.src 3 {}).lines (granule 127) = none ∧
    (let s := { w with mem := { src := [(3, { lines := [(64, List.replicate 64 0)] })] } };
      s.alive = true ∧ (Tab.find? (Tab.getD s.mem.src 3 {}).lines (granule 127)).isSome = true) := by decide +kernel

/-! ### Gate ports and ingest -/

/-- An Ethernet frame to MAC address 0 with its check sequence. -/
def ethFrame (type : List Byte) (d : List Byte) : List Byte :=
  let f := List.replicate 12 0 ++ type ++ d;
  f ++ ethFcs f
/-- A UDP datagram over IPv4 from and to address 0 and port 0, with an RTP packet of six bytes of payload. -/
def rtpFrame (seq : Nat) : List Byte :=
  ethFrame [8, 0] ([0x45, 0, 0, 46, 0, 0, 0, 0, 0x40, 17, 0x7A, 0xC0] ++ List.replicate 8 0 ++ [0, 0, 0, 0, 0, 26, 0, 0] ++
    [0x80, 96] ++ natBe 2 seq ++ natBe 4 5 ++ natBe 4 0 ++ [1, 2, 3, 4, 5, 6])
def auOf (no ts : Nat) : AccessUnit :=
  { ts := ts, packets := [], loss := false, discont := false, no := no, lostBefore := 0, closedAt := 0, nals := []
    unreadable := false }

/-- Both ports enabled with their links up, the exception ring's indices as given, and stream 4095 as given. -/
def gate (head tail : Nat) (x : Stream) : State :=
  { w with ing := {
      ports := [(0, { en := true, link := true }), (1, { en := true, link := true })]
      excHead := BitVec.ofNat 16 head, excTail := BitVec.ofNat 16 tail, streams := [(4095, x)] } }

theorem witness_GatePortsFilterFrames :
    (∀ p ∈ [0, 1], let s := gate 14 0 {};
      s.alive = true ∧ (s.port p).en = true ∧ (s.port p).link = true ∧
      (List.replicate 63 (0 : Byte)).length < 64 ∧ 9216 < (List.replicate 9217 (0 : Byte)).length ∧
      (let b := ethFrame [0x88, 0xF7] (List.replicate 46 0); let f := b.take (b.length - 4);
        b.length = 64 ∧ b.drop (b.length - 4) = ethFcs f ∧
        acceptFrame (s.port p).mac.toNat (s.port p).vlanEn (s.port p).vid.toNat f = some (0x88F7, List.replicate 46 0) ∧
        macControl f = false ∧ offer 0x88F7 (List.replicate 46 0) = .exception 2 ∧ (s.ing.excHead.toNat + 1) % s.excSize ≠ s.ing.excTail.toNat ∧
        ((gate 15 0 {}).ing.excHead.toNat + 1) % (gate 15 0 {}).excSize = (gate 15 0 {}).ing.excTail.toNat) ∧
      (let b := ethFrame [0x88, 0x08] (List.replicate 46 0); let f := b.take (b.length - 4);
        b.length = 64 ∧ b.drop (b.length - 4) = ethFcs f ∧ macControl f = true) ∧
      s.hostReach 0 = true ∧ (w.port p).en = false ∧ w.hostReach 0 = true ∧
      consumerOk s.excSize s.ing.excTail.toNat 14 s.ing.excHead.toNat = true ∧
      consumerOk s.excSize s.ing.excTail.toNat 15 s.ing.excHead.toNat = false) := by decide +kernel

/-- Stream 4095 with an open access unit of timestamp 5, its highest sequence number 65535. -/
def videoStream : Stream := { enable := true, ssrcEn := true, highest := some 65535, opens := [auOf 0 5] }

/-- What the video decoder may answer: its answer is a free value of Config, so no state fixes it. -/
def decoded1 : Config.Decoded := { kept := true, y := [some 1, none, some 3, some 4], cb := [some 5], cr := [some 6] }

/-- Parameter sets and an IDR slice of H.264, written out bit by bit from that standard's syntax: constrained baseline at
level 1, 16 × 16 frames, one reference picture, sets 0 and 0, and a slice that names picture parameter set 0. -/
def nals264 : List (List Byte) := [[0x67, 66, 0x40, 10, 0xDA, 0x79], [0x68, 0xC8], [0x65, 0x88, 0x80]]
def params264 : SeqParams := { id := 0, admitted := true, width := 16, height := 16, depth := 8, refs := 1 }
/-- A slice whose picture parameter set has not come. -/
def nalsLost : List (List Byte) := [[0x65, 0x88, 0x80]]

/-- The values that the bits above spell. -/
theorem test_readSps264 : (readSps 0 [0x67, 66, 0x40, 10, 0xDA, 0x79]) = some params264 := by decide +kernel

theorem open_admits (s : State) (h : s.cad = w.cad) {cls : Nat} (hg : openEntry.grants cls true = true) (a m : Nat)
    (ha : a + m ≤ devTop) : s.cadDenied cls a m true = none := by
  unfold State.cadDenied
  rw [h, List.find?_eq_none]
  intro p hp
  have hb : p < 0xFFFFFFFF := by
    unfold pages at hp
    split at hp
    · simp at hp
    · simp only [List.mem_map, List.mem_range] at hp
      obtain ⟨i, hi, rfl⟩ := hp
      unfold devTop at ha
      omega
  have hc : openEntry.coversPage p = true := by
    simp only [CadEntry.coversPage, openEntry]
    simp only [Bool.and_eq_true]
    refine ⟨⟨by decide, ?_⟩, ?_⟩ <;> simp <;> omega
  have : cadPage [openEntry] cls p true = true := by
    simp only [cadPage, List.find?_cons, hc, hg]
  simp [w, this]

theorem witness_AccessUnitsBecomeFrames :
    (∀ p ∈ [0, 1], let s := { gate 0 0 videoStream with ing := { (gate 0 0 videoStream).ing with
        streams := [(4095, { videoStream with port := BitVec.ofNat 2 p })] } };
      ∀ seq ∈ [65535, 0], let b := rtpFrame seq; let f := b.take (b.length - 4);
        let d := [0x80, 96] ++ natBe 2 seq ++ natBe 4 5 ++ natBe 4 0 ++ [1, 2, 3, 4, 5, 6];
      s.alive = true ∧ (s.port p).en = true ∧ (s.port p).link = true ∧ 64 ≤ b.length ∧ b.drop (b.length - 4) = ethFcs f ∧
      ((acceptFrame (s.port p).mac.toNat (s.port p).vlanEn (s.port p).vid.toNat f).map fun y => offer y.1 y.2) =
        some (.udp false 0 0 d) ∧
      Tab.keysWhere (fun _ y => y.accepts p false 0 0 d) s.ing.streams = [4095] ∧
      readRtp d = some ⟨false, seq, 5, 0, [1, 2, 3, 4, 5, 6]⟩ ∧ videoStream.isAudio = false ∧ (65535 + 1) % 65536 = 0 ∧
      videoStream.hasAu 5 = true ∧
      s.cadDenied 0x20 videoStream.jitterArea.1 videoStream.jitterArea.2 true = none ∧ videoStream.heldBytes + 6 ≤ videoStream.jitMib.toNat * 2 ^ 20) ∧
    (let x : Stream := { closed := [auOf 1 5], ready := [auOf 0 4] }; let s := gate 0 0 x;
      s.stream 4095 = x ∧ x.opens.any (fun y => (auOf 1 5).isLater y) = false ∧ x.isAudio = false ∧ x.ready = [auOf 0 4]) ∧
    (let s := { gate 0 0 { ready := [auOf 0 4] } with ing := { (gate 0 0 { ready := [auOf 0 4] }).ing with
        decoders := [(3, { queue := [4095] })] } };
      (s.decoder 3).queue = [4095] ∧ (s.decoder 3).disabled = false ∧ (s.decoder 3).busy = none ∧
      (s.stream 4095).ready = [auOf 0 4] ∧ s.badReference (s.stream 4095) [] = none) := by decide +kernel

/-- The other hypotheses on a decoder's answer are met by the answer `decoded1` (and by none). -/
theorem witness_AccessUnitsBecomeFrames_pictures :
    (let x : Stream := { enable := true, codec := 0 }; let u := { auOf 7 5 with nals := nals264 };
      let s := { (gate 0 0 x).setCtx 0 { st := .admitted, source := 1, feed := 4095, len := 2 ^ 26 } with
        ing := { (gate 0 0 x).ing with decoders := [(3, { busy := some (4095, u) })] } };
      s.alive = true ∧ s.stream 4095 = x ∧ (s.decoder 3).busy = some (4095, u) ∧ u.unreadable = false ∧
      u.lostBefore = 0 ∧ s.feeds 4095 = true ∧ activeParams x.codec.toNat x.history u.nals = some params264 ∧
      activeParams x.codec.toNat x.history nalsLost = none ∧
      x.fits params264 = true ∧ params264.refs ≤ x.refSlots.toNat ∧ 1 ≤ x.refSlots.toNat ∧
      u.nals.any (isRandomAccess x.codec.toNat) = true ∧ (s.ctx x.ctx.toNat).slotHeld 7 = false ∧ s.mem.poison = [] ∧
      (s.ctx x.ctx.toNat).arriving = [] ∧ x.refArea.1 + x.refArea.2 ≤ devTop ∧
      (s.ctx 0).base + x.inputOff.toNat * 4096 + 8 * x.slotSize + 512 ≤ devTop ∧
      (∀ r ∈ x.rowsOf (pictureOf params264 true decoded1 x.lastPic), r.1 + r.2.length ≤ x.slotSize)) ∧
    (∀ a m, a + m ≤ devTop → w.cadDenied 0x20 a m true = none) :=
  ⟨by decide +kernel, open_admits w rfl (by decide)⟩

theorem witness_StreamsAndHostFeeds :
    (let s := ((gate 0 0 {}).setCtx 0 { st := .admitted, source := 1, feed := 4095 }).modFn 0 fun g => { g with strmSel := 4095 };
      (s.fn 0).strmSel.toNat = 4095 ∧ s.mayControl 0 4095 0x40001 = true ∧ (s.stream 4095).enable = false ∧
      s.enableRefusal 0 4095 ((s.stream 4095).withCtrl 0x40001) = none ∧
      s.enableRefusal 0 4095 ((s.stream 4095).withCtrl 1) = some 2) ∧
    (let s := ((gate 0 0 { enable := true }).setCtx 0 { st := .admitted }).modFn 0 fun g => { g with strmSel := 4095 };
      s.mayControl 0 4095 0 = true ∧ (s.stream 4095).enable = true) ∧
    (w.decoder 3).disabled = false ∧ (w.decoder 3).busy = none ∧ (w.ing.streams.all fun y => !y.2.enable) = true ∧
    w.hostReach 0 = true ∧ producerOk 16 0 15 0 = true ∧ producerOk 16 0 16 0 = false ∧ (w.fn 0).feed.size = 16 ∧
    (let b : List Byte := natLe 2 4095 ++ [1, 0] ++ natLe 4 64 ++ List.replicate 24 0;
      let s := ((gate 0 0 { enable := true, port := 3 }).setCtx 0 { st := .admitted }).modFn 0
        (fun g => { g with feed := { host := true, tail := 1 } });
      s.alive = true ∧ s.fnExists 0 = true ∧ (s.fn 0).feed.disabled = false ∧ (s.fn 0).feed.head ≠ (s.fn 0).feed.tail ∧
      (s.fn 0).feed.host = true ∧ s.hst.linkUp = true ∧ b.length = 32 ∧ s.feedOk 0 b = true ∧
      (leAt b 2 1).testBit 0 = true ∧ (s.stream (leAt b 0 2)).isAudio = false ∧
      (s.stream (leAt b 0 2)).isNew (leAt b 0x10 4) = true ∧ (s.stream (leAt b 0 2)).hasAu (leAt b 0x10 4) = false ∧
      s.feedOk 0 (List.replicate 32 0xFF) = false) := by
  decide +kernel

/-! ### Packs, Traverse links and the Whistle -/

theorem witness_EveryMemberHasAParent :
    (∀ m ∈ [1, 1], let p : Pck := { shape := 1 }; m < p.size ∧ m ≠ 0) ∧
    (let p : Pck := { shape := 0x3777 }; 2047 < p.size ∧ 2047 ≠ 0 ∧ p.size ≤ 2048) := by decide +kernel

/-- A Pack of two members along dimension 0, this module being member `me`, both its ports' links up. -/
def pack (me : Nat) (st : PackState) : State :=
  { w with pck := {
      state := st, shape := 1, member := BitVec.ofNat 11 me, admitIds := [0, 1], ready := true
      ports := [(0, { en := true, link := true, greeted := true }), (1, { en := true, link := true, greeted := true })] } }

/-- The image of slot 0 bound to a Pack of two whose admission list, at address 0, names modules 0 and 1. -/
def packImage : State :=
  let l := natLe 8 0 ++ natLe 8 0 ++ natLe 8 1 ++ natLe 8 0;
  let i : Image := { image1 with packBound := true, pack := some ⟨2, 0, 2, 0, (hashId l).toNat, 0⟩ };
  { pack 0 .idle with
    mem := { bytes := writeBytes [] 0 l }
    svy := { slots := [(0, { state := .loaded, current := some { gen := 0, image := i, hash := [] } })] } }

theorem witness_FormationBeginsGreetsEnds :
    packImage.hostReach 0 = true ∧ packImage.pck.busy = false ∧ packImage.formCheck.isSome = true ∧
    (pack 0 .idle).pck.busy = false ∧ (pack 0 .idle).formCheck = none ∧ (pack 0 .idle).hostReach 0 = true ∧
    (∀ q ∈ [0, 7], let s := w.modLink q fun x => { x with en := true };
      s.alive = true ∧ q < 8 ∧ (s.link q).en = true ∧ (s.link q).link = false) ∧
    (∀ q ∈ [0, 1], let s := pack 0 .forming;
      s.alive = true ∧ s.pck.state = .forming ∧ (s.link q).link = true ∧ s.pck.cabledPorts.contains q = true ∧
      s.pck.neighbour s.pck.me q = some 1 ∧ s.pck.packId = 0 ∧ s.pck.admitIds[1]? = some 1 ∧ (0 : Word) = -(s.link q).asym ∧
      22000 ≤ 22000 ∧ 22000 < 22001) := by decide +kernel

/-- The report of member 1 of the Pack of two. -/
theorem witness_FormationReportsAndRounds :
    (let s := { pack 0 .forming with svy := packImage.svy };
      let t := s.modLink 1 fun x => { x with report := some { print := s.ownPrint, delay := 2 ^ 17, differs := none } };
      s.alive = true ∧ s.pck.state = .forming ∧ s.pck.childPorts.contains 1 = true ∧ s.pck.isMaster = true ∧
      s.pck.ready = true ∧ s.pck.reported = false ∧ t.roundsMade = true ∧
      (s.pck.childPorts.all fun c => (t.link c).report.isSome) = true ∧ t.combineReports.2 = none) ∧
    (let s := { pack 0 .forming with pck := { (pack 0 .forming).pck with ready := false } };
      s.alive = true ∧ s.pck.state = .forming ∧ s.pck.childPorts.contains 1 = true ∧ s.pck.ready = false) ∧
    (let s := pack 1 .forming; s.alive = true ∧ s.pck.state = .forming ∧ s.pck.parentPort s.pck.me = some 0) ∧
    (let s := pack 0 .forming;
      s.pck.busy = true ∧ s.parentEnd 1 = true ∧ s.pck.ready = true ∧ (s.link 1).round = none) ∧
    (∀ n ∈ [0, 63], let r := { Round.start true with sent := n, done := n, t1 := [(n, 5)] };
      let s := (pack 0 .forming).modLink 1 fun x => { x with round := some r };
      s.alive = true ∧ (s.link 1).round = some r ∧ s.parentEnd 1 = true ∧ r.sent < 64 ∧ Tab.find? r.t1 n = some 5) ∧
    (∀ n ∈ [0, 63], let r := { Round.start false with done := n, t23 := [(n, (5, 6))] };
      let s := (pack 1 .formed).modLink 0 fun x => { x with round := some r };
      s.alive = true ∧ s.pck.busy = true ∧ s.pck.childEnd 0 = true ∧ (s.link 0).link = true ∧ n < 64 ∧
      (s.link 0).round = some r ∧ Tab.find? r.t23 n = some (5, 6) ∧ r.formation = false ∧
      ((r.sumOff + (exchange 4 5 6 7 (s.parentAsym 0)).1) / 64).natAbs ≤ 32768 ∧
      s.pck.parentPort s.pck.me = some 0 ∧ (r.done + 1 = 64 ↔ n = 63)) := by decide +kernel

/-- Job 255 of the Pack of two runs context 0, which holds a frame. -/
def job (me : Nat) (b : Option Barrier) (f : Frame) : State :=
  { pack me .formed with
    hrd := { ctxs := [(0, { st := .admitted, held := [f] })] }
    pck := { (pack me .formed).pck with jobs := [(255, { valid := true, barrier := b })] } }

/-- The tree links' control channels are clear, on the master and on the other member. -/
theorem witness_FormationReportsAndRounds_links :
    treeClear (pack 0 .forming) ∧ treeClear (pack 1 .formed) ∧ ((pack 0 .forming).link 1).clear controlChannel = true ∧
    ((pack 1 .formed).link 0).clear controlChannel = true ∧ treeClear (job 0 none (fresh 0)) := by
  unfold treeClear
  decide +kernel

theorem witness_EpochClockFollowsItsSource :
    (let s := pack 1 .formed;
      s.alive = true ∧ s.pck.followsParent = true ∧ s.pck.parentPort s.pck.me = some 0 ∧ (s.link 0).greeted = true ∧
      s.hostReach 0 = true ∧ s.pck.busy = true) ∧
    (let s := { pack 1 .formed with pck := { (pack 1 .formed).pck with epoch := { syntLock := true, pendingRate := some (5, 9) } } };
      s.alive = true ∧ s.pck.followsParent = true ∧ s.pck.epoch.syntLock = true ∧ s.pck.epoch.pendingRate = some (5, 9) ∧
      s.epoch.toNat < (9 : DWord).toNat ∧ (0 : DWord).toNat ≤ s.epoch.toNat) ∧
    (let s := { w with pck := { srcExternal := true, epoch := { ext := .locked, loadPending := true } } };
      s.alive = true ∧ s.hostReach 0 = true ∧ s.pck.busy = false ∧ s.pck.srcExternal = true ∧ s.pck.external = true ∧
      s.pck.epoch.ext = .locked ∧ s.pck.epoch.loadPending = true ∧ s.pck.epoch.ext ≠ .holdover) ∧
    w.pck.busy = false ∧ w.pck.srcExternal = false ∧ w.pck.external = false := by decide +kernel

theorem witness_WhistleReleasesFramesOrAborts :
    (let s := job 0 (some { selfReady := true, timer := some 0 }) (fresh 0);
      s.alive = true ∧ (s.job 255).valid = true ∧ s.pck.state = .formed ∧ s.pck.isMaster = true ∧
      (s.job 255).barrier = some { selfReady := true, timer := some 0 } ∧ s.pck.childPorts.contains 1 = true ∧
      (s.pck.childPorts.all fun p => p == 1 || (([] : List (Nat × Arrive)).any fun a => a.1 == p)) = true ∧
      s.pck.skewFault = false ∧ (s.ctx 0).held = [fresh 0] ∧ 1 + 0 + 1 = s.pck.size) ∧
    (let s := job 1 (some { sentAt := some 0 }) (fresh 0);
      s.pck.parentPort s.pck.me = some 0 ∧ (s.job 255).awaits 0 = true ∧ (s.ctx 0).held = [fresh 0] ∧
      s.epoch.toNat ≤ (0 : DWord).toNat ∧
      ∃ b, (s.job 255).barrier = some b ∧ b.sentAt.isSome = true) ∧
    (let s := { job 1 (some { sentAt := some 0 }) (fresh 0) with
        pck := { (job 1 (some { sentAt := some 0 }) (fresh 0)).pck with epoch := { count := 65536 } } };
      (0 : DWord).toNat < s.epoch.toNat ∧ (s.job 255).awaits 0 = true) ∧
    (let s := job 0 none { fresh 0 with whistle := some (.scheduled 0) };
      s.alive = true ∧ (s.job 255).valid = true ∧ (s.ctx 0).held = [{ fresh 0 with whistle := some (.scheduled 0) }] ∧
      (0 : DWord).toNat ≤ s.epoch.toNat ∧ s.epoch.toNat < (1 : DWord).toNat ∧ s.pck.childPorts.contains 1 = true ∧
      s.pck.isMaster = true) ∧
    (let s := { w with pck := { (pack 1 .formed).pck with shape := 3, jobs := [(255, { valid := true, failSent := some 0 })] } };
      s.alive = true ∧ (s.job 255).valid = true ∧ (s.job 255).failSent.isSome = true ∧ s.pck.isMaster = false ∧
      s.pck.childPorts.contains 1 = true ∧ s.pck.parentPort s.pck.me = some 0) := by
  refine ⟨by decide +kernel, ⟨by decide +kernel, by decide +kernel, by decide +kernel, by decide +kernel,
    ⟨{ sentAt := some 0 }, by decide +kernel, rfl⟩⟩, by decide +kernel, by decide +kernel, by decide +kernel⟩

theorem witness_LinksReplayRetrainFall :
    (∀ q ∈ [0, 7], let s := w.modLink q fun x => { x with link := true, replayOf := 5, replayRun := 15 };
      s.alive = true ∧ q < 8 ∧ (s.link q).link = true ∧ (s.link q).retraining = false ∧ (s.link q).replayOf = 5 ∧
      (s.link q).replayRun = 15 ∧ 1 ≠ (s.link q).rxSeq ∧ (s.link q).clear 0 = true) ∧
    (let s := w.modLink 7 fun x => { x with link := true, chans := [(0, { credits := 0 })] };
      (s.link 7).clear 0 = false ∧ (s.link 7).clear 4 = true ∧ (s.link 7).link = true ∧ (s.link 7).retraining = false) ∧
    (let s := (pack 0 .formed).modLink 1 fun x => { x with retraining := true };
      s.alive = true ∧ (s.link 1).link = true ∧ (s.link 1).retraining = true ∧ s.pck.neighbour s.pck.me 1 = some 1 ∧
      s.pck.busy = true) := by decide +kernel

/-! ### Power, wake-up, shutdown and the connector -/

/-- The module in a state of Table 17.1, with the further state of chapter 17 given. -/
def inState (m : ModState) (x : Sup) : State := { w with sup := { x with mstate := m } }

theorem witness_WakeStepsLeadToBootOrHold :
    (∀ g ∈ [false, true], let s := { inState .off {} with pins := { pwrEn := false, inputGood := g } };
      s.sup.mstate = .off ∧ s.pins.pwrEn = false ∧ s.pins.inputGood = g) ∧
    (inState .off {}).sup.mstate = .off ∧ (inState .off {}).pins.pwrEn = true ∧
    (∀ k ∈ [0, 1, 6, 7], let s := inState .wake { wakeStep := k };
      s.sup.mstate = .wake ∧ s.sup.retryWait = false ∧ s.sup.wakeStep = k ∧ (k < 7 ∨ k = 7)) ∧
    (∀ k ∈ [1, 7], ∀ n ∈ [1, 3, 4, 7], let s := inState .wake { wakeStep := k, attempts := n };
      s.sup.mstate = .wake ∧ s.sup.retryWait = false ∧ 1 ≤ s.sup.wakeStep ∧ s.sup.wakeStep ≤ 7 ∧ s.sup.attempts = n ∧
      (n < 4 ∨ 4 ≤ n)) ∧
    (let s := inState .wake { retryWait := true }; s.sup.mstate = .wake ∧ s.sup.retryWait = true) := by decide +kernel

theorem witness_ShutdownSavesRecordsAndEndsOff :
    (∀ m ∈ [ModState.boot, .ready, .run, .wake, .hold], (inState m {}).sup.mstate = m ∧ (inState m {}).pins.pwrEn = true) ∧
    (let s := inState .shutdownA { rr := { records := [[1], [2]], valid := true } };
      s.sup.mstate = .shutdownA ∧ s.sup.rr.incomplete = false) ∧
    (let s := inState .shutdownA { left := .boot };
      s.sup.mstate = .shutdownA ∧ s.sup.noCancel = false ∧ s.pins.pwrEn = true ∧ s.hrd.asks = [] ∧ s.sup.left = .boot) ∧
    (let s := (inState .shutdownA { left := .run }).setCtx 0 { st := .admitted };
      s.sup.mstate = .shutdownA ∧ s.sup.noCancel = false ∧ s.pins.pwrEn = true ∧ s.hrd.asks = [] ∧ s.sup.left = .run ∧
      (s.hrd.ctxs.any fun p => p.2.st != .free) = true) ∧
    (inState .shutdownA { noCancel := true }).sup.noCancel = true ∧
    ({ inState .shutdownA {} with pins := { pwrEn := false } } : State).pins.pwrEn = false ∧
    (inState .shutdownB {}).sup.mstate = .shutdownB ∧ w.hostReach 0 = true := by decide +kernel

theorem witness_StatusCommandsTapAndReadback :
    (∀ m ∈ [ModState.wake, .hold, .boot, .ready, .run, .shutdownA], (inState m {}).smbusUp = true ∧
      (inState m {}).sup.mstate = m ∧ (inState m {}).sup.standby = true) ∧
    (∀ v ∈ [true, false], ∀ c ∈ [true, false], let s := inState .run { rr := { valid := v, cancelled := c } };
      s.smbusUp = true ∧ s.sup.rr.valid = v ∧ s.sup.rr.cancelled = c) ∧
    (let s := inState .hold { holdCause := 0x10 }; s.sup.mstate = .hold ∧ s.retryRefused = false) ∧
    (let s := inState .hold { tripLatch := true }; s.sup.mstate = .hold ∧ s.sup.tripLatch = true) ∧
    (let s := { inState .hold { holdCause := 0x20, bootFailAt := some 5 } with now := 10000000004 };
      s.sup.mstate = .hold ∧ s.sup.holdCause = 0x20 ∧ s.sup.bootFailAt = some 5 ∧ s.now < 5 + 10000000000) ∧
    (let s := { inState .hold { holdCause := 0x20, bootFailAt := some 5 } with now := 10000000005 };
      s.sup.mstate = .hold ∧ s.retryRefused = false) ∧
    (inState .hold {}).alertOut = true ∧ (inState .run {}).alertOut = false ∧ (inState .run {}).smbusUp = true ∧
    (let s := { inState .hold { tap := .fbRead } with fb := { diag := true } };
      s.sup.tap = .fbRead ∧ s.sup.mstate = .hold ∧ s.fb.diag = true ∧ s.sup.standby = true) ∧
    (∀ c ∈ [true, false], let s := inState .run { slotChanged := c };
      s.alive = true ∧ s.hnd.running = true ∧ BitVec.ofNat 6 63 ≠ s.sup.slotSample ∧ s.sup.slotChanged = c) := by
  decide +kernel

theorem witness_ProfilesAndPowerLimits :
    w.hostReach 0 = true ∧ w.sup.profileBusy = false ∧ w.profileRefusal (BitVec.ofNat 2 1) = none ∧
    w.profileRefusal (BitVec.ofNat 2 2) = none ∧ BitVec.ofNat 2 3 = (3 : BitVec 2) ∧ BitVec.ofNat 2 0 = w.sup.profile ∧
    (let s := inState .run { profileBusy := true, profileTarget := 2 };
      s.sup.mstate.powered = true ∧ s.sup.profileBusy = true) ∧
    w.sup.mstate.powered = true ∧
    (let p := w.limitMw / 1000; w.limitMw < (p + 1) * 1000 ∧ p * 1000 ≤ w.limitMw ∧ w.limitMw * 95 ≤ p * 100000 ∧
      0 * 100000 < w.limitMw * 95) ∧
    (let s := inState .run { limiter := 16 };
      s.sup.limiter.toNat = min s.sup.limiter.toNat s.profileCeiling ∧ s.sup.limiter.toNat + 1 < s.profileCeiling ∧
      s.sup.mstate.powered = true ∧ s.sup.capActive = false ∧ s.sup.limiter.toNat < s.profileCeiling) ∧
    (∀ r ∈ [true, false], ∀ mv ∈ [38000, 39999, 40000, 60000, 60001, 63000], let s := inState .run { vinReported := r };
      s.sup.mstate ≠ .off ∧ 38000 ≤ mv ∧ mv ≤ 63000 ∧ s.sup.vinReported = r ∧
      ((mv < 40000 ∨ 60000 < mv) ∨ (40000 ≤ mv ∧ mv ≤ 60000))) := by decide +kernel

/-! ### BOOT and the Cadastre -/

/-- The last 208 bytes of the policy: its signer, the base point of the curve, and its signature with the nonce 1. -/
def policyTail : List Byte :=
  (p384BaseKey ++ List.replicate 15 0) ++
    (natBe 48 (p384Gx % p384N) ++ natBe 48
      0x5bb34d783631141d393e9685a89b31268beb6a986bc590f0608ef4e737ed81970c2fe3ae17865d64c94e41421aab601c)

/-- A policy of POLICY_SEQ 1 with no entry, no key and no Pack ID, signed by the key that is the base point. -/
def policyBytes : List Byte := natLe 4 0x44414350 ++ [1, 0, 0, 0, 1, 0, 0, 0] ++ (List.replicate 17396 0 ++ policyTail)

theorem policyTail_length : policyTail.length = 208 := by decide +kernel

theorem policyBytes_length : policyBytes.length = 17616 := by
  simp only [policyBytes, List.length_append, List.length_replicate, policyTail_length]; rfl

theorem policyBytes_zero {off n : Nat} (h : 12 ≤ off) (h' : off + n ≤ 17408) :
    slice policyBytes off n = List.replicate n 0 := by
  have e : (natLe 4 0x44414350 ++ [1, 0, 0, 0, 1, 0, 0, 0] : List Byte).length = 12 := rfl
  rw [slice, policyBytes, List.drop_append, List.drop_of_length_le (by omega), e, List.nil_append, List.drop_append,
    List.drop_replicate, List.take_append, List.take_replicate, List.length_replicate, List.length_replicate,
    show n - (17396 - (off - 12)) = 0 by omega, List.take_zero, List.append_nil,
    show min n (17396 - (off - 12)) = n by omega]

theorem policyBytes_tail (off n : Nat) : slice policyBytes (17408 + off) n = slice policyTail off n := by
  have e : (natLe 4 0x44414350 ++ [1, 0, 0, 0, 1, 0, 0, 0] : List Byte).length = 12 := rfl
  rw [slice, policyBytes, List.drop_append, List.drop_of_length_le (by omega), e, List.nil_append, List.drop_append,
    List.drop_replicate, List.length_replicate, show 17396 - (17408 + off - 12) = 0 by omega, List.replicate_zero,
    List.nil_append, show 17408 + off - 12 - 17396 = off by omega, slice]

theorem allZero_replicate (n : Nat) : allZero (List.replicate n 0) = true := by
  simp [allZero]

theorem policyBytes_allZero {off n : Nat} (h : 12 ≤ off) (h' : off + n ≤ 17408) : allZero (slice policyBytes off n) = true := by
  rw [policyBytes_zero h h', allZero_replicate]

theorem leAt_zero {off n : Nat} (h : 12 ≤ off) (h' : off + n ≤ 17408) : leAt policyBytes off n = 0 := by
  rw [leAt, policyBytes_zero h h']
  induction n with
  | zero => rfl
  | succ n ih => rw [List.replicate_succ, leNat, ih (by omega)]; rfl

/-- What the signature covers, as SHA-384 pads it: one block, 135 blocks of zeros, and two blocks. -/
theorem policy_signed : policyBytes.take 0x4470 =
    (natLe 4 0x44414350 ++ [1, 0, 0, 0, 1, 0, 0, 0]) ++ (List.replicate 17396 0 ++ (p384BaseKey ++ List.replicate 15 0)) := by
  rw [policyBytes, policyTail, List.take_append, List.take_of_length_le (by decide), List.take_append,
    List.take_of_length_le (by rw [List.length_replicate]; decide), List.length_replicate, List.take_append,
    List.take_of_length_le (by decide +kernel)]
  rw [show 17520 - (natLe 4 0x44414350 ++ [1, 0, 0, 0, 1, 0, 0, 0] : List Byte).length - 17396 -
    (p384BaseKey ++ List.replicate 15 0 : List Byte).length = 0 by decide +kernel, List.take_zero, List.append_nil]

theorem shaBlocks_append {n : Nat} {h : List Nat} {b r : List Byte} (hb : b.length = 128) :
    shaBlocks (n + 1) h (b ++ r) = shaBlocks n (shaBlock h b) r := by
  rw [shaBlocks, List.take_append_of_le_length (by omega), List.take_of_length_le (by omega), List.drop_append_of_le_length
    (by omega), List.drop_of_length_le (by omega), List.nil_append]

/-- The hash value after `k` further blocks of zeros. -/
def zeroBlocks : Nat → List Nat → List Nat
  | 0, h => h
  | k + 1, h => zeroBlocks k (shaBlock h (List.replicate 128 0))

theorem shaBlocks_zero (k n : Nat) (h : List Nat) (r : List Byte) :
    shaBlocks (n + k) h (List.replicate (128 * k) 0 ++ r) = shaBlocks n (zeroBlocks k h) r := by
  induction k generalizing h with
  | zero => rfl
  | succ k ih =>
    rw [show 128 * (k + 1) = 128 + 128 * k by omega, ← List.replicate_append_replicate, List.append_assoc, ← Nat.add_assoc,
      shaBlocks_append (List.length_replicate ..), ih, zeroBlocks]

theorem policy_hash : sha384 (policyBytes.take 0x4470) =
    ((shaBlocks 2 (zeroBlocks 135 (shaBlock sha384Init
      ((natLe 4 0x44414350 ++ [1, 0, 0, 0, 1, 0, 0, 0]) ++ List.replicate 116 0)))
      (p384BaseKey ++ List.replicate 15 0 ++ [0x80] ++ List.replicate 127 0 ++ natBe 16 (8 * 17520))).flatMap (natBe 8)).take
        48 := by
  have hk : (p384BaseKey ++ List.replicate 15 0 : List Byte).length = 112 := by decide +kernel
  have hl : (policyBytes.take 0x4470).length = 17520 := by
    rw [List.length_take, policyBytes_length]; rfl
  have hp : shaPad (policyBytes.take 0x4470) =
      ((natLe 4 0x44414350 ++ [1, 0, 0, 0, 1, 0, 0, 0]) ++ List.replicate 116 0) ++ (List.replicate (128 * 135) 0 ++
        (p384BaseKey ++ List.replicate 15 0 ++ [0x80] ++ List.replicate 127 0 ++ natBe 16 (8 * 17520))) := by
    rw [shaPad, hl, policy_signed, show (17396 : Nat) = 116 + 128 * 135 by rfl, ← List.replicate_append_replicate]
    simp only [List.append_assoc]
  have hn : (shaPad (policyBytes.take 0x4470)).length / 128 = 2 + 135 + 1 := by
    rw [hp, List.length_append, List.length_append, List.length_append (as := List.replicate _ _), List.length_replicate,
      List.length_replicate]
    decide +kernel
  rw [sha384]
  simp only [hn]
  rw [hp, shaBlocks_append (by rfl), shaBlocks_zero]

theorem policy_verifies : ecdsaVerify p384BaseKey (sha384 (policyBytes.take 0x4470)) (slice policyTail 112 48)
    (slice policyTail 160 48) = true := by
  rw [policy_hash]
  decide +kernel

theorem policy_reads : (readPolicy policyBytes).wellFormed = true ∧ (readPolicy policyBytes).seq = 1 ∧
    (readPolicy policyBytes).bind = false := by
  have h0 : leAt policyBytes 0 4 = 0x44414350 ∧ leAt policyBytes 4 2 = 1 ∧ leAt policyBytes 6 2 = 0 ∧
      leAt policyBytes 8 4 = 1 := by decide +kernel
  have hk : leAt policyBytes 0x38 1 = 0 := leAt_zero (by omega) (by omega)
  have hf : leAt policyBytes 0xC 4 = 0 := leAt_zero (by omega) (by omega)
  have hm : leAt policyBytes 0x10 8 = 0 := leAt_zero (by omega) (by omega)
  have hp : (List.range 4).map (fun i => BitVec.ofNat 64 (leAt policyBytes (0x18 + 8 * i) 8)) = [0, 0, 0, 0] := by
    simp only [List.range_succ, List.range_zero, List.nil_append, List.map_cons, List.map_nil, List.cons_append]
    rw [leAt_zero (by omega) (by omega), leAt_zero (by omega) (by omega), leAt_zero (by omega) (by omega),
      leAt_zero (by omega) (by omega)]
    rfl
  have ht : slice policyBytes 0x4400 97 = p384BaseKey ∧ allZero (slice policyBytes 0x4461 15) = true := by
    rw [policyBytes_tail 0 97, policyBytes_tail 97 15]; decide +kernel
  have hr : slice policyBytes 0x4470 48 = slice policyTail 112 48 := policyBytes_tail 112 48
  have hs : slice policyBytes 0x44A0 48 = slice policyTail 160 48 := policyBytes_tail 160 48
  have z1 : allZero (slice policyBytes 0x39 7) = true := policyBytes_allZero (by omega) (by omega)
  have z2 : allZero (slice policyBytes 0x3F0 16) = true := policyBytes_allZero (by omega) (by omega)
  have z3 : allZero (slice policyBytes (0x400 + 32 * 0) (32 * (512 - 0))) = true := policyBytes_allZero (by omega) (by omega)
  have z4 : allZero (slice policyBytes (0x40 + 112 * 0) (112 * (8 - 0))) = true := policyBytes_allZero (by omega) (by omega)
  refine ⟨?_, ?_, ?_⟩
  · simp only [readPolicy, h0.1, h0.2.1, h0.2.2.1, hk, hf, hm, hp, ht.1, ht.2, hr, hs, z1, z2, z3, z4, policyBytes_length,
      policy_verifies]
    decide
  · simp only [readPolicy, h0.2.2.2]; rfl
  · simp only [readPolicy, hf]; decide

/-- A firmware image of 192 bytes with the security version 64, signed by the key that is the base point. -/
def firmwareBytes : List Byte :=
  natLe 4 0x57464850 ++ [2, 0, 64, 0] ++ natLe 4 192 ++ List.replicate 84 0 ++ (natBe 48 (p384Gx % p384N) ++ natBe 48
    0xf0036d0a4d995ca3388d55433c665dc6b005ff0021912ad8d3d5ac7ef7026be214f7d7360613c218a7edd13ef29cecca)

/-- Whose firmware passes rests on Mionum's key, which is a constant without a value: that the hypothesis of the clause on
accepted firmware can be met is shown for a key whose signatures we can write. -/
theorem witness_CadastreWritesAndUpdates_firmware (h : Config.firmwareKey = p384BaseKey) :
    (readFirmware firmwareBytes).passes 0 = true ∧ (readFirmware firmwareBytes).passes 64 = true := by
  simp only [readFirmware, h]
  decide +kernel

theorem witness_BootAppliesPolicyAndLeadsToReady :
    (let s := State.reset;
      s.sup.mstate = .boot ∧ s.sup.heldInReset = false ∧ s.hnd.running = false ∧ s.hnd.inReset = false ∧
      (∀ u ∈ [UnitRef.core 0, .core 139, .entropy 0, .entropy 15, .dict 0, .dict 7, .none],
        s.cad.selfTests.contains u = true) ∧ s.fenced 0 = false ∧ s.fenced 139 = false ∧ s.cad.zeroFill = true ∧
      s.cad.windowOpen = true ∧ s.cad.staged = none ∧ s.cad.active = some .factory ∧
      s.chooseBank = some (s.cad.preferB, false)) ∧
    (let s := { State.reset with cad := { bankA := {} } };
      s.sup.mstate = .boot ∧ s.hnd.running = false ∧ s.chooseBank = none) ∧
    (let s := { State.reset with cad := { windowOpen := false, selfTests := [], zeroFill := false } };
      s.sup.mstate = .boot ∧ s.sup.heldInReset = false ∧ s.cad.windowOpen = false ∧ s.cad.selfTests = [] ∧
      s.cad.zeroFill = false) ∧
    (let p := { Policy.factory with seq := 1 }; let s := { State.reset with cad := { staged := some p } };
      s.chooseBank = some (s.cad.preferB, false) ∧ s.cad.windowOpen = true ∧ s.cad.staged = some p ∧
      s.policyValid p = true ∧ s.ownerAdmits p = true ∧ seqBelow s.cad.active p.seq = true) ∧
    (let p := { Policy.factory with bind := true, moduleId := 1 }; let s := { State.reset with cad := { slot0 := some p } };
      s.cad.active = some p ∧ s.policyValid p = false ∧ s.cad.staged = none) := by decide +kernel

theorem witness_CadastreWritesAndUpdates :
    (∀ off ∈ [0x2000008, 0x2000050], w.hostReach 0 = true ∧ blockOf off = 0x2000000 ∧ off ≠ 0x2000020 ∧ off ≠ 0x2000040 ∧
      accessOf off 8 = .register) ∧
    accessOf 0x2000004 4 = .register ∧
    w.alive = true ∧ w.hnd.running = true ∧ w.cad.windowOpen = false ∧ w.updateOpen = true ∧
    (w.policyValid (readPolicy policyBytes) = true ∧ w.ownerAdmits (readPolicy policyBytes) = true ∧
      seqBelow w.cad.active (readPolicy policyBytes).seq = true ∧ seqBelow w.cad.staged (readPolicy policyBytes).seq = true) ∧
    (let s := { w with cad := { w.cad with slot0 := some { Policy.factory with seq := 1 } } };
      s.updateOpen = true ∧ seqBelow s.cad.active (readPolicy policyBytes).seq = false) ∧
    w.policyValid (readPolicy []) = false ∧ (readFirmware []).passes w.fuses.svFloor.toNat = false ∧
    (let s := { w with hnd := { running := true, updState := 4 } };
      s.alive = true ∧ s.sup.mstate.serving = true ∧ s.hnd.running = true ∧ s.hnd.updState = 4) := by
  have h := policy_reads
  refine ⟨by decide +kernel, by decide +kernel, by decide +kernel, by decide +kernel, by decide +kernel, by decide +kernel,
    ⟨?_, by decide +kernel, ?_, by decide +kernel⟩, ⟨by decide +kernel, ?_⟩, by decide +kernel, by decide +kernel, by decide +kernel⟩
  · simp only [State.policyValid, h.1, h.2.2]; decide
  · rw [h.2.1]; decide +kernel
  · rw [h.2.1]; decide +kernel

/-! ### Cooling, forecast and wear -/

/-- Every unit's sensors at 40 °C. -/
def coolSensors : List Sensors := List.replicate 174 [640, 640]

/-- Every forecast at 40 °C. -/
def coolForecasts : List Int := List.replicate 174 640

theorem witness_ThermalStepsTripFanAndWear :
    sensorsWork coolSensors ∧
    w.alive = true ∧ w.thm.forecaster = true ∧ w.hnd.running = true ∧ w.sup.standby = true ∧
    (let s := { w with thm := { forecaster := false } }; s.fallbackActs = true ∧ s.thm.forecaster = false) ∧
    (∀ m ∈ [ModState.boot, .ready, .run], (inState m {}).sup.mstate = m ∧ (inState m {}).sup.standby = true) ∧
    (∀ r ∈ [720, 1040], let s := w.setThmUnit 172 { w.thmUnit 172 with reading := r };
      (s.thmUnit 172).reading = r ∧ s.alive = true ∧ s.hnd.running = true) ∧
    (∀ f ∈ [30, 100], let s := { w with thm := { w.thm with fan := f } };
      s.alive = true ∧ s.thm.forecaster = true ∧ s.thm.fan = f) ∧
    (∀ n ∈ [1799, 1800], let s := { w with thm := { w.thm with hourN := n, hourSum := 1360 * (n : Int) } };
      (s.thm.hourN < 1800 ∨ 1800 ≤ s.thm.hourN) ∧ s.thm.hourSum ≤ 1360 * (s.thm.hourN : Int) ∧ s.alive = true) ∧
    (∀ c, c < 5 → (Tab.getD w.thm.channels c {}).n = 0) := by
  refine ⟨fun u hu => ?_, by decide +kernel⟩
  have h : coolSensors.getD u [] = [640, 640] := by
    rw [coolSensors, List.getD_eq_getElem?_getD, List.getElem?_replicate, if_pos hu]; rfl
  rw [h]
  by_cases h4 : u < 144
  · simp [sensorFailures, sensorWorks, h4]
  · simp [sensorFailures, sensorWorks, h4]

/-! ### Errors, the Field book and the Handler -/

/-- The physical function's log ring of 64 entries at address 0 of host memory, with its two indices. -/
def logging (head tail : Nat) : State :=
  w.modFn 0 fun g => { g with ring := { en := true, host := true, head := BitVec.ofNat 16 head, tail := BitVec.ofNat 16 tail } }

/-- A record as the Handler appends it. -/
def rec1 : Rec :=
  { seq := 7, err := ⟨.hnd, 2⟩, cls := .reportOnly, overflow := false, pendingArea := false, fieldBook := true, epoch := 0
    func := none, quarter := none, unit := .none, ctx := none, suppressed := 0, frame := none, detail := [] }

theorem witness_RecordsRingsAndFieldBook :
    (∀ x ∈ [(63, 0), (0, 1), (63, 1), (0, 0)], let s := logging x.1 x.2;
      s.sup.standby = true ∧ (s.fn 0).ring.en = true ∧ (s.fn 0).ring.host = true ∧ ringsAtHost s = true ∧
      limited s ⟨.sys, 43⟩ .none = false ∧ s.hst.linkUp = true ∧
      (((s.fn 0).ring.head.toNat + 1) % 2 ^ (s.fn 0).ring.log2.toNat = (s.fn 0).ring.tail.toNat ↔
        x = (63, 0) ∨ x = (0, 1))) ∧
    w.fb.currentB = false ∧ (let s := { w with fb := { copyB := some { seq := 1 } } }; s.fb.currentB = true) ∧
    (let s := { w with fb := { queue := [rec1] } }; s.alive = true ∧ s.hnd.running = true ∧ s.fb.queue = rec1 :: []) ∧
    w.fb.sparesFor 0 = true ∧ w.hostReach 0 = true ∧ (w.fn 0).ring.en = false ∧ (0x10 : Word).getLsbD 4 = true ∧ (logging 0 0).hostReach 0 = true ∧
    (∀ m ∈ [ModState.boot, .ready, .run], (inState m {}).alive = true ∧ (inState m {}).sup.mstate = m) := by decide +kernel

/-- More blocks fail than there are spares. -/
theorem witness_RecordsRingsAndFieldBook_spares :
    w.alive = true ∧ w.hnd.running = true ∧ w.fb.sparesFor (Config.flashSpares + 1) = false := by
  refine ⟨by decide +kernel, by decide +kernel, ?_⟩
  have h : w.fb.retired = 0 := by decide +kernel
  simp [FieldBook.sparesFor, h]

/-- Six rings of 16 entries or of 64 bytes: at each a write of 1 moves the driver's index by one entry and a write of 99
moves it too far. -/
def indexed : State :=
  let s := { w with
    rtv := { chans := [(63, { mode := 2, crecHost := true, head := 3 })] }
    ing := { excHead := 3 } };
  ((s.modFn 0 fun g => { g with
    ring := { en := true, host := true, head := 3 }
    feed := { host := true } }).setSq 0 31 { kind := .command, host := true }).setOq 0 63 { en := true, host := true, pidx := 64 }

theorem witness_RingIndicesMoveForwardOnly :
    indexed.hostReach 0 = true ∧
    (∀ x ∈ [(1, true), (3, true), (4, false)],
      IndexWrite indexed 0 (BitVec.ofNat 32 x.1) (.crecTailWrite 0 63 (BitVec.ofNat 32 x.1)) x.2
        (fun t => (t.chan 63).tail.toNat) x.1) ∧
    (∀ x ∈ [(1, true), (3, true), (4, false)],
      IndexWrite indexed 0 (BitVec.ofNat 32 x.1) (.erlRingTailWrite 0 (BitVec.ofNat 32 x.1)) x.2
        (fun t => (t.fn 0).ring.tail.toNat) x.1) ∧
    (∀ x ∈ [(1, true), (3, true), (4, false)],
      IndexWrite indexed 0 (BitVec.ofNat 32 x.1) (.excTailWrite 0 (BitVec.ofNat 32 x.1)) x.2
        (fun t => t.ing.excTail.toNat) x.1) ∧
    (∀ x ∈ [(64, true), (65, false)],
      IndexWrite indexed 0 (BitVec.ofNat 32 x.1) (.oqCidxWrite 0 63 (BitVec.ofNat 32 x.1)) x.2
        (fun t => (t.oq 0 63).cidx.toNat) x.1) ∧
    (∀ x ∈ [(15, true), (16, false)],
      IndexWrite indexed 0 (BitVec.ofNat 32 x.1) (.sqDoorbell 0 31 (BitVec.ofNat 32 x.1)) x.2
        (fun t => (t.sq 0 31).tail.toNat) x.1) ∧
    (∀ x ∈ [(15, true), (16, false)],
      IndexWrite indexed 0 (BitVec.ofNat 32 x.1) (.hostFeedDoorbell 0 (BitVec.ofNat 32 x.1)) x.2
        (fun t => (t.fn 0).feed.tail.toNat) x.1) := by
  refine ⟨by decide +kernel, fun x hx => .inl ⟨63, rfl, ?_⟩, fun x hx => .inr (.inl ⟨rfl, ?_⟩),
    fun x hx => .inr (.inr (.inl ⟨rfl, rfl, ?_⟩)), fun x hx => .inr (.inr (.inr (.inl ⟨63, by decide, rfl, ?_⟩))),
    fun x hx => .inr (.inr (.inr (.inr (.inl ⟨31, by decide, rfl, ?_⟩)))),
    fun x hx => .inr (.inr (.inr (.inr (.inr ⟨rfl, ?_⟩))))⟩ <;>
  simp only [List.mem_cons, List.not_mem_nil, or_false] at hx <;> rcases hx with rfl | rfl | rfl <;>
  (repeat' apply And.intro) <;> first | decide +kernel | rfl

theorem witness_HandlerResetsAlone :
    w.hnd.updState = 0 ∧ w.handlerUp = true ∧ w.hostReach 0 = true ∧
    (let s := { w with hnd := { wdTimes := [0, 0] } }; s.handlerUp = true ∧
      2 ≤ (s.hnd.wdTimes.filter fun x => s.now < x + 600000000000).length) ∧
    (let s := { w with hnd := { inReset := true } };
      s.handlerReturning = true ∧ s.hnd.updState = 0 ∧ s.chooseBank = some (false, false) ∧ s.cad.windowOpen = false ∧
      s.cad.fwOk = true) ∧
    (let s := { w with hnd := { inReset := true }, cad := { w.cad with bankA := {} } };
      s.handlerReturning = true ∧ s.chooseBank = none) ∧
    (let s := w.modFn 3 fun g => { g with mailbox := { busy := true } };
      (s.fn 3).mailbox.busy = true ∧ s.handlerUp = true) := by decide +kernel

/-- The mailbox of the physical function with its four arguments. -/
def mailing (dest what first count : Nat) (log : Nat) : State :=
  { w.modFn 0 fun g => { g with mailbox := { args := [dest, what, first, count].map (BitVec.ofNat 64) } } with
    fb := { log := List.replicate log rec1 } }

/-- The fold over the input, with the run looked at before each byte, as evaluation needs it. -/
def runBytes : List Byte → DictRun → DictRun
  | [], r => r
  | c :: l, r => if r.full then r else runBytes l (r.byte c)

theorem foldl_full (l : List Byte) (r : DictRun) (h : r.full = true) : l.foldl (fun r c => r.byte c) r = r := by
  induction l with
  | nil => rfl
  | cons c l ih => rw [List.foldl_cons, DictRun.byte, if_pos h, ih]

theorem foldl_runBytes (l : List Byte) (r : DictRun) : l.foldl (fun r c => r.byte c) r = runBytes l r := by
  induction l generalizing r with
  | nil => rfl
  | cons c l ih =>
    rw [runBytes]
    split
    · next h => exact foldl_full _ r h
    · exact ih _

/-- An export with no capacity at its destination does not fit; one with a capacity of 8,192 bytes does, at either end of
device memory. -/
theorem witness_MailboxCommandsRun_export :
    (let s := mailing 0 0 0 0 0; let m := (s.fn 0).mailbox;
      s.hostReach 0 = true ∧ m.busy = false ∧ s.hnd.running = true ∧ s.mem.poison = [] ∧ 0 ≤ 65536 ∧
      (m.args.getD 2 0).toNat + (m.args.getD 3 0).toNat ≤ s.fb.log.length) ∧
    (compressRun (DictCtx.first 0 12 0) true false true 0
      ((mailing 0 0 0 0 0).stateBlockBytes ++ (mailing 0 0 0 0 0).eventBytes 0 0)).full = true ∧
    (∀ a ∈ [0, devTop - 8192], let s := mailing a 8192 0 0 0; let m := (s.fn 0).mailbox;
      let r := compressRun (DictCtx.first 0 12 0) true false true 8192 (s.stateBlockBytes ++ s.eventBytes 0 0);
      (m.args.getD 0 0).toNat = a ∧ (m.args.getD 1 0).toNat = 8192 ∧ s.hostReach 0 = true ∧
      r.full = false ∧ inDev a r.out.length = true ∧ s.cadDenied 0 a r.out.length true = none) := by
  refine ⟨by decide +kernel, ?_, fun a ha => ?_⟩
  · simp only [compressRun, foldl_runBytes]; decide +kernel
  · dsimp only
    have hl : ((mailing a 8192 0 0 0).stateBlockBytes ++ (mailing a 8192 0 0 0).eventBytes 0 0).length = 1024 := by
      simp only [List.mem_cons, List.not_mem_nil, or_false] at ha
      rcases ha with rfl | rfl <;> decide +kernel
    have h := DictRun.frame_fits ((mailing a 8192 0 0 0).stateBlockBytes ++ (mailing a 8192 0 0 0).eventBytes 0 0) 8192 12
      (by rw [hl]; decide)
    have hd : a + 8192 ≤ devTop := by
      simp only [List.mem_cons, List.not_mem_nil, or_false] at ha
      rcases ha with rfl | rfl <;> decide
    refine ⟨?_, ?_, ?_, h.1, ?_, open_admits _ ?_ (by decide) a _ (by omega)⟩
    · simp only [List.mem_cons, List.not_mem_nil, or_false] at ha
      rcases ha with rfl | rfl <;> decide +kernel
    · rfl
    · simp only [List.mem_cons, List.not_mem_nil, or_false] at ha
      rcases ha with rfl | rfl <;> decide +kernel
    · simp only [inDev, decide_eq_true_eq]; omega
    · rfl

theorem witness_MailboxCommandsRun :
    (∀ b ∈ [true, false], let s := w.modFn 0 fun g => { g with mailbox := { busy := b } };
      (s.fn 0).mailbox.busy = b ∧ s.hostReach 0 = true ∧ s.hnd.running = true) ∧
    (let s := { w with hnd := {} }; s.hostReach 0 = true ∧ (s.fn 0).mailbox.busy = false ∧ s.hnd.running = false) ∧
    (∀ a ∈ [0, devTop - 64], let s := mailing a 1 1 1 2; let m := (s.fn 0).mailbox;
      s.hostReach 0 = true ∧ m.busy = false ∧ s.hnd.running = true ∧ (m.args.getD 0 0).toNat = a ∧
      (m.args.getD 2 0).toNat = 1 ∧ (m.args.getD 3 0).toNat = 1 ∧ s.mem.poison = [] ∧ a % 64 = 0 ∧
      (m.args.getD 1 0).toNat = 1 ∧ 1 + 1 ≤ s.fb.log.length ∧ inDev a (s.eventBytes 1 1).length = true ∧
      s.cadDenied 0 a (s.eventBytes 1 1).length true = none) ∧
    (let x : BitVec 4 × List DWord := (1, [0, 0, 0, 0]);
      let s := w.modFn 3 fun g => { g with mailbox := { busy := true, todo := some x } };
      s.alive = true ∧ s.hnd.running = true ∧ (s.fn 3).mailbox.busy = true ∧ (s.fn 3).mailbox.todo = some x) := by
  decide +kernel

theorem witness_HandlerAnswersMessages :
    answersAs (.mctpSetEndpointId true [0, 0, 1, 0, 1]) true [0, 0, 1, 0, 1] 0 [1] ∧
    answersAs (.pdrRepositoryCommand false [1, 0, 2, 0x51]) false [1, 0, 2, 0x51] 1 [2, 0x51] ∧
    (∀ b ∈ [true, false], w.mctpUp b = true ∧ ({ w with hnd := {} } : State).mctpUp b = false) ∧
    (∀ e ∈ [1, 254], ∀ op ∈ [0, 1], let b : List Byte := [0, 0x80, 1, op, e];
      b.length = 5 ∧ 1 ≤ byteAt b 4 ∧ byteAt b 4 ≤ 254 ∧ byteAt b 3 % 4 < 2) ∧
    (let b : List Byte := [1, 0x80, 2, 0x39, 0x90, 1, 13, 0, 0, 0, 0, 0, 0, 1, 0] ++ List.replicate 18 0;
      leAt b 4 2 = 400 ∧ byteAt b 6 = 13 ∧ byteAt b (7 + 2 * 3) = 1) ∧
    (let b : List Byte := [1, 0x80, 2, 4, 1, 0, 8]; byteAt b 5 = 0 ∧ byteAt b 4 = 1) ∧
    w.alive = true ∧ w.hnd.running = true ∧
    (∀ n ∈ [3, 4], let e : PldmEvent := ⟨7, [1], n⟩; let s := { w with hnd := { running := true, events := [e], receiver := some (.smbus, 8) } };
      s.hnd.events.find? (fun x => x.id == 7) = some e ∧ s.hnd.receiver = some (.smbus, 8) ∧ (e.sends < 4 ∨ 4 ≤ e.sends) ∧
      s.alive = true ∧ s.hnd.running = true) := by
  refine ⟨.inl ⟨rfl, .inl ⟨rfl, rfl⟩⟩, .inr ⟨rfl, ?_⟩, by decide +kernel⟩
  exact .inr (.inr (.inr (.inr (.inr (.inr (.inr (.inr (.inr ⟨rfl, rfl⟩))))))))

/-! ### The Cadastre's verdict and the whole machine -/

theorem witness_CadastreDecidesByLowestEntry :
    State.reset.cad.locked = false ∧ w.cad.locked = true ∧
    (let s := { w with cad := { w.cad with entries := [{ openEntry with base := 1, pages := 1, hostR := 0 }, openEntry] } };
      s.cadDenied 0 0xFFF 1 false = none ∧ s.cadDenied 0 0x1000 1 false = some 1 ∧ s.cadDenied 0 0xFFF 2 false = some 1 ∧
      s.cadDenied 0 0x2000 1 false = none ∧ s.cadDenied 0 0x1000 1 true = none) := by decide +kernel

theorem witness_IdleStepsLetTimePass :
    w.pending = [] ∧ w.sup.mstate.powered = true ∧ w.pck.epoch.ratePpb = 0 ∧ w.pck.epoch.slew = 0 ∧
    w.pck.epoch.rem < 1000000000 ∧ (inState .hold {}).sup.mstate.powered = false ∧ (inState .hold {}).pending = [] := by
  decide +kernel

/-- A step answers a next state of which `p` holds. -/
def stepTo (s : State) (p : State → Bool) : Bool :=
  match step s with
  | .next t => p t
  | _ => false

/-- Steps that write device memory through BAR2: a byte, and a byte back to zero, which leaves the list. -/
theorem witness_EveryStepKeepsMemoryCanonical :
    (let s := { w with mem := { bytes := [(5, 1)] }, pending := [.bar2Write 0 7 [2] []] };
      s.mem.wf = true ∧ stepTo s (fun t => t.mem.bytes == [(5, 1), (7, 2)] && t.pending.isEmpty) = true) ∧
    (let s := { w with mem := { bytes := [(5, 1)] }, pending := [.bar2Write 0 5 [0] []] };
      s.mem.wf = true ∧ stepTo s (fun t => t.mem.bytes.isEmpty) = true) ∧
    cellsOk 0 [(5, 1)] = true ∧ cellsOk 0 [] = true := by decide +kernel

theorem witness_LockedCadastreStandsUntilReset :
    w.cad.locked = true ∧ w.cad.windowOpen = false ∧
    (∃ t, exec (.cadRegisterWrite 0 0x2000008 true 1) w = .next t ∧ t.cad.entries = [openEntry] ∧ t.cad.locked = true) ∧
    (∃ t, exec .resetNAssert w = .next t ∧ t.cad.locked = false ∧ t.cad.entries = []) :=
  ⟨by decide, by decide, ⟨after (.cadRegisterWrite 0 0x2000008 true 1) w, by rfl, by decide +kernel, by decide +kernel⟩,
    ⟨after .resetNAssert w, by rfl, by decide +kernel, by decide +kernel⟩⟩

/-! ### Values of the spec's worked examples -/

/-- The first `n` bytes of the working region that unit 0 of context 0 writes by a command. -/
def written (c : Instr) (n : Nat) : List Byte :=
  let t := after c (running [{ sender with size := 65536 }] []);
  match t.coreIssuer? 0 0 with
  | some (_, _, x) => t.operand x (.tile 0) n
  | none => []

/-- The plate-region layer of chapter 4: K = 64 in FP16, with four products that are not zero. -/
def plate (free : Bool) : Instr :=
  let z (n : Nat) : List Byte := List.replicate (2 * n) 0;
  .gridOp 0 0 {
    free := free, fmtA := 0x12, fmtB := 0x12, m := 1, n := 1, k := 64, acc := 0, continues := false
    a := .imm (natLe 2 0x6800 ++ natLe 2 0x3C00 ++ z 30 ++ natLe 2 0xE800 ++ natLe 2 0x3C00 ++ z 30)
    b := .imm (natLe 2 0x7400 ++ natLe 2 0x3C00 ++ z 30 ++ natLe 2 0x7400 ++ natLe 2 0x3C00 ++ z 30)
    epilogue := some { int32 := false, bias := none, act := 0, actArg := none, scale := none, fmt := 0x12, stochastic := none
                       dst := 0 } }

/-- Chapter 4, "one output of the plate-region layer": 2.0 in Surveyed mode, +0 in Free mode. -/
theorem test_plate_region : written (plate false) 2 = natLe 2 0x4000 ∧ written (plate true) 2 = natLe 2 0 := by
  decide +kernel

/-- Chapter 5, "vehicle classes": the soft maximum of 2, 1, 0 and −1 in FP16. -/
theorem test_vehicle_classes :
    (written (.softMaximum 0 0 { free := false, fmt := 0x12, n := 4, outFmt := 0x12, dst := 0, parts := []
                                 src := .imm (natLe 2 0x4000 ++ natLe 2 0x3C00 ++ natLe 2 0 ++ natLe 2 0xBC00) }) 6) =
      natLe 2 0x3927 ++ natLe 2 0x3395 ++ natLe 2 0x2D94 := by decide +kernel

/-- Chapter 5, "four feature values": the row normalisation of 2, 4, 6 and 10 with ε = 0.25. -/
theorem test_feature_values :
    (written (.normalisation 0 0 { free := false, fmt := 0x12, n := 4, outFmt := 0x12, dst := 0, parts := []
                                   src := .imm (natLe 2 0x4000 ++ natLe 2 0x4400 ++ natLe 2 0x4600 ++ natLe 2 0x4900) }
        { eps := 0x3E800000, gamma := none, beta := none }) 8) =
      natLe 2 0xBCAB ++ natLe 2 0xB800 ++ natLe 2 0x3155 ++ natLe 2 0x3E00 := by decide +kernel

/-- Chapter 12, Table 12.5: the frame of the lane record "123456789" with DBITS 9. -/
theorem test_lane_record :
    (compressRun (DictCtx.first 0 9 0) true false true 32 [0x31, 0x32, 0x33, 0x34, 0x35, 0x36, 0x37, 0x38, 0x39]).out.reverse =
      [0x50, 0x44, 0x43, 0x54, 9, 0, 0, 0, 0x31, 0x64, 0xCC, 0xA0, 0x51, 0xC3, 0xC6, 0x0D, 0x1C, 0x39, 2, 2, 9, 0, 0, 0, 0, 0, 0, 0,
        0x83, 0x92, 0x06, 0xE3] := by decide +kernel

/-- Chapter 15, "one calibration round": 16,040.03125 ns there and back, and an offset of 0.375 ns, in units of 2⁻¹⁶ ns;
member 0 declares +31.25 ps. -/
theorem test_calibration_round :
    exchange (1000000 * 65536) (1008020 * 65536 + 26624) (1009020 * 65536 + 26624) (1017040 * 65536 + 2048) 2048 =
      (24576, 16040 * 65536 + 2048) := by decide +kernel

/-- The four entries of chapter 18's north-room policy. -/
def northRoom : State :=
  { w with cad := { w.cad with entries := [
      ⟨0x0, 0x100000, 1, 1, 9, 0, 0, 0⟩, ⟨0x100000, 0x1000000, 1, 1, 1, 1, 3, 3⟩, ⟨0x1100000, 0x400000, 9, 8, 8, 8, 0, 0⟩,
      ⟨0x10000000, 0x12000, 1, 0, 0, 0, 0, 0⟩] } }

/-- Chapter 18, "the north-room policy": the verdicts of its accesses, by requester class (Table 18.4). -/
theorem test_north_room :
    northRoom.cadDenied 0x00 0x80000000 4 false = none ∧ northRoom.cadDenied 0x13 0x80000000 4 false = none ∧
    northRoom.cadDenied 0x03 0x200000000 4 true = some 0x200000 ∧ northRoom.cadDenied 0x20 0x340600000 4 true = none ∧
    northRoom.cadDenied 0x21 0x220000000 4 true = none ∧ northRoom.cadDenied 0x21 0x1220000000 4 true = some 0x1220000 ∧
    northRoom.cadDenied 0x00 0x1600000000 4 false = some 0x1600000 := by decide +kernel

/-- Chapter 19, "one channel over an afternoon": reversals of 50, 85, 60, 95 and 45 °C count one cycle of 25 K in bin 20 to
40 K and band 70 to 90 °C, and leave 50, 95 and 45. -/
theorem test_afternoon :
    let b := [800, 1360, 960, 1520, 720].foldl (fun (b : StateBlock) v => b.reversal 2 v) {};
    b.residue.getD 2 [] = [800, 1520, 720] ∧ b.cycles = (List.replicate 80 0).set (16 * 2 + 6) 1 := by decide +kernel

/-! ### What WellFormed refuses -/

/-- One command for each check of WellFormed, its operand one past the range. -/
theorem test_ill_formed_refused :
    ([.registerWrite 16 0 false 0, .registerWrite 0 0x4000000 false 0, .badAccess 0 0 0 true, .frameCommit ⟨4096, noParts⟩,
      .coreFatalError 144, .recordRingRelease 64, .ecEngineFatal 16, .dceEngineFatal 8, .auditPeriodTick 4, .slotFree 4096,
      .gateLinkUp 2, .traverseLinkDown 8, .loadRequest 0 16, .auRelease 4096, .decoderFatalError 4, .failTimeout 256,
      .sqResume 0 32, .waitingEntryPlaced 0 64, .unitEnd 0 256, .refusedReceive 0 2048,
      .routeSend 0 0 0 (.tile 0x200000) 0, .routeSend 0 0 0 (.msg 65536) 0, .routeSend 0 0 0 (.data 65536) 0,
      .patrolScrub 0x1800000000, .memFatalError 0 2 0, .vfEnableChange 16 true, .pcieLinkUp 0 1, .pcieLinkUp 6 1,
      .pcieLinkUp 1 0, .pcieLinkUp 1 17, .pwrEnRise 64, .wakeStepTimeout 256, .profileChange 0 4, .tapInstructionLoad 64,
      .fbRead (2 ^ 24), .selfTestComplete 4 0 true, .selfTestComplete 0 144 true, .forecasterStep [] coolForecasts,
      .forecasterStep coolSensors [], .fallbackStep 0 [], .quarterFatalError 4] : List Instr).all
        (fun c => !c.wellFormed) = true := by decide +kernel

/-- An immediate operand longer than 65,536 bytes. -/
theorem test_long_immediate_refused : wfSrc (.imm (List.replicate 65537 0)) = false := by
  rw [wfSrc, List.length_replicate]; decide

/-- The same commands at the last operand of each range. -/
theorem test_well_formed_accepted :
    ([.registerWrite 15 0x3FFFFFF false 0, .badAccess 0 0 1 true, .frameCommit ⟨4095, noParts⟩, .coreFatalError 143,
      .recordRingRelease 63, .ecEngineFatal 15, .dceEngineFatal 7, .auditPeriodTick 3, .slotFree 4095, .gateLinkUp 1,
      .traverseLinkDown 7, .loadRequest 0 15, .auRelease 4095, .decoderFatalError 3, .failTimeout 255, .sqResume 0 31,
      .waitingEntryPlaced 0 63, .unitEnd 0 255, .refusedReceive 0 2047, .routeSend 0 0 0 (.tile 0x1FFFFF) 0,
      .patrolScrub 0x17FFFFFFFF, .memFatalError 0 3 0, .vfEnableChange 15 true, .pcieLinkUp 5 16, .pwrEnRise 63,
      .wakeStepTimeout 255, .profileChange 0 3, .tapInstructionLoad 63, .fbRead (2 ^ 24 - 1), .selfTestComplete 3 143 true,
      .forecasterStep coolSensors coolForecasts, .fallbackStep 3 coolSensors, .quarterFatalError 3] : List Instr).all
        Instr.wellFormed = true := by decide +kernel

end Sys2Proof.Tests
end

section
/-!
Reports and the functions' registers: an error report leaves every function's registers as they were but for its log ring and
its MSI-X vectors, and what the two shared reporters of register writes, accessError and hrdLocked, change.
-/
namespace Sys2Proof.Machine
open Sys2Proof

theorem State.fn_setFn_other (s : State) (f g : Nat) (x : Fn) (h : g ≠ f) : (s.setFn f x).fn g = s.fn g := by
  simp [State.fn, Tab.getD_put_other _ _ _ _ _ h]

theorem State.fn_congr {s t : State} (h : t.fns = s.fns) (f : Nat) : t.fn f = s.fn f := by simp [State.fn, h]

theorem State.ctx_congr {s t : State} (h : t.hrd.ctxs = s.hrd.ctxs) (c : Nat) : t.ctx c = s.ctx c := by simp [State.ctx, h]

theorem setFn_keeps (s : State) (f : Nat) (x : Fn) : Keeps [.fns] s (s.setFn f x) := by
  intro p hp; cases p <;> simp_all [Part.same]

/-- A function's registers without its log ring and its MSI-X vectors. -/
def Fn.settings (g : Fn) : Fn := { g with ring := {}, hst := { g.hst with vectors := [] } }

/-- Two states agree on every function's registers, log rings and MSI-X vectors aside. -/
def SameSettings (s t : State) : Prop := ∀ f, (t.fn f).settings = (s.fn f).settings

theorem SameSettings.of_fns {s t : State} (h : t.fns = s.fns) : SameSettings s t := fun f => by rw [State.fn_congr h]

theorem SameSettings.trans {s t u : State} (h : SameSettings s t) (k : SameSettings t u) : SameSettings s u :=
  fun f => (k f).trans (h f)

theorem SameSettings.foldl {α : Type} (g : State → α → State) (h : ∀ s a, SameSettings s (g s a)) (xs : List α) :
    ∀ s, SameSettings s (xs.foldl g s) := by
  induction xs with
  | nil => exact fun s f => rfl
  | cons x r ih => exact fun s => (h s x).trans (ih _)

theorem SameSettings.setFn {s : State} {f : Nat} {x : Fn} (h : x.settings = (s.fn f).settings) :
    SameSettings s (s.setFn f x) := by
  intro g
  by_cases hg : g = f
  · subst hg; rw [State.fn_setFn]; exact h
  · rw [State.fn_setFn_other _ _ _ _ hg]

theorem SameSettings.accErr {s t : State} (h : SameSettings s t) (f : Nat) : (t.fn f).hst.accErr = (s.fn f).hst.accErr :=
  congrArg (fun g => g.hst.accErr) (h f)

theorem SameSettings.ctxSel {s t : State} (h : SameSettings s t) (f : Nat) : (t.fn f).hrd.ctxSel = (s.fn f).hrd.ctxSel :=
  congrArg (fun g => g.hrd.ctxSel) (h f)

theorem msix_sameSettings (s : State) (f v : Nat) : SameSettings s (s.msix f v) := by
  unfold State.msix
  dsimp only
  split
  · exact .of_fns rfl
  · split
    · exact .setFn rfl
    · exact .of_fns rfl

theorem ringPut_sameSettings (s : State) (f : Nat) (r : Rec) : SameSettings s (s.ringPut f r) := by
  have hmsix : ∀ (b : Bool) (t : State) (v : Nat), SameSettings s t → SameSettings s (if b then t.msix f v else t) := by
    intro b t v h
    cases b
    · exact h
    · exact h.trans (msix_sameSettings t f v)
  have hhead : ∀ (t : State) (y : LogRing), t.fns = s.fns → SameSettings s (t.modFn f fun x => { x with ring := y }) :=
    fun t y h => (SameSettings.of_fns h).trans (.setFn rfl)
  unfold State.ringPut
  dsimp only
  split
  · exact .of_fns rfl
  · exact .setFn rfl
  · exact .setFn rfl
  · refine hmsix _ _ _ (hhead _ _ ?_)
    split <;> simp

theorem ringStep_sameSettings (rep : Ev → State → State) (hrep : ∀ e s, SameSettings s (rep e s)) (r : Rec) (s : State)
    (f : Nat) : SameSettings s (ringStep rep r s f) := by
  have hput := ringPut_sameSettings s f r
  unfold ringStep
  split
  · rename_i p _
    have hdeny : SameSettings s ((s.ringPut f r).countDenial f p true).2 := hput.trans (.of_fns rfl)
    dsimp only
    refine SameSettings.trans ?_ (hrep _ _)
    split
    · exact hdeny.trans (hrep _ _)
    · exact hdeny
  · exact hput

theorem reportWith_sameSettings (n : Nat) : ∀ (e : Ev) (s : State), SameSettings s (reportWith n e s) := by
  induction n with
  | zero => exact fun e s => .of_fns rfl
  | succ n ih =>
    intro e s
    have hraise : (s.raiseFor e).fns = s.fns := (raiseFor_keeps s e) .fns (by decide)
    have hbook : ∀ (t : State) (r : Rec), (t.fieldBookPut e.class r).fns = t.fns :=
      fun t r => (fieldBookPut_keeps t e.class r) .fns (by decide)
    have hshare : ∀ (t : State) (r : Rec), (if e.class = .unitFatal ∨ e.class = .moduleFatal then
        (t.fieldBookPut e.class r).platformEvent 0xF0 (r.bytes false) else t.fieldBookPut e.class r).fns = t.fns := by
      intro t r
      split
      · exact (platformEvent_keeps _ _ _ .fns (by decide)).trans (hbook t r)
      · exact hbook t r
    unfold reportWith
    dsimp only
    split
    · exact .of_fns hraise
    · refine SameSettings.trans ?_ (SameSettings.foldl _ (fun t f => ringStep_sameSettings _ ih _ t f) _ _)
      exact .of_fns ((hshare _ _).trans hraise)

/-- A record made after changes that leave the record store and keep rings at the host is one of the state before them. -/
theorem records_of_before {s u t : State} {e : Err} {c : ErrClass} {x : UnitRef} {d : List Nat} (h : Records u t e c x d)
    (hrings : ringsAtHost s = true → ringsAtHost u = true) (herl : u.erl = s.erl) : Records s t e c x d := by
  intro hr hl
  have := h (hrings hr) (by rw [limited, herl]; exact hl)
  rwa [herl] at this

/-- A record stands in every later state with the same record store. -/
theorem records_of_after {s t u : State} {e : Err} {c : ErrClass} {x : UnitRef} {d : List Nat} (h : Records s t e c x d)
    (herl : u.erl = t.erl) : Records s u e c x d := by
  intro hr hl
  rw [herl]
  exact h hr hl

/-! ### Bad accesses (R483) -/

section
variable (s : State) (fn : Nat)

/-- A state with one more access error counted for a function, before its report. -/
def State.accessCounted : State :=
  s.modFn fn fun g => { g with hst := { g.hst with accErr := satInc g.hst.accErr } }

theorem accessError_eq : s.accessError fn = reportWith 3 { blk := .hst, nn := 1, func := some fn } (s.accessCounted fn) :=
  report_eq _ _ (by intro h; cases h)

theorem accessError_accErr : ((s.accessError fn).fn fn).hst.accErr = satInc (s.fn fn).hst.accErr := by
  rw [accessError_eq, (reportWith_sameSettings _ _ _).accErr]
  simp [State.accessCounted]

theorem accessError_records : Records s (s.accessError fn) ⟨.hst, 1⟩ .reportOnly .none [] := by
  rw [accessError_eq]
  exact records_of_before (reportWith_records 2 _ _) (fun h => ringsAtHost_setFn s h fn _ (ringsAtHost_fn s h fn)) rfl

theorem accessError_keeps : Keeps reportParts s (s.accessError fn) := by
  rw [accessError_eq]
  exact ((setFn_keeps s fn _).mono (by simp [reportParts])).trans' (reportWith_keeps _ _ _)

end

/-! ### Locked writes of the Herder's registers (R128, E-HRD-08) -/

section
variable (s : State) (fn : Nat) (c : Option Nat) (off value : Nat)

/-- What a locked write of a Herder's register marks before its report: FIELD_LOCKED, and the code of a context's status. -/
def State.hrdMarked : State :=
  match c with
  | some c => State.modStat { s with hrd := { s.hrd with fieldLocked := true } } fn c fun x => { x with code := 8 }
  | none => { s with hrd := { s.hrd with fieldLocked := true } }

theorem hrdLocked_eq : s.hrdLocked fn c off value =
    reportWith 3 { blk := .hrd, nn := 8, func := some fn, ctx := c, detail := [off, value % 2 ^ 32] } (s.hrdMarked fn c) := by
  cases c <;> exact report_eq _ _ (by intro h; cases h)

theorem hrdMarked_hrd : (s.hrdMarked fn c).hrd = { s.hrd with fieldLocked := true } := by cases c <;> rfl

theorem hrdMarked_keeps : Keeps [.hrd, .fns] s (s.hrdMarked fn c) := by
  have hlock : Keeps [.hrd, .fns] s { s with hrd := { s.hrd with fieldLocked := true } } := by
    intro p hp; cases p <;> simp_all [Part.same]
  cases c with
  | none => exact hlock
  | some c => exact hlock.trans' ((setFn_keeps _ fn _).mono (by simp))

theorem hrdMarked_atHost (h : ringsAtHost s = true) : ringsAtHost (s.hrdMarked fn c) = true := by
  cases c with
  | none => exact h
  | some c => exact ringsAtHost_setFn { s with hrd := { s.hrd with fieldLocked := true } } h fn _ (ringsAtHost_fn s h fn)

theorem hrdMarked_ctxSel (f : Nat) : ((s.hrdMarked fn c).fn f).hrd.ctxSel = (s.fn f).hrd.ctxSel := by
  cases c with
  | none => rfl
  | some c =>
    by_cases h : f = fn
    · subst h; simp [State.hrdMarked, State.modStat, State.fn]
    · exact congrArg (fun g => g.hrd.ctxSel) (State.fn_setFn_other _ _ _ _ h)

theorem hrdLocked_hrd : (s.hrdLocked fn c off value).hrd = { s.hrd with fieldLocked := true } := by
  rw [hrdLocked_eq, reportWith_hrd, hrdMarked_hrd]

theorem hrdLocked_ctx (k : Nat) : (s.hrdLocked fn c off value).ctx k = s.ctx k := by
  rw [State.ctx, hrdLocked_hrd, State.ctx]

theorem hrdLocked_ctxSel (f : Nat) : ((s.hrdLocked fn c off value).fn f).hrd.ctxSel = (s.fn f).hrd.ctxSel := by
  rw [hrdLocked_eq, (reportWith_sameSettings _ _ _).ctxSel, hrdMarked_ctxSel]

theorem hrdLocked_records :
    Records s (s.hrdLocked fn c off value) ⟨.hrd, 8⟩ .reportOnly .none [off, value % 2 ^ 32] := by
  rw [hrdLocked_eq]
  exact records_of_before (reportWith_records 2 _ _) (hrdMarked_atHost s fn c) ((hrdMarked_keeps s fn c) .erl (by decide))

theorem hrdLocked_keeps : Keeps (.hrd :: reportParts) s (s.hrdLocked fn c off value) := by
  rw [hrdLocked_eq]
  exact ((hrdMarked_keeps s fn c).mono (by simp [reportParts])).trans' ((reportWith_keeps _ _ _).mono (by simp_all))

end

end Sys2Proof.Machine
end

section
/-!
BAR0 accesses: what a register write and a bad access do by what their offset and width reach (R12, R13, R483, R718).
-/
namespace Sys2Proof.Machine
open Sys2Proof

/-- The value a register write carries: all 64 bits, or the low word (R12). -/
def writtenWord (wide : Bool) (v : DWord) : DWord := if wide then v else (v.extractLsb' 0 32).setWidth 64

section
variable {s : State} {fn off : Nat} (hreach : s.hostReach fn = true)
include hreach

theorem exec_registerWrite_register {wide : Bool} (v : DWord) (h : accessOf off (if wide then 8 else 4) = .register) :
    exec (.registerWrite fn off wide v) s = .next (s.writeReg fn off (writtenWord wide v)) := by
  simp [exec, execRegisterWrite, hreach, h, writtenWord, fld]

theorem exec_registerWrite_nothing {wide : Bool} (v : DWord) (h : accessOf off (if wide then 8 else 4) = .nothing) :
    exec (.registerWrite fn off wide v) s = .next s := by
  simp [exec, execRegisterWrite, hreach, h]

theorem exec_registerWrite_bad {wide : Bool} (v : DWord) (h : accessOf off (if wide then 8 else 4) = .bad) :
    exec (.registerWrite fn off wide v) s = .next (s.accessError fn) := by
  simp [exec, execRegisterWrite, hreach, h]

theorem exec_badAccess {size : Nat} (write : Bool) (h : accessOf off size = .bad) :
    exec (.badAccess fn off size write) s = .next ((s.accessError fn).emitIf (!write) (.readOnes fn)) := by
  simp [exec, execBadAccess, hreach, h]

end

theorem readBar0_by_target (s : State) (fn off size : Nat) :
    (accessOf off size = .nothing → s.readBar0 fn off size = 0) ∧
      (accessOf off size = .bad → s.readBar0 fn off size = BitVec.allOnes 64) ∧
      (accessOf off size = .register → s.readBar0 fn off size = s.readReg fn off) := by
  refine ⟨fun h => ?_, fun h => ?_, fun h => ?_⟩ <;> simp [State.readBar0, h]

theorem getLast?_emitIf_true (s : State) (o : Out) : (s.emitIf true o).out.getLast? = some o := by
  simp [State.emitIf, State.emit]

/-- Settles O7: a write or a read acts by what accessOf says its offset and width reach, and a bad one is counted, recorded
and, where it reads, answered with all ones. -/
theorem accessesByTheirTarget : Obligations.AccessesByTheirTarget := by
  intro s fn off hreach
  refine ⟨readBar0_by_target s fn off, fun wide v h => exec_registerWrite_nothing hreach v h, fun wide v h => ?_,
    fun wide v h => ?_, fun size write h => ?_⟩
  · exact ⟨_, exec_registerWrite_register hreach v h, rfl⟩
  · exact ⟨_, exec_registerWrite_bad hreach v h, accessError_accErr s fn, accessError_records s fn, accessError_keeps s fn⟩
  · refine ⟨_, exec_badAccess hreach write h, ?_, records_of_after (accessError_records s fn) (State.emitIf_erl _ _ _), ?_,
      (accessError_keeps s fn).trans' ((emitIf_keeps _ _ _).mono (by simp [reportParts]))⟩
    · rw [State.fn_congr (State.emitIf_fns _ _ _)]
      exact accessError_accErr s fn
    · rintro rfl
      exact getLast?_emitIf_true _ _

end Sys2Proof.Machine
end

section
/-!
Register fields: one register of each access and change class, as a write stores it and as a read shows it (R14 to R17, R128).
-/
namespace Sys2Proof.Machine
open Sys2Proof

/-! ### The fields of a 32-bit write -/

theorem fld_writtenWord_low (v : DWord) (lo w : Nat) (h : lo + w ≤ 32) :
    fld (writtenWord false v) lo w = v.extractLsb' lo w := by
  apply BitVec.eq_of_getLsbD_eq
  intro i hi
  simp only [fld, writtenWord, Bool.false_eq_true, if_false, BitVec.getLsbD_extractLsb', BitVec.getLsbD_setWidth, hi,
    decide_true, Bool.true_and, Nat.zero_add]
  simp [show lo + i < 64 by omega, show lo + i < 32 by omega]

theorem bitOf_writtenWord_low (v : DWord) (i : Nat) (h : i < 32) : bitOf (writtenWord false v) i = v.getLsbD i := by
  simp [bitOf, writtenWord, h, show i < 64 by omega]

theorem toNat_writtenWord_low (v : DWord) : (writtenWord false v).toNat = v.toNat % 2 ^ 32 := by
  have := v.isLt
  simp [writtenWord]
  omega

/-! ### HST_ERR_VEC: stored whole, reserved bits read 0 -/

theorem writeReg_hstErrVec (s : State) (fn : Nat) (v : DWord) :
    s.writeReg fn 0x100018 v = s.modHst fn fun h => { h with errVec := fld v 0 8, errEn := bitOf v 8 } := rfl

theorem readReg_hstErrVec (s : State) (fn : Nat) :
    s.readReg fn 0x100018 = regWord [(0, (s.fn fn).hst.errVec.toNat), (8, (s.fn fn).hst.errEn.toNat)] := rfl

theorem regWord_errVec (v : DWord) :
    regWord [(0, (v.extractLsb' 0 8).toNat), (8, (v.getLsbD 8).toNat)] = (v.extractLsb' 0 9).setWidth 64 := by
  apply BitVec.eq_of_toNat_eq
  have hbit : (v.getLsbD 8).toNat = v.toNat / 2 ^ 8 % 2 := Nat.toNat_testBit _ _
  generalize v.getLsbD 8 = b at hbit
  simp [regWord, hbit]
  omega

/-! ### HRD_STATUS: bits cleared where a 1 is written -/

theorem writeReg_hrdStatus (s : State) (fn : Nat) (v : DWord) : s.writeReg fn 0x400004 v =
    { s with hrd := { s.hrd with
      fieldLocked := s.hrd.fieldLocked && !bitOf v 0, late := s.hrd.late && !bitOf v 3
      pinBroken := s.hrd.pinBroken && !bitOf v 4 } } := rfl

/-! ### HRD_HEAP_BASE: the physical function's, locked while a context exists -/

/-- A context exists: HRD_HEAP_BASE and HRD_HEAP_LEN are locked. -/
def State.heapRuns (s : State) : Bool := s.hrd.ctxs.any fun p => p.2.st != .free

theorem readReg_heapBase (s : State) (fn : Nat) : s.readReg fn 0x400018 = regWord [(12, s.hrd.heapBase.toNat)] := rfl

theorem writeReg_heapBase (s : State) (fn : Nat) (v : DWord) : s.writeReg fn 0x400018 v =
    if fn ≠ 0 then s else if s.heapRuns then s.hrdLocked fn none 0x400018 v.toNat
    else { s with hrd := { s.hrd with heapBase := fld v 12 52 } } := rfl

theorem regWord_pages (b : BitVec 52) : regWord [(12, b.toNat)] = b.setWidth 64 <<< 12 := by
  apply BitVec.eq_of_toNat_eq
  have := b.isLt
  simp [regWord, Nat.shiftLeft_eq]

/-! ### HRD_CTX_CFG: the span pin waits for the next frame and reads as last written -/

/-- The fields of HRD_CTX_CFG, each at its lowest bit (Table 8.6). -/
def CtxRegs.cfgFields (r : CtxRegs) : List (Nat × Nat) :=
  [(0, r.slot.toNat), (4, r.template.toNat), (12, r.source.toNat), (14, r.feed.toNat), (26, r.spanPin.toNat),
    (29, r.placePin.toNat)]

theorem readReg_ctxCfg (s : State) (fn : Nat) :
    s.readReg fn 0x400030 = regWord (s.ctxShown fn (s.fn fn).hrd.ctxSel.toNat).cfgFields := rfl

/-- A word of six fields as a sum. The fields are variables here, so that the kernel compares no sum with a literal power. -/
theorem toNat_regWord_six (a b c d e f : Nat × Nat) : (regWord [a, b, c, d, e, f]).toNat =
    (0 + a.2 * 2 ^ a.1 + b.2 * 2 ^ b.1 + c.2 * 2 ^ c.1 + d.2 * 2 ^ d.1 + e.2 * 2 ^ e.1 + f.2 * 2 ^ f.1) % 2 ^ 64 :=
  BitVec.toNat_ofNat _ _

theorem regWord_cfgFields_spanPin (r : CtxRegs) : (regWord r.cfgFields).toNat / 2 ^ 26 % 8 = r.spanPin.toNat := by
  have hslot := r.slot.isLt
  have htmpl := r.template.isLt
  have hsource := r.source.isLt
  have hfeed := r.feed.isLt
  have hspan := r.spanPin.isLt
  have hplace := r.placePin.toNat_lt
  rw [CtxRegs.cfgFields, toNat_regWord_six]
  dsimp only
  omega

theorem ctxShown_spanPin_of_owned (s : State) (fn c : Nat) (h : s.ownsCtx fn c = true) :
    (s.ctxShown fn c).spanPin = (s.ctx c).pendSpan.getD (s.ctx c).spanPin := by
  simp [State.ctxShown, h]

/-- A context whose pins are to change with its next frame. -/
def Ctx.withPins (x : Ctx) (span : BitVec 3) (place : Bool) : Ctx :=
  { x with pendSpan := some span, pendPlace := some place }

theorem writeReg_ctxCfg (s : State) (fn : Nat) (v : DWord) : s.writeReg fn 0x400030 v =
    let c := (s.fn fn).hrd.ctxSel.toNat
    if (s.ctx c).st = .free then
      s.setCtxRegs fn c { s.ctxRegs fn c with
        slot := fld v 0 4, template := fld v 4 8, source := fld v 12 2, feed := fld v 14 12, spanPin := fld v 26 3
        placePin := bitOf v 29 }
    else if (s.ctx c).func ≠ fn then s
    else State.hrdLocked (s.setCtx c { s.ctx c with
        pendSpan := if (s.ctxTmpl c).any fun t => s.pinValid t (nfld v.toNat 26 3) then
          some (BitVec.ofNat 3 (nfld v.toNat 26 3)) else (s.ctx c).pendSpan
        pendPlace := some (bitOf v 29) }) fn (some c) 0x400030 v.toNat := rfl

/-- A write of a valid span pin to the function's own context leaves it waiting, and the class L fields locked (R303). -/
theorem writeReg_ctxCfg_of_owned (s : State) (fn c : Nat) (v : DWord) (k : TmplRec)
    (hc : (s.fn fn).hrd.ctxSel.toNat = c) (hown : s.ownsCtx fn c = true) (htmpl : s.ctxTmpl c = some k)
    (hpin : s.pinValid k (v.toNat / 2 ^ 26 % 8) = true) : s.writeReg fn 0x400030 v =
      (s.setCtx c ((s.ctx c).withPins (BitVec.ofNat 3 (v.toNat / 2 ^ 26 % 8)) (bitOf v 29))).hrdLocked fn (some c) 0x400030
        v.toNat := by
  obtain ⟨hst, hfn⟩ : (s.ctx c).st ≠ .free ∧ (s.ctx c).func = fn := by simpa [State.ownsCtx] using hown
  have hfield : nfld v.toNat 26 3 = v.toNat / 2 ^ 26 % 8 := by simp [nfld, Nat.shiftRight_eq_div_pow]
  subst hc
  rw [writeReg_ctxCfg, if_neg hst, if_neg (fun h => h hfn), htmpl, hfield, Option.any_some, if_pos hpin]
  rfl

/-! ### FAB_AUDIT_PERIOD: held between its bounds -/

theorem writeReg_auditPeriod (s : State) (v : DWord) : s.writeReg 0 0x2800008 v =
    s.modQuarter 0 fun k => { k with periodMs := BitVec.ofNat 10 (clampNat 1 1000 (nfld v.toNat 0 10)) } := rfl

theorem toNat_clamped_auditPeriod (n : Nat) : (BitVec.ofNat 10 (clampNat 1 1000 n)).toNat = max 1 (min 1000 n) := by
  rw [BitVec.toNat_ofNat, clampNat]
  omega

/-! ### The obligation, clause by clause -/

section
variable (s : State) (fn : Nat) (v : DWord) (hreach : s.hostReach fn = true)
include hreach

theorem exec_write_hstErrVec : ∃ t, exec (.registerWrite fn 0x100018 false v) s = .next t ∧
    (t.fn fn).hst.errVec = v.extractLsb' 0 8 ∧ (t.fn fn).hst.errEn = v.getLsbD 8 ∧
    t.readReg fn 0x100018 = (v.extractLsb' 0 9).setWidth 64 ∧ Keeps [.fns] s t := by
  refine ⟨_, exec_registerWrite_register hreach v (by decide), ?_⟩
  rw [writeReg_hstErrVec, fld_writtenWord_low _ _ _ (by decide), bitOf_writtenWord_low _ _ (by decide), State.modHst,
    State.modFn_eq, readReg_hstErrVec, State.fn_setFn]
  exact ⟨rfl, rfl, regWord_errVec v, setFn_keeps _ _ _⟩

theorem exec_write_hrdStatus : ∃ t, exec (.registerWrite fn 0x400004 false v) s = .next t ∧
    t.hrd.fieldLocked = (s.hrd.fieldLocked && !v.getLsbD 0) ∧ t.hrd.late = (s.hrd.late && !v.getLsbD 3) ∧
    t.hrd.pinBroken = (s.hrd.pinBroken && !v.getLsbD 4) ∧ t.hrd.service = s.hrd.service ∧ Keeps [.hrd] s t := by
  refine ⟨_, exec_registerWrite_register hreach v (by decide), ?_⟩
  rw [writeReg_hrdStatus, bitOf_writtenWord_low _ _ (by decide), bitOf_writtenWord_low _ _ (by decide),
    bitOf_writtenWord_low _ _ (by decide)]
  refine ⟨rfl, rfl, rfl, rfl, ?_⟩
  intro p hp; cases p <;> simp_all [Part.same]

theorem exec_write_heapBase_stored (hfn : fn = 0) (hruns : s.heapRuns = false) :
    ∃ t, exec (.registerWrite fn 0x400018 true v) s = .next t ∧ t.hrd.heapBase = v.extractLsb' 12 52 ∧
      t.readReg 0 0x400018 = (v.extractLsb' 12 52).setWidth 64 <<< 12 ∧ Keeps [.hrd] s t := by
  refine ⟨_, exec_registerWrite_register hreach v (by decide), ?_⟩
  rw [writeReg_heapBase, if_neg (fun h => h hfn), hruns]
  refine ⟨rfl, regWord_pages _, ?_⟩
  intro p hp; cases p <;> simp_all [Part.same]

theorem exec_write_heapBase_locked (hfn : fn = 0) (hruns : s.heapRuns = true) :
    ∃ t, exec (.registerWrite fn 0x400018 true v) s = .next t ∧ t.hrd.heapBase = s.hrd.heapBase ∧
      t.hrd.fieldLocked = true ∧ t.readReg 0 0x400018 = s.readReg 0 0x400018 ∧
      Records s t ⟨.hrd, 8⟩ .reportOnly .none [0x400018, v.toNat % 2 ^ 32] ∧ Keeps (.hrd :: reportParts) s t := by
  refine ⟨_, exec_registerWrite_register hreach v (by decide), ?_⟩
  rw [writeReg_heapBase, if_neg (fun h => h hfn), if_pos hruns, readReg_heapBase, hrdLocked_hrd]
  exact ⟨rfl, rfl, rfl, hrdLocked_records s fn none _ _, hrdLocked_keeps s fn none _ _⟩

theorem exec_write_heapBase_virtual (hfn : fn ≠ 0) : exec (.registerWrite fn 0x400018 true v) s = .next s := by
  rw [exec_registerWrite_register hreach v (by decide), writeReg_heapBase, if_pos hfn]

theorem exec_write_spanPin (c : Nat) (k : TmplRec) (hc : c = (s.fn fn).hrd.ctxSel.toNat) (hown : s.ownsCtx fn c = true)
    (htmpl : s.ctxTmpl c = some k) (hpin : s.pinValid k (v.toNat / 2 ^ 26 % 8) = true) :
    ∃ t, exec (.registerWrite fn 0x400030 true v) s = .next t ∧ (t.ctx c).spanPin = (s.ctx c).spanPin ∧
      (t.readReg fn 0x400030).toNat / 2 ^ 26 % 8 = v.toNat / 2 ^ 26 % 8 := by
  refine ⟨_, exec_registerWrite_register hreach v (by decide), ?_⟩
  rw [show writtenWord true v = v from rfl, writeReg_ctxCfg_of_owned s fn c v k hc.symm hown htmpl hpin]
  generalize hy : (s.ctx c).withPins (BitVec.ofNat 3 (v.toNat / 2 ^ 26 % 8)) (bitOf v 29) = y
  generalize ht : (s.setCtx c y).hrdLocked fn (some c) 0x400030 v.toNat = t
  have hctx : t.ctx c = y := by rw [← ht, hrdLocked_ctx, State.ctx_setCtx]
  have hsel : (t.fn fn).hrd.ctxSel.toNat = c := by rw [← ht, hrdLocked_ctxSel, hc]; rfl
  have hown' : t.ownsCtx fn c = true := by rw [State.ownsCtx, hctx, ← hy]; exact hown
  refine ⟨by rw [hctx, ← hy]; rfl, ?_⟩
  rw [readReg_ctxCfg, regWord_cfgFields_spanPin, hsel, ctxShown_spanPin_of_owned t fn c hown', hctx, ← hy]
  simp [Ctx.withPins]

theorem exec_write_auditPeriod (hfn : fn = 0) : ∃ t, exec (.registerWrite fn 0x2800008 false v) s = .next t ∧
    (t.quarter 0).periodMs.toNat = max 1 (min 1000 (v.toNat % 1024)) ∧ Keeps [.fab] s t := by
  subst hfn
  have hfield : nfld (writtenWord false v).toNat 0 10 = v.toNat % 1024 := by
    rw [toNat_writtenWord_low, nfld, Nat.shiftRight_zero]
    omega
  refine ⟨_, exec_registerWrite_register hreach v (by decide), ?_⟩
  rw [writeReg_auditPeriod, hfield]
  refine ⟨?_, modQuarter_keeps _ _ _⟩
  rw [State.modQuarter_eq, State.quarter_setQuarter]
  exact toNat_clamped_auditPeriod _

theorem exec_write_heapBase_narrow : ∃ t, exec (.registerWrite fn 0x400018 false v) s = .next t ∧ t.hrd = s.hrd ∧
    (t.fn fn).hst.accErr = satInc (s.fn fn).hst.accErr :=
  ⟨_, exec_registerWrite_bad hreach v (by decide), accessError_keeps s fn .hrd (by decide), accessError_accErr s fn⟩

end

/-- Settles O8: each named register's write, as the equation of its block gives it, and its read-back. -/
theorem registerFieldsByAccessAndClass : Obligations.RegisterFieldsByAccessAndClass := by
  intro s fn v hreach
  exact ⟨exec_write_hstErrVec s fn v hreach, exec_write_hrdStatus s fn v hreach, exec_write_heapBase_stored s fn v hreach,
    exec_write_heapBase_locked s fn v hreach, exec_write_heapBase_virtual s fn v hreach, exec_write_spanPin s fn v hreach,
    exec_write_auditPeriod s fn v hreach, exec_write_heapBase_narrow s fn v hreach⟩

end Sys2Proof.Machine
end

section
/-!
Survey requests: reading the slots after one is written, how a request ends, and what a write of GO does (R118, R125, R135).
-/
namespace Sys2Proof.Machine
open Sys2Proof

/-! ### The slots and a function's SVY_ registers -/

theorem State.slot_congr {s t : State} (h : t.svy.slots = s.svy.slots) (n : Nat) : t.slot n = s.slot n := by
  simp [State.slot, h]

theorem State.slot_setSlot_other (s : State) (n k : Nat) (x : Slot) (h : k ≠ n) : (s.setSlot n x).slot k = s.slot k := by
  simp [State.slot, Tab.getD_put_other _ _ _ _ _ h]

theorem setSlot_keeps (s : State) (n : Nat) (x : Slot) : Keeps [.svy] s (s.setSlot n x) := by
  intro p hp; cases p <;> simp_all [Part.same]

theorem SameSettings.svy {s t : State} (h : SameSettings s t) (f : Nat) : (t.fn f).svy = (s.fn f).svy :=
  congrArg (fun g => g.svy) (h f)

/-- A function with other SVY_ registers. -/
def State.setSvyFn (s : State) (fn : Nat) (x : SvyFn) : State := s.setFn fn { s.fn fn with svy := x }

section
variable (s : State) (fn : Nat) (x : SvyFn)

@[simp] theorem State.setSvyFn_svyFn : ((s.setSvyFn fn x).fn fn).svy = x := by simp [State.setSvyFn]

theorem setSvyFn_keeps : Keeps [.fns] s (s.setSvyFn fn x) := setFn_keeps s fn _

theorem setSvyFn_atHost (h : ringsAtHost s = true) : ringsAtHost (s.setSvyFn fn x) = true :=
  ringsAtHost_setFn s h fn _ (ringsAtHost_fn s h fn)

end

/-! ### The end of a request (Table 3.26) -/

/-- The SVY_ registers once a request has ended with a code, section and record. -/
def SvyFn.ended (x : SvyFn) (e : SvyFail) : SvyFn :=
  { x with
    busy := false, done := true, code := BitVec.ofNat 8 e.code, section_ := BitVec.ofNat 8 e.sect
    record := BitVec.ofNat 24 e.record }

theorem svyCode_not_moduleFatal (n : Nat) : Err.cls ⟨.svy, n⟩ ≠ .moduleFatal := by
  simp only [Err.cls]
  split <;> decide

/-- No E-SVY code takes the module to HOLD: its report is the shared one. -/
theorem report_svyCode (s : State) (e : Ev) (hblk : e.blk = .svy) (hcls : e.cls = none) : s.report e = reportWith 3 e s := by
  have hclass : e.class ≠ .moduleFatal := by
    rw [Ev.class, hcls, Ev.err, hblk]
    exact svyCode_not_moduleFatal e.nn
  exact report_eq s e fun hfatal => absurd hfatal hclass

section
variable (s : State) (fn n : Nat) (e : SvyFail)

theorem svyEnd_of_accepted (h : e.code = 0) : s.svyEnd fn n e = s.setSvyFn fn ((s.fn fn).svy.ended e) := by
  simp [State.svyEnd, h, State.setSvyFn, SvyFn.ended]

theorem svyEnd_of_refused (h : e.code ≠ 0) : s.svyEnd fn n e =
    reportWith 3 { blk := .svy, nn := e.code, func := some fn, unit := .slot n } (s.setSvyFn fn ((s.fn fn).svy.ended e)) := by
  simp only [State.svyEnd, if_neg h]
  exact report_svyCode _ _ rfl rfl

@[simp] theorem svyEnd_svyFn : ((s.svyEnd fn n e).fn fn).svy = (s.fn fn).svy.ended e := by
  by_cases h : e.code = 0
  · rw [svyEnd_of_accepted s fn n e h, State.setSvyFn_svyFn]
  · rw [svyEnd_of_refused s fn n e h, (reportWith_sameSettings _ _ _).svy, State.setSvyFn_svyFn]

theorem svyEnd_keeps : Keeps reportParts s (s.svyEnd fn n e) := by
  have hfn := (setSvyFn_keeps s fn ((s.fn fn).svy.ended e)).mono (m := reportParts) (by simp [reportParts])
  by_cases h : e.code = 0
  · rw [svyEnd_of_accepted s fn n e h]
    exact hfn
  · rw [svyEnd_of_refused s fn n e h]
    exact hfn.trans' (reportWith_keeps _ _ _)

@[simp] theorem svyEnd_svy : (s.svyEnd fn n e).svy = s.svy := svyEnd_keeps s fn n e .svy (by decide)

@[simp] theorem svyEnd_slot (k : Nat) : (s.svyEnd fn n e).slot k = s.slot k := State.slot_congr (by rw [svyEnd_svy]) k

theorem svyEnd_records (h : e.code ≠ 0) :
    Records s (s.svyEnd fn n e) ⟨.svy, e.code⟩ (Err.cls ⟨.svy, e.code⟩) (.slot n) [] := by
  rw [svyEnd_of_refused s fn n e h]
  exact records_of_before (reportWith_records 2 _ _) (setSvyFn_atHost s fn _) rfl

end

/-! ### A write of GO (Table 3.26) -/

theorem svyRefusal_of_other (s : State) (fn n op : Nat) (h : (s.slot n).owner.toNat ≠ fn) : s.svyRefusal fn n op = 17 := by
  simp [State.svyRefusal, h]

theorem svyRefusal_of_invalidOp (s : State) (fn n : Nat) (h : (s.slot n).owner.toNat = fn) : s.svyRefusal fn n 3 = 16 := by
  simp [State.svyRefusal, h]

/-- The SVY_ registers with a slot and an operation asked for. -/
def SvyFn.asked (x : SvyFn) (n op : Nat) : SvyFn := { x with slot := BitVec.ofNat 4 n, op := BitVec.ofNat 2 op }

/-- The state in which a write of GO judges its request: the function's registers show the slot and the operation. -/
def State.svyAsked (s : State) (fn n op : Nat) : State := s.setSvyFn fn ((s.fn fn).svy.asked n op)

/-- The load or replacement that a function's registers describe. -/
def State.loadReq (s : State) (fn n : Nat) (replace : Bool) : LoadReq :=
  { fn := fn, slot := n, replace := replace, addr := (s.fn fn).svy.addr.setWidth 64 <<< 6, len := (s.fn fn).svy.len }

/-- A request waits in the loader's queue and its function is BUSY. -/
def State.svyQueued (s : State) (q : LoadReq) : State :=
  State.setSvyFn { s with svy := { s.svy with queue := s.svy.queue ++ [q] } } q.fn
    { (s.fn q.fn).svy with busy := true, done := false }

section
variable (s : State) (fn n : Nat)

theorem svyAsked_keeps (op : Nat) : Keeps [.fns] s (s.svyAsked fn n op) := setSvyFn_keeps s fn _

theorem svyQueued_keeps (q : LoadReq) : Keeps [.fns, .svy] s (s.svyQueued q) := by
  have hqueue : Keeps [.fns, .svy] s { s with svy := { s.svy with queue := s.svy.queue ++ [q] } } := by
    intro p hp; cases p <;> simp_all [Part.same]
  exact hqueue.trans' ((setSvyFn_keeps _ _ _).mono (by simp))

theorem svyQueued_svy (q : LoadReq) : (s.svyQueued q).svy = { s.svy with queue := s.svy.queue ++ [q] } := rfl

variable (value : Nat) (hidle : (s.fn fn).svy.busy = false) (hpck : s.pck.busy = false)
include hidle hpck

theorem svyGo_of_idle (op : Nat) : s.svyGo fn n op value =
    if s.svyRefusal fn n op ≠ 0 then (s.svyAsked fn n op).svyEnd fn n { code := s.svyRefusal fn n op }
    else if op = 2 then
      (((s.svyAsked fn n op).setSlot n { s.slot n with state := .unloading }).settleSlot n).svyEnd fn n { code := 0 }
    else (s.svyAsked fn n op).svyQueued ((s.svyAsked fn n op).loadReq fn n (op == 1)) := by
  have hpack : ¬(s.svyRefusal fn n op ≠ 17 ∧ (op = 1 ∨ op = 2) ∧ (s.svyAsked fn n op).pck.busy = true ∧
      (s.svyAsked fn n op).pck.slot.toNat = n) := by
    rintro ⟨-, -, hbusy, -⟩
    rw [(svyAsked_keeps s fn n op) .pck (by decide), hpck] at hbusy
    contradiction
  rw [State.svyGo, hidle, if_neg Bool.false_ne_true]
  exact if_neg hpack

end

/-- An UNLOADING slot whose current image nothing runs on, and that retains none, becomes EMPTY (R118). -/
theorem settleSlot_of_unused (s : State) (n : Nat) (l : Loaded) (hstate : (s.slot n).state = .unloading)
    (hcur : (s.slot n).current = some l) (hret : (s.slot n).retained = none) (hfree : s.usersOf n l.gen = 0) :
    s.settleSlot n = s.setSlot n { s.slot n with state := .empty, current := none } := by
  simp [State.settleSlot, hstate, hcur, hret, hfree]

/-! ### The obligation, clause by clause -/

section
variable (s : State) (fn n : Nat) (hreach : s.hostReach fn = true)
include hreach

theorem exec_loadRequest : exec (.loadRequest fn n) s = .next (s.svyGo fn n 0 (svyGoValue n 0)) := by
  simp [exec, execLoadRequest, hreach]

theorem exec_replaceRequest : exec (.replaceRequest fn n) s = .next (s.svyGo fn n 1 (svyGoValue n 1)) := by
  simp [exec, execReplaceRequest, hreach]

theorem exec_unloadRequest : exec (.unloadRequest fn n) s = .next (s.svyGo fn n 2 (svyGoValue n 2)) := by
  simp [exec, execUnloadRequest, hreach]

theorem exec_invalidSurveyOp : exec (.invalidSurveyOp fn n) s = .next (s.svyGo fn n 3 (svyGoValue n 3)) := by
  simp [exec, execInvalidSurveyOp, hreach]

end

section
variable (s : State) (fn n : Nat) (value : Nat) (hidle : (s.fn fn).svy.busy = false) (hpck : s.pck.busy = false)
include hidle hpck

theorem svyGo_accepted_queues (op : Nat) (hop : op ≠ 2) (h : s.svyRefusal fn n op = 0) :
    ((s.svyGo fn n op value).fn fn).svy.busy = true ∧ (s.svyGo fn n op value).svy.slots = s.svy.slots ∧
      (s.svyGo fn n op value).svy.queue = s.svy.queue ++ [s.loadReq fn n (decide (op = 1))] ∧
      Keeps [.fns, .svy] s (s.svyGo fn n op value) := by
  rw [svyGo_of_idle s fn n value hidle hpck, if_neg (fun hne => hne h), if_neg hop]
  have hreq : (s.svyAsked fn n op).loadReq fn n (op == 1) = s.loadReq fn n (decide (op = 1)) := by
    have hreplace : (op == 1) = decide (op = 1) := rfl
    rw [hreplace]
    simp only [State.loadReq, State.svyAsked, State.setSvyFn_svyFn, SvyFn.asked]
  rw [hreq, svyQueued_svy]
  exact ⟨by simp [State.svyQueued, State.loadReq], rfl, rfl,
    ((svyAsked_keeps s fn n op).mono (by simp)).trans' (svyQueued_keeps _ _)⟩

theorem svyGo_unload_empties (l : Loaded) (h : s.svyRefusal fn n 2 = 0) (hcur : (s.slot n).current = some l)
    (hret : (s.slot n).retained = none) (hfree : s.usersOf n l.gen = 0) :
    ((s.svyGo fn n 2 value).slot n).state = .empty ∧ ((s.svyGo fn n 2 value).slot n).current = none ∧
      ((s.svyGo fn n 2 value).fn fn).svy.done = true ∧ ((s.svyGo fn n 2 value).fn fn).svy.code = 0 ∧
      (∀ k, k ≠ n → (s.svyGo fn n 2 value).slot k = s.slot k) ∧ Keeps [.fns, .svy] s (s.svyGo fn n 2 value) := by
  rw [svyGo_of_idle s fn n value hidle hpck, if_neg (fun hne => hne h), if_pos rfl]
  generalize hu : (s.svyAsked fn n 2).setSlot n { s.slot n with state := .unloading } = u
  have hslot : u.slot n = { s.slot n with state := .unloading } := by rw [← hu, State.slot_setSlot]
  have hother : ∀ k, k ≠ n → u.slot k = s.slot k := fun k hk => by rw [← hu, State.slot_setSlot_other _ _ _ _ hk]; rfl
  have hkeep : Keeps [.fns, .svy] s u := by
    rw [← hu]
    exact ((svyAsked_keeps s fn n 2).mono (by simp)).trans' ((setSlot_keeps _ _ _).mono (by simp))
  have husers : u.usersOf n l.gen = 0 := by rw [State.usersOf, hkeep .hrd (by decide)]; exact hfree
  rw [settleSlot_of_unused u n l (by rw [hslot]) (by rw [hslot]; exact hcur) (by rw [hslot]; exact hret) husers]
  refine ⟨by simp, by simp, by simp [SvyFn.ended], by simp [SvyFn.ended], fun k hk => ?_, hkeep.trans' ?_⟩
  · rw [svyEnd_slot, State.slot_setSlot_other _ _ _ _ hk, hother k hk]
  · rw [svyEnd_of_accepted _ _ _ _ rfl]
    exact ((setSlot_keeps _ _ _).mono (by simp)).trans' ((setSvyFn_keeps _ _ _).mono (by simp))

theorem svyGo_refused_ends (op code : Nat) (h : s.svyRefusal fn n op = code) (hcode : code ≠ 0) :
    ((s.svyGo fn n op value).fn fn).svy.code = BitVec.ofNat 8 code ∧ ((s.svyGo fn n op value).fn fn).svy.done = true ∧
      (s.svyGo fn n op value).svy = s.svy ∧
      Records s (s.svyGo fn n op value) ⟨.svy, code⟩ (Err.cls ⟨.svy, code⟩) (.slot n) [] ∧
      Keeps reportParts s (s.svyGo fn n op value) := by
  subst h
  rw [svyGo_of_idle s fn n value hidle hpck, if_pos hcode]
  exact ⟨by simp [SvyFn.ended], by simp [SvyFn.ended], svyEnd_svy _ _ _ _,
    records_of_before (svyEnd_records _ _ _ _ hcode) (setSvyFn_atHost s fn _) rfl,
    ((svyAsked_keeps s fn n op).mono (by simp [reportParts])).trans' (svyEnd_keeps _ _ _ _)⟩

end

/-- Settles O18: a write of GO queues an accepted load or replacement, carries out an unload at once, and ends a refused
operation with its code. -/
theorem surveyRequestsQueueOrEnd : Obligations.SurveyRequestsQueueOrEnd := by
  intro s fn n hreach _ hidle hpck
  refine ⟨?_, fun l h hcur hret hfree => ?_, fun hother => ?_, fun hown => ?_⟩
  · rintro op i (⟨rfl, rfl⟩ | ⟨rfl, rfl⟩) h
    · exact ⟨_, exec_loadRequest s fn n hreach, svyGo_accepted_queues s fn n _ hidle hpck 0 (by decide) h⟩
    · exact ⟨_, exec_replaceRequest s fn n hreach, svyGo_accepted_queues s fn n _ hidle hpck 1 (by decide) h⟩
  · exact ⟨_, exec_unloadRequest s fn n hreach, svyGo_unload_empties s fn n _ hidle hpck l h hcur hret hfree⟩
  · exact ⟨_, exec_loadRequest s fn n hreach,
      svyGo_refused_ends s fn n _ hidle hpck 0 17 (svyRefusal_of_other s fn n 0 hother) (by decide)⟩
  · exact ⟨_, exec_invalidSurveyOp s fn n hreach,
      svyGo_refused_ends s fn n _ hidle hpck 3 16 (svyRefusal_of_invalidOp s fn n hown) (by decide)⟩

end Sys2Proof.Machine
end

section
/-!
The loader: how a request starts, commits or is refused, and what its reports leave of the slots (R109, R110, R119, R125, R133).
-/
namespace Sys2Proof.Machine
open Sys2Proof

/-! ### What a refused image's bad granule changes (R722) -/

/-- A bad granule changes what a report changes: memory's error registers and the Field book's counts are among it. -/
theorem memError_keeps (s : State) (nn g source : Nat) (newly : Bool) (e : Ev) (c : ErrClass) (hcls : e.cls = some c)
    (hc : c ≠ .moduleFatal) : Keeps reportParts s (s.memError nn g source newly e) := by
  have hcount : Keeps reportParts s (if newly then s.countUe (homeQuarter g) else s) := by
    cases newly with
    | false => exact Keeps.rfl' _ _
    | true => exact (countUe_keeps s _).mono (by simp [reportParts])
  have hmem : ∀ (t : State) (m : Mem), Keeps reportParts t { t with mem := m } := by
    intro t m p hp; cases p <;> simp_all [Part.same, reportParts]
  unfold State.memError
  rw [report_eq _ _ fun hfatal => absurd hfatal (by simpa [Ev.class, hcls] using hc)]
  exact (hcount.trans' (hmem _ _)).trans' (reportWith_keeps _ _ _)

theorem loaderGranule_keeps (s : State) (fn : Nat) (e : SvyFail) : Keeps reportParts s (s.loaderGranule fn e) := by
  unfold State.loaderGranule
  split
  · exact Keeps.rfl' _ _
  · exact memError_keeps _ _ _ _ _ _ .reportOnly rfl (by decide)

/-! ### What the judgement of migrations changes of the slots (R119) -/

/-- The loader's request and numbers and the slots agree, but for one slot's mark that E-SVY-20 has been reported. -/
structure SameLoads (n : Nat) (s t : State) : Prop where
  running : t.svy.running = s.svy.running
  nextGen : t.svy.nextGen = s.svy.nextGen
  own : t.slot n = { s.slot n with skipReported := (t.slot n).skipReported }
  others : ∀ k, k ≠ n → t.slot k = s.slot k

theorem SameLoads.of_svy {n : Nat} {s t : State} (h : t.svy = s.svy) : SameLoads n s t := by
  have hslot : ∀ k, t.slot k = s.slot k := State.slot_congr (by rw [h])
  exact ⟨by rw [h], by rw [h], by rw [hslot], fun k _ => hslot k⟩

theorem SameLoads.trans {n : Nat} {s t u : State} (h : SameLoads n s t) (k : SameLoads n t u) : SameLoads n s u where
  running := k.running.trans h.running
  nextGen := k.nextGen.trans h.nextGen
  own := by rw [k.own, h.own]
  others := fun i hi => (k.others i hi).trans (h.others i hi)

/-- A slot's mark that E-SVY-20 is reported, and the block's MIGRATE_SKIP, set before that report. -/
def State.skipMarked (s : State) (n : Nat) : State :=
  let t := s.setSlot n { s.slot n with skipReported := true }
  { t with svy := { t.svy with migrateSkip := true } }

theorem skipMarked_sameLoads (s : State) (n : Nat) : SameLoads n s (s.skipMarked n) where
  running := rfl
  nextGen := rfl
  own := by simp [State.skipMarked, State.slot]
  others := fun k hk => State.slot_setSlot_other s n k _ hk

theorem skipReport_sameLoads (s : State) (n c : Nat) : SameLoads n s (s.skipReport n c) := by
  unfold State.skipReport
  split
  · exact .of_svy rfl
  · refine (skipMarked_sameLoads s n).trans (.of_svy ?_)
    dsimp only
    rw [report_svyCode _ _ rfl rfl]
    exact reportWith_svy _ _ (s.skipMarked n)

theorem judgeMigrations_sameLoads (s : State) (n : Nat) (old new : Loaded) :
    SameLoads n s (s.judgeMigrations n old new) := by
  refine List.foldlRecOn (motive := SameLoads n s) _ _ (.of_svy rfl) fun t ht p _ => ?_
  split
  · exact ht.trans (skipReport_sameLoads t n p.1)
  · exact ht

/-! ### Start, commit and refusal of a request -/

/-- A request at its start, with the numerics signature and the firmware of that moment (R133). -/
def State.started (s : State) (q : LoadReq) : LoadReq :=
  { q with numsig := s.numsig, fwMajor := s.firmware.major, fwMinor := s.firmware.minor }

/-- The state with a request running and the requests behind it waiting. -/
def State.withRunning (s : State) (q : Option LoadReq) (rest : List LoadReq) : State :=
  { s with svy := { s.svy with queue := rest, running := q } }

/-- The slot of a running request in a new state; a replacement's slot stays as it is (R118). -/
def State.slotMarked (s : State) (q : LoadReq) (x : SlotState) : State :=
  if q.replace then s else s.setSlot q.slot { s.slot q.slot with state := x }

/-- The slot of a running request with a checked image under the next number, and the loader idle. -/
def State.slotLoaded (s : State) (q : LoadReq) (im : Image) (h : List Byte) (retained : Option Loaded) : State :=
  State.setSlot { s with svy := { s.svy with nextGen := s.svy.nextGen + 1, running := none } } q.slot
    { s.slot q.slot with
      state := .loaded, current := some { gen := s.svy.nextGen, image := im, hash := h }, retained := retained
      skipReported := false }

section
variable (s : State) (q : LoadReq) (x : SlotState)

theorem withRunning_keeps (r : Option LoadReq) (rest : List LoadReq) : Keeps [.svy] s (s.withRunning r rest) := by
  intro p hp; cases p <;> simp_all [Part.same, State.withRunning]

theorem slotMarked_keeps : Keeps [.svy] s (s.slotMarked q x) := by
  unfold State.slotMarked
  split
  · exact Keeps.rfl' _ _
  · exact setSlot_keeps _ _ _

@[simp] theorem slotMarked_running : (s.slotMarked q x).svy.running = s.svy.running := by
  unfold State.slotMarked; split <;> rfl

@[simp] theorem slotMarked_queue : (s.slotMarked q x).svy.queue = s.svy.queue := by
  unfold State.slotMarked; split <;> rfl

theorem slotMarked_slot : (s.slotMarked q x).slot q.slot =
    { s.slot q.slot with state := if q.replace then (s.slot q.slot).state else x } := by
  unfold State.slotMarked
  cases q.replace with
  | true => rfl
  | false => exact State.slot_setSlot s q.slot _

theorem slotMarked_slot_other (k : Nat) (hk : k ≠ q.slot) : (s.slotMarked q x).slot k = s.slot k := by
  unfold State.slotMarked
  split
  · rfl
  · exact State.slot_setSlot_other s q.slot k _ hk

end

section
variable {s : State} (halive : s.alive = true)
include halive

theorem exec_loadStart (q : LoadReq) (rest : List LoadReq) (hidle : s.svy.running = none) (hqueue : s.svy.queue = q :: rest) :
    exec .loadStart s = .next ((s.withRunning (some (s.started q)) rest).slotMarked q .loading) := by
  simp only [exec, execLoadStart, hidle, hqueue, halive, Bool.not_true, Bool.false_eq_true, if_false]
  rfl

variable (ue : UeList) (q : LoadReq) (hrun : s.svy.running = some q)
include hrun

theorem exec_slotCommit (im : Image) (h : List Byte) (hok : s.checkLoad ue q = .ok (im, h)) :
    exec (.slotCommit ue) s = .next (s.slotCommit q im h) := by
  simp [exec, execSlotCommit, hrun, halive, hok]

theorem exec_loadRefused (e : SvyFail) (hbad : s.checkLoad ue q = .error e) : exec (.loadRefused ue) s =
    .next ((((s.withRunning none s.svy.queue).slotMarked q .empty).loaderGranule q.fn e).svyEnd q.fn q.slot e) := by
  simp only [exec, execLoadRefused, hrun, halive, hbad, Bool.not_true, Bool.false_eq_true, if_false]
  rfl

end

/-- The previous image that a commit keeps for the instances that use it (R118). -/
def State.retainedBy (s : State) (q : LoadReq) : Option Loaded :=
  if q.replace then
    match (s.slot q.slot).current with
    | some old => if s.usersOf q.slot old.gen ≠ 0 then some old else none
    | none => none
  else none

/-- The judgement of the migrations from a retained image, where there is one. -/
def State.judgedFrom (s : State) (n : Nat) (retained : Option Loaded) (new : Loaded) : State :=
  match retained with
  | some old => s.judgeMigrations n old new
  | none => s

theorem judgedFrom_sameLoads (s : State) (n : Nat) (retained : Option Loaded) (new : Loaded) :
    SameLoads n s (s.judgedFrom n retained new) := by
  cases retained with
  | none => exact .of_svy rfl
  | some old => exact judgeMigrations_sameLoads s n old new

theorem slotCommit_eq (s : State) (q : LoadReq) (im : Image) (h : List Byte) : s.slotCommit q im h =
    (((s.slotLoaded q im h (s.retainedBy q)).dropLines fun p => im.wrefs.any fun w => touches w.addr w.length p).judgedFrom
      q.slot (s.retainedBy q) { gen := s.svy.nextGen, image := im, hash := h }).svyEnd q.fn q.slot { code := 0 } := rfl

/-- Between the image's entry into its slot and the request's end with code 0, a commit leaves the loads as they are. -/
theorem slotCommit_sameLoads (s : State) (q : LoadReq) (im : Image) (h : List Byte) :
    ∃ u, SameLoads q.slot (s.slotLoaded q im h (s.retainedBy q)) u ∧
      s.slotCommit q im h = u.svyEnd q.fn q.slot { code := 0 } :=
  ⟨_, SameLoads.trans (.of_svy (dropLines_keeps _ _ .svy (by decide))) (judgedFrom_sameLoads _ _ _ _), slotCommit_eq s q im h⟩

/-! ### The obligation, clause by clause -/

theorem slotCommit_effect (s : State) (q : LoadReq) (im : Image) (h : List Byte) :
    (s.slotCommit q im h).svy.running = none ∧ ((s.slotCommit q im h).slot q.slot).state = .loaded ∧
      ((s.slotCommit q im h).slot q.slot).current = some { gen := s.svy.nextGen, image := im, hash := h } ∧
      (s.slotCommit q im h).svy.nextGen = s.svy.nextGen + 1 ∧ ((s.slotCommit q im h).fn q.fn).svy.busy = false ∧
      ((s.slotCommit q im h).fn q.fn).svy.done = true ∧ ((s.slotCommit q im h).fn q.fn).svy.code = 0 ∧
      ∀ k, k ≠ q.slot → (s.slotCommit q im h).slot k = s.slot k := by
  obtain ⟨u, hloads, heq⟩ := slotCommit_sameLoads s q im h
  rw [heq, svyEnd_svy, svyEnd_slot, svyEnd_svyFn, hloads.running, hloads.nextGen, hloads.own]
  refine ⟨rfl, ?_, ?_, rfl, rfl, rfl, rfl, fun k hk => ?_⟩
  · simp [State.slotLoaded]
  · simp [State.slotLoaded]
  · rw [svyEnd_slot, hloads.others k hk]
    exact State.slot_setSlot_other _ _ _ _ hk

/-- The end of a refused load, its section shown as well as its code and its record (R110). -/
theorem loadRefused_effect (s : State) (q : LoadReq) (e : SvyFail) :
    let t := (((s.withRunning none s.svy.queue).slotMarked q .empty).loaderGranule q.fn e).svyEnd q.fn q.slot e
    t.svy.running = none ∧ t.slot q.slot = { s.slot q.slot with state := if q.replace then (s.slot q.slot).state else .empty } ∧
      (t.fn q.fn).svy.busy = false ∧ (t.fn q.fn).svy.code = BitVec.ofNat 8 e.code ∧
      (t.fn q.fn).svy.section_ = BitVec.ofNat 8 e.sect ∧ (t.fn q.fn).svy.record = BitVec.ofNat 24 e.record ∧
      ∀ k, k ≠ q.slot → t.slot k = s.slot k := by
  intro t
  have hsvy : t.svy = ((s.withRunning none s.svy.queue).slotMarked q .empty).svy :=
    (svyEnd_svy _ _ _ _).trans (loaderGranule_keeps _ _ _ .svy (by decide))
  have hslot : ∀ k, t.slot k = ((s.withRunning none s.svy.queue).slotMarked q .empty).slot k :=
    State.slot_congr (by rw [hsvy])
  have hended : (t.fn q.fn).svy = SvyFn.ended _ e := svyEnd_svyFn _ _ _ _
  rw [hsvy, hended, slotMarked_running, hslot, slotMarked_slot]
  exact ⟨rfl, rfl, rfl, rfl, rfl, rfl, fun k hk => (hslot k).trans (slotMarked_slot_other _ q _ k hk)⟩

/-- Settles O19: the loader's start marks the slot, a commit's later steps leave the slots but for one report mark, and a
refusal takes the mark back. -/
theorem loaderCommitsOrRefuses : Obligations.LoaderCommitsOrRefuses := by
  intro s halive
  refine ⟨fun q rest hidle hqueue => ?_, fun q ue im h hrun hok => ?_, fun q ue e hrun hbad => ?_⟩
  · refine ⟨_, exec_loadStart halive q rest hidle hqueue, slotMarked_running _ _ _, slotMarked_queue _ _ _, ?_,
      (withRunning_keeps s _ _).trans' (slotMarked_keeps _ q _)⟩
    rw [slotMarked_slot]
    rfl
  · exact ⟨_, exec_slotCommit halive ue q hrun im h hok, slotCommit_effect s q im h⟩
  · obtain ⟨hrunning, hslot, hbusy, hcode, -, hrecord, hothers⟩ := loadRefused_effect s q e
    exact ⟨_, exec_loadRefused halive ue q hrun e hbad, hrunning, by rw [hslot], by rw [hslot], hbusy, hcode, hrecord, hothers⟩

end Sys2Proof.Machine
end

section
/-!
Units read back: who issues and who waits, and what a change of one unit, a core's choice, a wait and its end leave of the
units and the cores (R138 to R142).
-/
namespace Sys2Proof.Machine
open Sys2Proof

theorem State.ctx_setCtx_other (s : State) (c k : Nat) (x : Ctx) (h : k ≠ c) : (s.setCtx c x).ctx k = s.ctx k := by
  simp [State.ctx, Tab.getD_put_other _ _ _ _ _ h]

theorem State.core_setCore_other (s : State) (c k : Nat) (x : Core) (h : k ≠ c) : (s.setCore c x).core k = s.core k := by
  simp [State.core, Tab.getD_put_other _ _ _ _ _ h]

theorem State.core_congr {s t : State} (h : t.hrd.cores = s.hrd.cores) (k : Nat) : t.core k = s.core k := by
  simp [State.core, h]

theorem State.unitRun_congr {s t : State} (h : t.hrd.ctxs = s.hrd.ctxs) (c u : Nat) : t.unitRun c u = s.unitRun c u := by
  simp only [State.unitRun, State.ctx_congr h]

/-! ### Who issues and who waits -/

/-- A unit of a context's running frame, which nothing is cancelling. -/
structure RunsUnit (s : State) (c u : Nat) (f : Frame) (r : FrameRun) (x : UnitRun) : Prop where
  alive : s.alive = true
  running : (s.ctx c).running = some (f, r)
  kept : r.cancelling = false
  found : (r.units.find? fun y => y.unit == u) = some x

section
variable {s : State} {c u : Nat} {f : Frame} {r : FrameRun} {x : UnitRun}

theorem RunsUnit.unitRun (h : RunsUnit s c u f r x) : s.unitRun c u = some x := by
  rw [State.unitRun, h.running, Option.bind_some, h.found]

theorem RunsUnit.unit (h : RunsUnit s c u f r x) : x.unit = u := by simpa using List.find?_some h.found

/-- The unit that issues runs, neither waits nor has ended. -/
theorem issuer?_runs (h : s.issuer? c u = some (f, r, x)) : RunsUnit s c u f r x ∧ x.ended = false ∧ x.blocked = none := by
  revert h
  fun_cases State.issuer? s c u <;> simp_all
  rintro rfl rfl rfl
  exact ⟨⟨by assumption, by assumption, by assumption, by assumption⟩, by assumption⟩

theorem waiter?_runs (h : s.waiter? c u = some (f, r, x)) : RunsUnit s c u f r x := by
  revert h
  fun_cases State.waiter? s c u <;> simp_all
  rintro rfl rfl rfl
  exact ⟨by assumption, by assumption, by assumption, by assumption⟩

theorem coreIssuer?_issues (h : s.coreIssuer? c u = some (f, r, x)) : s.issuer? c u = some (f, r, x) ∧ x.kind = 0 := by
  unfold State.coreIssuer? at h
  split at h
  · split at h
    · cases h; exact ⟨by assumption, by assumption⟩
    · cases h
  · cases h

end

/-! ### A change of one unit -/

/-- A change of one unit, read back at any unit of its context. -/
theorem unitRun_modUnit_any (s : State) (c u v : Nat) (g : UnitRun → UnitRun) (hg : ∀ x, (g x).unit = x.unit) :
    (s.modUnit c u g).unitRun c v = (s.unitRun c v).map fun x => if x.unit = u then g x else x := by
  have hfind : ((fun x : UnitRun => x.unit == v) ∘ fun x => if x.unit = u then g x else x) = fun x => x.unit == v := by
    funext x
    show ((if x.unit = u then g x else x).unit == v) = (x.unit == v)
    split
    · rw [hg]
    · rfl
  unfold State.modUnit State.modRun State.modHead State.unitRun Ctx.modHead Ctx.running
  simp only [State.modCtx_eq, State.ctx_setCtx]
  cases hheld : (s.ctx c).held with
  | nil => rfl
  | cons f rest =>
    cases hrun : f.run with
    | none => simp only [hrun, Option.map_none, Option.bind_none]
    | some r => simp only [hrun, Option.map_some, Option.bind_some, List.find?_map, hfind]

/-- A change of units that leaves what is read of a unit leaves it of every unit of every context. -/
theorem unitRun_modUnit_map {α : Type} (s : State) (c u : Nat) (g : UnitRun → UnitRun) (π : UnitRun → α)
    (hg : ∀ x, (g x).unit = x.unit) (hπ : ∀ x, π (g x) = π x) (d v : Nat) :
    ((s.modUnit c u g).unitRun d v).map π = (s.unitRun d v).map π := by
  by_cases hd : d = c
  · subst hd
    rw [unitRun_modUnit_any s d u v g hg, Option.map_map]
    congr 1
    funext x
    simp only [Function.comp]
    split <;> simp [hπ]
  · have hctx : (s.modUnit c u g).ctx d = s.ctx d := State.ctx_setCtx_other _ _ _ _ hd
    rw [State.unitRun, hctx, State.unitRun]

/-! ### A core's choice (R140) -/

/-- What a core's choice does: nothing, or counts of decisions passed over in some units and then the core's own choice. -/
theorem schedule_cases (s : State) (k : Nat) :
    s.schedule k = s ∨ ∃ (l : List Ready) (n : Ready → UnitRun → Nat) (i : Option (Nat × Nat)),
      s.schedule k = (l.foldl (fun t y => t.modUnit y.ctx y.unit fun x => { x with passes := n y x }) s).modCore k fun y =>
        { y with issuing := i } := by
  unfold State.schedule
  split
  · exact .inl rfl
  · split
    · split
      · exact .inl rfl
      · exact .inr ⟨[], fun _ _ => 0, none, rfl⟩
    · next y _ =>
      exact .inr ⟨s.readyOn k, fun z x => if z.ctx = y.ctx ∧ z.unit = y.unit then 0 else x.passes + 1, some (y.ctx, y.unit), rfl⟩

/-- What a core's choice keeps: whatever counts of decisions and the choice of any core leave. -/
theorem schedule_induction {P : State → Prop} (s : State) (k : Nat) (h : P s)
    (hpass : ∀ t c u (n : UnitRun → Nat), P t → P (t.modUnit c u fun x => { x with passes := n x }))
    (hissue : ∀ t i, P t → P (t.modCore k fun y => { y with issuing := i })) : P (s.schedule k) := by
  rcases schedule_cases s k with heq | ⟨l, n, i, heq⟩ <;> rw [heq]
  · exact h
  · exact hissue _ _ (List.foldlRecOn (motive := P) _ _ h fun t ht y _ => hpass t _ _ _ ht)

theorem schedule_unitRun_map {α : Type} (s : State) (k : Nat) (π : UnitRun → α) (hπ : ∀ x n, π { x with passes := n } = π x)
    (c u : Nat) : ((s.schedule k).unitRun c u).map π = (s.unitRun c u).map π := by
  refine schedule_induction (P := fun t => (t.unitRun c u).map π = (s.unitRun c u).map π) s k rfl ?_ ?_
  · intro t d v n ht
    exact (unitRun_modUnit_map t d v _ π (by intro; rfl) (by intro; exact hπ _ _) c u).trans ht
  · intro t i ht
    exact ht

theorem schedule_core {α : Type} (s : State) (k : Nat) (π : Core → α) (hπ : ∀ x i, π { x with issuing := i } = π x) (j : Nat) :
    π ((s.schedule k).core j) = π (s.core j) := by
  refine schedule_induction (P := fun t => π (t.core j) = π (s.core j)) s k rfl ?_ ?_
  · intro t d v n ht
    exact ht
  · intro t i ht
    by_cases hj : j = k
    · subst hj; rw [State.modCore_eq, State.core_setCore, hπ, ht]
    · rw [State.modCore_eq, State.core_setCore_other _ _ _ _ hj, ht]

/-! ### A wait and its end -/

theorem block_unitRun_map {α : Type} (s : State) (c : Nat) (x : UnitRun) (b : Blocked) (π : UnitRun → α)
    (hπ : ∀ y n, π { y with passes := n } = π y) :
    ((s.block c x b).unitRun c x.unit).map π = (s.unitRun c x.unit).map fun y => π { y with blocked := some b } := by
  have hmod : ((s.modUnit c x.unit fun y => { y with blocked := some b }).unitRun c x.unit).map π =
      (s.unitRun c x.unit).map fun y => π { y with blocked := some b } := by
    exact (congrArg (Option.map π) (unitRun_modUnit s c x.unit _ (by intro; rfl))).trans (Option.map_map _ _ _)
  unfold State.block
  dsimp only
  split
  · rw [schedule_unitRun_map _ _ π hπ, hmod]
  · exact hmod

theorem unblock_unitRun_map {α : Type} (s : State) (c : Nat) (x : UnitRun) (g : UnitRun → UnitRun)
    (hg : ∀ y, (g y).unit = y.unit) (π : UnitRun → α) (hπ : ∀ y n, π { y with passes := n } = π y) :
    ((s.unblock c x g).unitRun c x.unit).map π = (s.unitRun c x.unit).map fun y => π (g { y with blocked := none }) := by
  have hmod : ((s.modUnit c x.unit fun y => g { y with blocked := none }).unitRun c x.unit).map π =
      (s.unitRun c x.unit).map fun y => π (g { y with blocked := none }) := by
    exact (congrArg (Option.map π) (unitRun_modUnit s c x.unit _ (by intro; exact hg _))).trans (Option.map_map _ _ _)
  unfold State.unblock
  dsimp only
  split
  · rw [schedule_unitRun_map _ _ π hπ, hmod]
  · exact hmod

theorem unblock_cache (s : State) (c : Nat) (x : UnitRun) (g : UnitRun → UnitRun) (k : Nat) :
    ((s.unblock c x g).core k).cache = (s.core k).cache := by
  unfold State.unblock
  dsimp only
  split
  · exact schedule_core _ _ (fun y => y.cache) (fun _ _ => rfl) k
  · rfl

end Sys2Proof.Machine
end

section
/-!
Reach loads, tally waits and unit ends: a fill keeps a cache within its ways, and what each of the four commands leaves of
its unit (R169, R228, R230, R232, R269, R295).
-/
namespace Sys2Proof.Machine
open Sys2Proof

/-! ### A fill of a read cache (Table 6.3) -/

/-- One entry written adds at most itself to the entries whose keys meet a test. -/
theorem Tab.length_filter_put_le {α : Type} (p : Nat → Bool) (t : Tab α) (a : Nat) (x : α) :
    ((Tab.put t a x).filter fun q => p q.1).length ≤ (t.filter fun q => p q.1).length + (if p a then 1 else 0) := by
  induction t with
  | nil => cases h : p a <;> simp [Tab.put, h]
  | cons q r ih =>
    obtain ⟨k, v⟩ := q
    simp only [Tab.put]
    split
    · next hk => subst hk; cases h : p k <;> simp [h]
    · split
      · cases h : p a <;> simp [h]
      · cases h : p k <;> simp [h] <;> omega

/-- A key listed among those that meet a test: its removal leaves fewer of them. -/
theorem Tab.length_filter_erase_lt {α : Type} (p : Nat → Bool) (t : Tab α) (q : Nat × α) (hq : q ∈ t) (hp : p q.1 = true) :
    ((Tab.erase t q.1).filter fun y => p y.1).length < (t.filter fun y => p y.1).length := by
  have hmem : q ∈ t.filter fun y => p y.1 := List.mem_filter.mpr ⟨hq, hp⟩
  have hcomm : (Tab.erase t q.1).filter (fun y => p y.1) = (t.filter fun y => p y.1).filter fun y => y.1 ≠ q.1 := by
    simp only [Tab.erase, List.filter_filter, Bool.and_comm]
  rw [hcomm]
  exact List.length_filter_lt_length_iff_exists.mpr ⟨q, hmem, by simp⟩

theorem Tab.length_filter_erase_le {α : Type} (p : Nat → Bool) (t : Tab α) (a : Nat) :
    ((Tab.erase t a).filter fun y => p y.1).length ≤ (t.filter fun y => p y.1).length :=
  (List.filter_sublist.filter _).length_le

/-- Two granules lie in one set of a cache. -/
def sameSet (h : CacheShape) (g k : Nat) : Bool := Config.cacheSet k % h.sets == Config.cacheSet g % h.sets

theorem Cache.sharing_eq (x : Cache) (h : CacheShape) (g : Nat) : x.sharing h g = x.lines.filter fun q => sameSet h g q.1 := rfl

/-- Granules of one set share the same lines. -/
theorem Cache.sharing_congr (x : Cache) (h : CacheShape) {g k : Nat} (hset : sameSet h g k = true) :
    x.sharing h g = x.sharing h k := by
  have hk : Config.cacheSet k % h.sets = Config.cacheSet g % h.sets := by simpa [sameSet] using hset
  simp only [Cache.sharing, hk]

/-- The line that gives way to a fill, where the granule's set is full: `y` is the cache without the granule's own line. -/
def Cache.victim (y : Cache) (h : CacheShape) (free g : Nat) : Option (Nat × List Byte) :=
  if (y.sharing h g).length < h.ways then none
  else (y.sharing h g)[Config.victim free g % (y.sharing h g).length]?

theorem Cache.fill_eq (x : Cache) (h : CacheShape) (free g : Nat) (d : List Byte) : x.fill h free g d =
    match (Cache.mk (Tab.erase x.lines g)).victim h free g with
    | some v => { lines := Tab.put (Tab.erase (Tab.erase x.lines g) v.1) g d }
    | none => { lines := Tab.put (Tab.erase x.lines g) g d } := rfl

theorem Cache.find?_fill (x : Cache) (h : CacheShape) (free g : Nat) (d : List Byte) :
    Tab.find? (x.fill h free g d).lines g = some d := by
  rw [Cache.fill_eq]
  split <;> simp

/-- A victim is a line of the set that it makes room in. -/
theorem Cache.victim_mem {y : Cache} {h : CacheShape} {free g : Nat} {v : Nat × List Byte} (hv : y.victim h free g = some v) :
    v ∈ y.lines ∧ sameSet h g v.1 = true := by
  unfold Cache.victim at hv
  split at hv
  · cases hv
  · exact List.mem_filter.mp (List.mem_of_getElem? hv)

/-- Without a victim the set has room, ways being at least one. -/
theorem Cache.length_sharing_of_no_victim {y : Cache} {h : CacheShape} {free g : Nat} (hways : 0 < h.ways)
    (hv : y.victim h free g = none) : (y.sharing h g).length < h.ways := by
  rcases Nat.lt_or_ge (y.sharing h g).length h.ways with hroom | hfull
  · exact hroom
  · have hindex : Config.victim free g % (y.sharing h g).length < (y.sharing h g).length := Nat.mod_lt _ (by omega)
    rw [Cache.victim, if_neg (by omega), List.getElem?_eq_none_iff] at hv
    omega

/-- A line kept in a set that has room leaves every set within its ways. -/
theorem Cache.length_sharing_put_le {t : Tab (List Byte)} {h : CacheShape} {g : Nat} (d : List Byte)
    (hle : ∀ k, ((Cache.mk t).sharing h k).length ≤ h.ways) (hroom : ((Cache.mk t).sharing h g).length < h.ways) (k : Nat) :
    ((Cache.mk (Tab.put t g d)).sharing h k).length ≤ h.ways := by
  have hput : ((Cache.mk (Tab.put t g d)).sharing h k).length ≤
      ((Cache.mk t).sharing h k).length + if sameSet h k g then 1 else 0 := Tab.length_filter_put_le (sameSet h k) t g d
  have hk := hle k
  cases hset : sameSet h k g with
  | false =>
    rw [hset, if_neg Bool.false_ne_true] at hput
    omega
  | true =>
    rw [hset, if_pos rfl, Cache.sharing_congr (Cache.mk t) h hset] at hput
    omega

/-- A fill keeps every set within the cache's ways. -/
theorem Cache.length_sharing_fill_le (x : Cache) (h : CacheShape) (free g : Nat) (d : List Byte) (hways : 0 < h.ways)
    (hx : ∀ k, (x.sharing h k).length ≤ h.ways) (k : Nat) : ((x.fill h free g d).sharing h k).length ≤ h.ways := by
  have herase : ∀ j, ((Cache.mk (Tab.erase x.lines g)).sharing h j).length ≤ h.ways := fun j =>
    Nat.le_trans (Tab.length_filter_erase_le (sameSet h j) _ _) (hx j)
  rw [Cache.fill_eq]
  cases hv : (Cache.mk (Tab.erase x.lines g)).victim h free g with
  | some v =>
    obtain ⟨hmem, hset⟩ := Cache.victim_mem hv
    exact Cache.length_sharing_put_le d (fun j => Nat.le_trans (Tab.length_filter_erase_le (sameSet h j) _ _) (herase j))
      (Nat.lt_of_lt_of_le (Tab.length_filter_erase_lt (sameSet h g) _ v hmem hset) (herase g)) k
  | none => exact Cache.length_sharing_put_le d herase (Cache.length_sharing_of_no_victim hways hv) k

/-! ### Loads -/

section
variable {s : State} {c u : Nat} {f : Frame} {r : FrameRun} {x : UnitRun} (a len : Nat) (ue : UeList)

/-- A core whose line of an address is dropped, a free value taken for the choice to miss. -/
def State.missed (s : State) (k a : Nat) : State :=
  s.takeFree.modCore k fun y => { y with cache := y.cache.dropLine (granule a) }

/-- A core whose cache keeps the line of an address as memory has it. -/
def State.filled (s : State) (k a : Nat) : State :=
  s.takeFree.modCore k fun y => { y with cache := y.cache.fill coreCache s.freeCount (granule a) (s.peek (granule a) 64) }

section
variable (hissue : s.issuer? c u = some (f, r, x)) (hkind : x.kind = 0) (hok : loadOk a len = true)
  (hcad : s.cadDenied (0x10 + s.ctxOwner c) a len false = none)
include hissue hkind hok hcad

theorem exec_reachLoad_volatile (hgood : s.badGranule ue (granules a len) = none) : exec (.reachLoad c u a len true ue) s =
    .next (s.modUnit c u fun y => { y with data := s.peek a len }) := by
  simp [exec, execReachLoad, hissue, hkind, hok, hcad, hgood]

theorem exec_reachLoad_miss (hmiss : Tab.find? (s.core x.place).cache.lines (granule a) = none) :
    exec (.reachLoad c u a len false ue) s = .next ((s.missed x.place a).block c x (.load a len true)) := by
  simp [exec, execReachLoad, hissue, hkind, hok, hcad, hmiss, State.missed]

end

theorem exec_reachLoadReturn (keep : Bool) (hwait : s.waiter? c u = some (f, r, x)) (hload : x.blocked = some (.load a len keep))
    (hgood : s.badGranule ue (granules a len) = none) : exec (.reachLoadReturn c u ue) s =
    .next ((if keep then s.filled x.place a else s).unblock c x fun y => { y with data := s.peek a len }) := by
  simp only [exec, execReachLoadReturn, hwait, hload, hgood]
  rfl

theorem missed_ctxs (s : State) (k a : Nat) : (s.missed k a).hrd.ctxs = s.hrd.ctxs := rfl

theorem missed_keeps (s : State) (k a : Nat) : Keeps [.hrd, .freeCount] s (s.missed k a) :=
  ((takeFree_keeps s).mono (by simp)).trans' ((modCore_keeps _ _ _).mono (by simp))

theorem filled_keeps (s : State) (k a : Nat) : Keeps [.hrd, .freeCount] s (s.filled k a) :=
  ((takeFree_keeps s).mono (by simp)).trans' ((modCore_keeps _ _ _).mono (by simp))

theorem filled_line (s : State) (k a : Nat) :
    Tab.find? ((s.filled k a).core k).cache.lines (granule a) = some (s.peek (granule a) 64) := by
  rw [State.filled, State.modCore_eq, State.core_setCore, Cache.find?_fill]

end

/-! ### Waits, tallies and the end of a unit -/

section
variable {s : State} {c u : Nat} {f : Frame} {r : FrameRun} {x : UnitRun}

/-- A unit that begins to wait is read back waiting. -/
theorem RunsUnit.block {t : State} (h : RunsUnit s c u f r x) (hsame : t.unitRun c u = s.unitRun c u) (b : Blocked) :
    ((t.block c x b).unitRun c u).map (fun y => y.blocked) = some (some b) := by
  have hunit := block_unitRun_map t c x b (fun y => y.blocked) fun _ _ => rfl
  rw [h.unit, hsame, h.unitRun] at hunit
  exact hunit

/-- A unit whose wait ends is read back as changed, but for its count of decisions passed over. -/
theorem RunsUnit.unblock {α : Type} {t : State} (h : RunsUnit s c u f r x) (hsame : t.unitRun c u = s.unitRun c u)
    (g : UnitRun → UnitRun) (hg : ∀ y, (g y).unit = y.unit) (π : UnitRun → α) (hπ : ∀ y n, π { y with passes := n } = π y) :
    ((t.unblock c x g).unitRun c u).map π = some (π (g { x with blocked := none })) := by
  have hunit := unblock_unitRun_map t c x g hg π hπ
  rw [h.unit, hsame, h.unitRun] at hunit
  exact hunit

/-- A changed unit is read back changed. -/
theorem RunsUnit.modUnit {t : State} (h : RunsUnit s c u f r x) (hsame : t.unitRun c u = s.unitRun c u) (g : UnitRun → UnitRun)
    (hg : ∀ y, (g y).unit = y.unit) : (t.modUnit c u g).unitRun c u = some (g x) := by
  rw [unitRun_modUnit t c u g hg, hsame, h.unitRun, Option.map_some]

theorem instTally_unitRun (s : State) (c n d u : Nat) : (s.instTally c n).2.unitRun d u = s.unitRun d u := by
  unfold State.instTally
  split
  · rfl
  · by_cases hd : d = c
    · subst hd; simp [State.unitRun, Ctx.running, State.ctx]
    · exact congrArg (fun y : Ctx => y.running.bind fun q => q.2.units.find? fun z => z.unit == u)
        (State.ctx_setCtx_other s c d _ hd)

theorem instTally_keeps (s : State) (c n : Nat) : Keeps [.hrd, .mem] s (s.instTally c n).2 := by
  unfold State.instTally
  split
  · exact Keeps.rfl' _ _
  · intro p hp; cases p <;> simp_all [Part.same]

/-- A wait on a tally goes on where its target is reached, and begins else. -/
theorem exec_tallyWait {n : Nat} (target : Word) (hissue : s.issuer? c u = some (f, r, x)) (hkind : x.kind = 0) (hn : n < 256) :
    exec (.tallyWait c u n target) s = .next (if reached ((s.instTally c n).2.tally (s.instTally c n).1) target then
      (s.instTally c n).2 else (s.instTally c n).2.block c x (.tally (s.instTally c n).1 target)) := by
  simp only [exec, execTallyWait, hissue]
  rw [if_neg (by omega)]
  split <;> rfl

theorem exec_tallyWaitRelease {k : Nat} {target : Word} (hwait : s.waiter? c u = some (f, r, x))
    (htally : x.blocked = some (.tally k target)) : exec (.tallyWaitRelease c u) s =
    .next (if reached (s.tally k) target then s.unblock c x fun y => y else s) := by
  simp only [exec, execTallyWaitRelease, hwait, htally]

theorem exec_unitEnd_core (hissue : s.issuer? c u = some (f, r, x)) (hkind : x.kind = 0) :
    exec (.unitEnd c u) s = .next ((s.modUnit c u fun y => { y with ended := true }).schedule x.place) := by
  obtain ⟨hrun, -, -⟩ := issuer?_runs hissue
  simp only [exec, execUnitEnd, hrun.running, hrun.found, hkind, hissue, if_true]

theorem exec_unitEnd_engine (hissue : s.issuer? c u = some (f, r, x)) (hkind : x.kind ≠ 0)
    (hdone : s.engineDone c f r x = true) :
    exec (.unitEnd c u) s = .next (s.modUnit c u fun y => { y with ended := true, blocked := none }) := by
  obtain ⟨hrun, hended, -⟩ := issuer?_runs hissue
  simp [exec, execUnitEnd, hrun.running, hrun.found, hkind, hrun.alive, hrun.kept, hended, hdone]

end

/-! ### The obligation, clause by clause -/

section
variable {s : State} {c u : Nat} {f : Frame} {r : FrameRun} {x : UnitRun}

theorem reachLoad_volatile_answers (a len : Nat) (ue : UeList) (hissue : s.issuer? c u = some (f, r, x)) (hkind : x.kind = 0)
    (hok : loadOk a len = true) (hcad : s.cadDenied (0x10 + s.ctxOwner c) a len false = none)
    (hgood : s.badGranule ue (granules a len) = none) :
    ∃ t, exec (.reachLoad c u a len true ue) s = .next t ∧ (t.unitRun c u).map (fun y => y.data) = some (s.peek a len) ∧
      Keeps [.hrd] s t := by
  refine ⟨_, exec_reachLoad_volatile a len ue hissue hkind hok hcad hgood, ?_, modUnit_keeps _ _ _ _⟩
  rw [(issuer?_runs hissue).1.modUnit rfl _ (by intro; rfl), Option.map_some]

theorem reachLoad_miss_waits (a len : Nat) (ue : UeList) (hissue : s.issuer? c u = some (f, r, x)) (hkind : x.kind = 0)
    (hok : loadOk a len = true) (hcad : s.cadDenied (0x10 + s.ctxOwner c) a len false = none)
    (hmiss : Tab.find? (s.core x.place).cache.lines (granule a) = none) :
    ∃ t, exec (.reachLoad c u a len false ue) s = .next t ∧
      (t.unitRun c u).map (fun y => y.blocked) = some (some (.load a len true)) ∧ Keeps [.hrd, .freeCount] s t :=
  ⟨_, exec_reachLoad_miss a len ue hissue hkind hok hcad hmiss,
    (issuer?_runs hissue).1.block (State.unitRun_congr (missed_ctxs _ _ _) _ _) _,
    (missed_keeps _ _ _).trans' ((block_keeps _ _ _ _).mono (by simp))⟩

theorem reachLoadReturn_answers (a len : Nat) (keep : Bool) (ue : UeList) (hwait : s.waiter? c u = some (f, r, x))
    (hload : x.blocked = some (.load a len keep)) (hgood : s.badGranule ue (granules a len) = none) :
    ∃ t, exec (.reachLoadReturn c u ue) s = .next t ∧ (t.unitRun c u).map (fun y => y.data) = some (s.peek a len) ∧
      (t.unitRun c u).map (fun y => y.blocked) = some none ∧
      (keep = true → Tab.find? (t.core x.place).cache.lines (granule a) = some (s.peek (granule a) 64)) ∧
      Keeps [.hrd, .freeCount] s t := by
  have hrun := waiter?_runs hwait
  have hsame : (if keep then s.filled x.place a else s).unitRun c u = s.unitRun c u := by cases keep <;> rfl
  have hfill : Keeps [.hrd, .freeCount] s (if keep then s.filled x.place a else s) := by
    cases keep
    · exact Keeps.rfl' _ _
    · exact filled_keeps _ _ _
  refine ⟨_, exec_reachLoadReturn a len ue keep hwait hload hgood,
    hrun.unblock hsame _ (by intro; rfl) (fun y => y.data) (fun _ _ => rfl),
    hrun.unblock hsame _ (by intro; rfl) (fun y => y.blocked) (fun _ _ => rfl), fun hkeep => ?_,
    hfill.trans' ((unblock_keeps _ _ _ _).mono (by simp))⟩
  rw [unblock_cache, hkeep, if_pos rfl, filled_line]

theorem tallyWait_by_target (n : Nat) (target : Word) (hissue : s.issuer? c u = some (f, r, x)) (hkind : x.kind = 0)
    (hn : n < 256) :
    ∃ t, exec (.tallyWait c u n target) s = .next t ∧
      (t.unitRun c u).map (fun y => y.blocked) = some
        (if reached ((s.instTally c n).2.tally (s.instTally c n).1) target then none
          else some (.tally (s.instTally c n).1 target)) ∧ Keeps [.hrd, .mem] s t := by
  obtain ⟨hrun, -, hfree⟩ := issuer?_runs hissue
  refine ⟨_, exec_tallyWait target hissue hkind hn, ?_⟩
  split
  · rw [instTally_unitRun, hrun.unitRun, Option.map_some, hfree]
    exact ⟨rfl, instTally_keeps _ _ _⟩
  · exact ⟨hrun.block (instTally_unitRun _ _ _ _ _) _,
      (instTally_keeps _ _ _).trans' ((block_keeps _ _ _ _).mono (by simp))⟩

theorem tallyWaitRelease_goes_on (k : Nat) (target : Word) (hwait : s.waiter? c u = some (f, r, x))
    (htally : x.blocked = some (.tally k target)) (hreach : reached (s.tally k) target = true) :
    ∃ t, exec (.tallyWaitRelease c u) s = .next t ∧ (t.unitRun c u).map (fun y => y.blocked) = some none ∧
      Keeps [.hrd] s t := by
  refine ⟨_, exec_tallyWaitRelease hwait htally, ?_⟩
  rw [if_pos hreach]
  exact ⟨(waiter?_runs hwait).unblock rfl _ (by intro; rfl) (fun y => y.blocked) (fun _ _ => rfl), unblock_keeps _ _ _ _⟩

theorem unitEnd_ends (hissue : s.issuer? c u = some (f, r, x)) (hdone : x.kind = 0 ∨ s.engineDone c f r x = true) :
    ∃ t, exec (.unitEnd c u) s = .next t ∧ (t.unitRun c u).map (fun y => y.ended) = some true ∧ Keeps [.hrd] s t := by
  have hrun := (issuer?_runs hissue).1
  by_cases hkind : x.kind = 0
  · refine ⟨_, exec_unitEnd_core hissue hkind, ?_, (modUnit_keeps _ _ _ _).trans' (schedule_keeps _ _)⟩
    rw [schedule_unitRun_map _ _ (fun y => y.ended) (fun _ _ => rfl), hrun.modUnit rfl _ (by intro; rfl), Option.map_some]
  · refine ⟨_, exec_unitEnd_engine hissue hkind (hdone.resolve_left hkind), ?_, modUnit_keeps _ _ _ _⟩
    rw [hrun.modUnit rfl _ (by intro; rfl), Option.map_some]

end

/-- Settles O23: a fill stays within the ways because a full set first gives up one of its lines; each command is followed to
its unit, whose wait, data or end a core's next choice leaves. -/
theorem loadsAndWaitsOfUnits : Obligations.LoadsAndWaitsOfUnits := by
  refine ⟨fun x h free g d hshape hx => ⟨x.find?_fill h free g d, x.length_sharing_fill_le h free g d ?_ hx⟩, fun s c u => ?_⟩
  · rcases hshape with rfl | rfl <;> decide
  refine ⟨fun f r x a len ue hissue hkind hok hcad => ⟨?_, ?_⟩, fun f r x a len keep ue => reachLoadReturn_answers a len keep ue,
    fun f r x n target hissue hkind hn => ?_, fun f r x k target hwait htally => ⟨?_, fun hreach => ?_⟩,
    fun f r x => unitEnd_ends⟩
  · exact reachLoad_volatile_answers a len ue hissue hkind hok hcad
  · exact reachLoad_miss_waits a len ue hissue hkind hok hcad
  · obtain ⟨t, hexec, hblocked, hkeeps⟩ := tallyWait_by_target n target hissue hkind hn
    exact ⟨fun hreach => ⟨t, hexec, by rw [hblocked, if_pos hreach], hkeeps⟩,
      fun hreach => ⟨t, hexec, by rw [hblocked, hreach, if_neg Bool.false_ne_true], hkeeps⟩⟩
  · exact tallyWaitRelease_goes_on k target hwait htally
  · rw [exec_tallyWaitRelease hwait htally, hreach, if_neg Bool.false_ne_true]

end Sys2Proof.Machine
end

section
/-!
Vector, function and row units: a result put in a working region, and what each of these instructions puts there (R148,
R183, R195 to R208, R210).
-/
namespace Sys2Proof.Machine
open Sys2Proof

/-! ### A result in the working region -/

/-- A write of tile memory writes its bytes and nothing else of memory. -/
theorem writeTile_writesTile (s t : State) (a : Nat) (d : List Byte) (h : t.mem = s.mem) : WritesTile s (t.writeTile a d) a d := by
  have hmem : (t.writeTile a d).mem = { s.mem with tile := writeBytes s.mem.tile a d } := by rw [State.writeTile, h]
  rw [WritesTile, hmem]
  exact ⟨rfl, fun hwf => readBytes_writeBytes_same _ _ _ ((Mem.wf_iff _).mp hwf).2, fun b hb => readByte_writeBytes_other _ _ hb⟩

/-- A result put in a working region is written there, or nowhere where it would leave the region. -/
theorem putTile_writesRegion (s t : State) (x : UnitRun) (dst : Nat) (d : List Byte) (h : t.mem = s.mem) :
    WritesRegion s (t.putTile x dst d) x dst d := by
  unfold WritesRegion State.putTile
  split
  · exact writeTile_writesTile s t _ d h
  · exact h

theorem putTile_keeps (s : State) (x : UnitRun) (dst : Nat) (d : List Byte) : Keeps [.mem] s (s.putTile x dst d) := by
  unfold State.putTile
  split
  · intro p hp; cases p <;> simp_all [Part.same, State.writeTile]
  · exact Keeps.rfl' _ _

/-- An instruction that takes a free value and puts a result in the working region. -/
theorem putResult_effect (s : State) (x : UnitRun) (dst : Nat) (d : List Byte) :
    WritesRegion s (s.takeFree.putTile x dst d) x dst d ∧ Keeps [.mem, .freeCount] s (s.takeFree.putTile x dst d) :=
  ⟨putTile_writesRegion s s.takeFree x dst d rfl,
    ((takeFree_keeps s).mono (by simp)).trans' ((putTile_keeps _ _ _ _).mono (by simp))⟩

section
variable {s : State} {c u : Nat} {f : Frame} {r : FrameRun} {x : UnitRun} (hissue : s.coreIssuer? c u = some (f, r, x))
include hissue

/-! ### The vector unit and the function unit -/

theorem exec_vectorOp (v : VecArgs) (d : List Byte) (hbytes : vectorBytes s x (s.ctx c).key f.no v = some d) :
    exec (.vectorOp c u v) s = .next (s.takeFree.putTile x v.dst d) := by
  simp only [exec, execVectorOp, hissue, hbytes]

theorem exec_functionUnitEval (fu : FuFn) (fmt n outFmt dst : Nat) (src : Src) (hin : (fmtOf fmt).isSome = true)
    (hout : (fmtOf outFmt).isSome = true) : exec (.functionUnitEval c u fu fmt n src outFmt dst) s =
    .next (s.takeFree.putTile x dst (packPatterns outFmt ((List.range n).map fun i =>
      fuEval fu fmt (elemPattern fmt (s.operand x src (elemBytes fmt n)) i) outFmt s.fuses.fuRev.toNat r.tier))) := by
  have hfmts : ((fmtOf fmt).isNone || (fmtOf outFmt).isNone) = false := by
    rw [← Option.not_isSome, ← Option.not_isSome, hin, hout]; rfl
  simp only [exec, execFunctionUnitEval, hissue, hfmts, Bool.false_eq_true, if_false, State.fu]

/-! ### The row instructions -/

/-- A row instruction on formats that exist and a length in range puts its output in the working region (R210). -/
theorem rowOp_of_ok (a : RowArgs) (fmtsOk : Bool) (out : FrameRun → UnitRun → List Byte) (hfmts : fmtsOk = true)
    (hpos : 1 ≤ a.n) (hlen : a.n ≤ 2 ^ 24) : rowOp c u a fmtsOk out s = .next (s.takeFree.putTile x a.dst (out r x)) := by
  have hok : rowLenOk a.n = true := by rw [rowLenOk, decide_eq_true hpos, decide_eq_true hlen]; rfl
  simp only [rowOp, hissue, hfmts, hok, Bool.not_true, Bool.false_eq_true, if_false]

theorem exec_rowPartialMerge (p q : Src) (dst : Nat) (d : List Byte)
    (hmerge : mergeRowPartials (s.operand x p 16) (s.operand x q 16) = some d) :
    exec (.rowPartialMerge c u p q dst) s = .next (s.takeFree.putTile x dst d) := by
  simp only [exec, execRowPartialMerge, hissue, hmerge]

section
variable (a : RowArgs) (hpos : 1 ≤ a.n) (hlen : a.n ≤ 2 ^ 24)
include hpos hlen

theorem exec_rowReduce (hin : (fmtOf a.fmt).isSome = true) (hout : outFmtOk a.outFmt = true) :
    exec (.rowReduce c u a) s =
      .next (s.takeFree.putTile x a.dst (rowOut a.outFmt [(reduceRow 1 a (rowElems s x a)).a])) :=
  rowOp_of_ok hissue a _ _ (by rw [hin, hout]; rfl) hpos hlen

theorem exec_softMaximum (g : Fmt) (hin : (vectorFmt a.fmt).isSome = true) (hout : fmtOf a.outFmt = some g) :
    exec (.softMaximum c u a) s =
      .next (s.takeFree.putTile x a.dst (packPatterns a.outFmt (softPatterns s r.tier a g (rowElems s x a)))) := by
  rw [show g = (fmtOf a.outFmt).getD fp32 by rw [hout, Option.getD_some]]
  exact rowOp_of_ok hissue a _ _ (by rw [hin, hout]; rfl) hpos hlen

theorem exec_normalisation (g : NormArgs) (hin : (fmtOf a.fmt).isSome = true) (hout : outFmtOk a.outFmt = true) :
    exec (.normalisation c u a g) s =
      .next (s.takeFree.putTile x a.dst (rowOut a.outFmt (normValues s r.tier a g (rowElems s x a)))) :=
  rowOp_of_ok hissue a _ _ (by rw [hin, hout]; rfl) hpos hlen

theorem exec_rowPartialEmit (e : EmitArgs) (hin : (fmtOf a.fmt).isSome = true) (hlo : 1 ≤ e.kind) (hhi : e.kind ≤ 3) :
    exec (.rowPartialEmit c u a e) s = .next (s.takeFree.putTile x a.dst (emitBytes a e (emitElems s x a e))) :=
  rowOp_of_ok hissue a _ _ (by rw [hin, decide_eq_true hlo, decide_eq_true hhi]; rfl) hpos hlen

end

end

/-- Addition, subtraction and multiplication round the exact result once to the operation's format (R148). -/
theorem vectorBytes_arithmetic (s : State) (x : UnitRun) (key : DWord) (frame : Nat) (v : VecArgs) (g : Fmt)
    (hop : v.op = .add ∨ v.op = .sub ∨ v.op = .mul) (hfmt : vectorFmt v.fmt = some g) :
    vectorBytes s x key frame v = some (packPatterns v.fmt ((List.range v.n).map fun i =>
      let a := elemAt v.fmt (s.operand x v.a (elemBytes v.fmt v.n)) i
      let b := elemAt v.fmt (s.operand x v.b (elemBytes v.fmt v.n)) i
      g.round (if v.op = .add then a.add b else if v.op = .sub then a.add b.neg else a.mul b))) := by
  rcases hop with h | h | h <;> simp [vectorBytes, h, hfmt, vectorElem]

/-- Settles O22: each instruction's equation names the bytes it puts, and a result put in a working region writes those and
no other byte. -/
theorem vectorFunctionAndRowUnitsWrite : Obligations.VectorFunctionAndRowUnitsWrite := by
  refine ⟨fun s c u f r x hissue => ⟨fun v d hbytes => ?_, fun v g hop hfmt => ?_, fun fu fmt n outFmt dst src hin hout => ?_⟩,
    fun s c u f r x hissue => ⟨fun a hpos hlen hin hout => ?_, fun a g hpos hlen hin hout => ?_,
      fun a g hpos hlen hin hout => ?_, fun a e hpos hlen hin hlo hhi => ?_, fun p q dst d hmerge => ?_⟩⟩
  · exact ⟨_, exec_vectorOp hissue v d hbytes, putResult_effect s x _ _⟩
  · exact vectorBytes_arithmetic s x _ _ v g hop hfmt
  · exact ⟨_, exec_functionUnitEval hissue fu fmt n outFmt dst src hin hout, putResult_effect s x _ _⟩
  · exact ⟨_, exec_rowReduce hissue a hpos hlen hin hout, putResult_effect s x _ _⟩
  · exact ⟨_, exec_softMaximum hissue a hpos hlen g hin hout, putResult_effect s x _ _⟩
  · exact ⟨_, exec_normalisation hissue a hpos hlen g hin hout, putResult_effect s x _ _⟩
  · exact ⟨_, exec_rowPartialEmit hissue a hpos hlen e hin hlo hhi, putResult_effect s x _ _⟩
  · exact ⟨_, exec_rowPartialMerge hissue p q dst d hmerge, putResult_effect s x _ _⟩

end Sys2Proof.Machine
end

section
/-!
The Grid: the accumulations of an operation read back from their unit, its epilogue's output, and partials sent out
and merged (R150 to R160, Table 4.6).
-/
namespace Sys2Proof.Machine
open Sys2Proof

/-- The table with a list's entries written in a row, the first at key `base + k`. -/
def Tab.putFrom {α : Type} (base k : Nat) (t : Tab α) (as : List α) : Tab α :=
  ((List.range' k as.length).zip as).foldl (fun m p => Tab.put m (base + p.1) p.2) t

theorem Tab.putFrom_cons {α : Type} (base k : Nat) (t : Tab α) (a : α) (as : List α) :
    Tab.putFrom base k t (a :: as) = Tab.putFrom base (k + 1) (Tab.put t (base + k) a) as := rfl

/-- Entries written from a key on leave those before it. -/
theorem Tab.find?_putFrom_below {α : Type} (base k : Nat) (t : Tab α) (as : List α) (b : Nat) (hb : b < base + k) :
    Tab.find? (Tab.putFrom base k t as) b = Tab.find? t b := by
  induction as generalizing k t with
  | nil => rfl
  | cons a as ih => rw [Tab.putFrom_cons, ih (k + 1) _ (by omega), Tab.find?_put_other _ _ _ _ (by omega)]

/-- Entries written in a row are read back each at its own key. -/
theorem Tab.find?_putFrom {α : Type} (base k : Nat) (t : Tab α) (as : List α) (i : Nat) (hi : i < as.length) :
    Tab.find? (Tab.putFrom base k t as) (base + (k + i)) = as[i]? := by
  induction as generalizing k t i with
  | nil => exact absurd hi (Nat.not_lt_zero i)
  | cons a as ih =>
    rw [Tab.putFrom_cons]
    cases i with
    | zero => exact (Tab.find?_putFrom_below base (k + 1) _ as _ (by omega)).trans (Tab.find?_put_same _ _ _)
    | succ i =>
      rw [show base + (k + (i + 1)) = base + (k + 1 + i) by omega, ih (k + 1) _ i (Nat.lt_of_succ_lt_succ hi)]
      rfl

/-- The accumulation of an output element after a Grid operation (Table 4.6). -/
theorem gridAccs_getElem? (x : UnitRun) (g : GridArgs) (a b : List Byte) (i : Nat) (hi : i < g.m * g.n) :
    (gridAccs x g a b)[i]? =
      some ((gridStart x g i).addProducts (if g.fmtA < 0x12 then 64 else 32) (gridProducts g a b i)) := by
  simp [gridAccs, hi]

/-- A unit with the accumulations of a Grid operation, the first element's at `base`. -/
def UnitRun.withAccs (y : UnitRun) (base : Nat) (as : List Acc) : UnitRun :=
  { y with accs := ((List.range as.length).zip as).foldl (fun m p => Tab.put m (base + p.1) p.2) y.accs }

theorem UnitRun.withAccs_accs (y : UnitRun) (base : Nat) (as : List Acc) :
    (y.withAccs base as).accs = Tab.putFrom base 0 y.accs as := by
  rw [Tab.putFrom, ← List.range_eq_range']
  rfl

/-- The state a Grid operation leaves, its epilogue's output aside. -/
def State.gridDone (s : State) (c u base : Nat) (as : List Acc) : State :=
  s.takeFree.modUnit c u fun y => y.withAccs base as

/-- The epilogue's bytes over all output elements, in their order. -/
def epilogueBytes (s : State) (f : Frame) (r : FrameRun) (x : UnitRun) (key : DWord) (g : GridArgs) (e : Epilogue)
    (as : List Acc) : List Byte :=
  packPatterns (if e.int32 ∧ g.fmtA < 0x10 then 4 else e.fmt)
    (((List.range as.length).zip as).map fun p => epilogueElem s f r x key g e p.1 p.2)

theorem gridDone_keeps (s : State) (c u base : Nat) (as : List Acc) : Keeps [.hrd, .freeCount] s (s.gridDone c u base as) :=
  ((takeFree_keeps s).mono (by simp)).trans' ((modUnit_keeps _ _ _ _).mono (by simp))

section
variable {s : State} {c u : Nat} {f : Frame} {r : FrameRun} {x : UnitRun} (hissue : s.coreIssuer? c u = some (f, r, x))
include hissue

/-- A unit that issues with another accumulation table is read back with it. -/
theorem unitRun_of_coreIssuer (g : UnitRun → UnitRun) (hg : ∀ y, (g y).unit = y.unit) :
    (s.takeFree.modUnit c u g).unitRun c u = some (g x) :=
  (issuer?_runs (coreIssuer?_issues hissue).1).1.modUnit rfl g hg

theorem gridDone_acc (base : Nat) (as : List Acc) (i : Nat) (hi : i < as.length) :
    ((s.gridDone c u base as).unitRun c u).bind (fun y => Tab.find? y.accs (base + i)) = as[i]? := by
  rw [State.gridDone, unitRun_of_coreIssuer hissue _ (by intro; rfl), Option.bind_some, UnitRun.withAccs_accs]
  have hfound := Tab.find?_putFrom base 0 x.accs as i hi
  rwa [Nat.zero_add] at hfound

/-! ### What each command does -/

section
variable (g : GridArgs) (a b : List Byte) (hpair : gridPairOk g.fmtA g.fmtB = true)
  (ha : a = s.operand x g.a (elemBytes g.fmtA (g.m * g.k))) (hb : b = s.operand x g.b (elemBytes g.fmtB (g.k * g.n)))
  (hcount : ((gridAccs x g a b).any fun y => 2 ^ 24 < y.count) = false)
include hpair ha hb hcount

theorem exec_gridOp_of_no_epilogue (hepi : g.epilogue = none) :
    exec (.gridOp c u g) s = .next (s.gridDone c u g.acc (gridAccs x g a b)) := by
  subst ha hb
  simp only [exec, execGridOp, hissue, hpair, hepi, hcount, Bool.not_true, Bool.or_self, Bool.false_eq_true, if_false]
  rfl

theorem exec_gridOp_of_epilogue (e : Epilogue) (hepi : g.epilogue = some e) (hact : e.act ≤ 5)
    (hfmt : (e.int32 || outFmtOk e.fmt) = true) : exec (.gridOp c u g) s =
    .next ((s.gridDone c u g.acc (gridAccs x g a b)).putTile x e.dst
      (epilogueBytes s f r x (s.ctx c).key g e (gridAccs x g a b))) := by
  subst ha hb
  simp only [exec, execGridOp, hissue, hpair, hepi, hcount, hact, hfmt, decide_true, Bool.and_self, Bool.not_true, Bool.or_self,
    Bool.false_eq_true, if_false]
  rfl

end

theorem exec_exportPartial (acc dst : Nat) (q : Acc) (d : List Byte) (hacc : Tab.find? x.accs acc = some q)
    (hbytes : q.partialBytes = some d) : exec (.exportPartial c u acc dst) s = .next (s.putTile x dst d) := by
  simp only [exec, execExportPartial, hissue, hacc, Option.bind_some, hbytes]

theorem exec_mergePartial (acc : Nat) (src : Src) (p m : Acc) (hp : p = readPartial (s.operand x src 80))
    (hm : Tab.find? x.accs acc = none ∧ m = p ∨ ∃ q, Tab.find? x.accs acc = some q ∧ q.merge p = some m)
    (hcount : m.count ≤ 2 ^ 24) :
    exec (.mergePartial c u acc src) s =
      .next (s.takeFree.modUnit c u fun y => { y with accs := Tab.put y.accs acc m }) := by
  subst hp
  rcases hm with ⟨hnone, rfl⟩ | ⟨q, hsome, hmerge⟩
  · simp only [exec, execMergePartial, hissue, hnone]
    exact if_neg (by omega)
  · simp only [exec, execMergePartial, hissue, hsome, hmerge]
    exact if_neg (by omega)

/-! ### The obligation, clause by clause -/

theorem mergePartial_merges (acc : Nat) (src : Src) (p m : Acc) (hp : p = readPartial (s.operand x src 80))
    (hm : Tab.find? x.accs acc = none ∧ m = p ∨ ∃ q, Tab.find? x.accs acc = some q ∧ q.merge p = some m)
    (hcount : m.count ≤ 2 ^ 24) :
    ∃ t, exec (.mergePartial c u acc src) s = .next t ∧
      (t.unitRun c u).bind (fun y => Tab.find? y.accs acc) = some m ∧ Keeps [.hrd, .freeCount] s t := by
  refine ⟨_, exec_mergePartial hissue acc src p m hp hm hcount, ?_,
    ((takeFree_keeps s).mono (by simp)).trans' ((modUnit_keeps _ _ _ _).mono (by simp))⟩
  rw [unitRun_of_coreIssuer hissue _ (by intro; rfl), Option.bind_some, Tab.find?_put_same]

theorem gridOp_accumulates (g : GridArgs) (a b : List Byte) (hpair : gridPairOk g.fmtA g.fmtB = true)
    (hepi : g.epilogue = none) (ha : a = s.operand x g.a (elemBytes g.fmtA (g.m * g.k)))
    (hb : b = s.operand x g.b (elemBytes g.fmtB (g.k * g.n)))
    (hcount : ((gridAccs x g a b).any fun y => 2 ^ 24 < y.count) = false) :
    ∃ t, exec (.gridOp c u g) s = .next t ∧
      (∀ i, i < g.m * g.n → (t.unitRun c u).bind (fun y => Tab.find? y.accs (g.acc + i)) =
        some ((gridStart x g i).addProducts (if g.fmtA < 0x12 then 64 else 32) (gridProducts g a b i))) ∧
      Keeps [.hrd, .freeCount] s t := by
  refine ⟨_, exec_gridOp_of_no_epilogue hissue g a b hpair ha hb hcount hepi, fun i hi => ?_, gridDone_keeps _ _ _ _ _⟩
  rw [gridDone_acc hissue _ _ i (by simpa [gridAccs] using hi), gridAccs_getElem? x g a b i hi]

theorem gridOp_writes_epilogue (g : GridArgs) (e : Epilogue) (a b : List Byte) (hpair : gridPairOk g.fmtA g.fmtB = true)
    (hepi : g.epilogue = some e) (hact : e.act ≤ 5) (hfmt : (e.int32 || outFmtOk e.fmt) = true)
    (ha : a = s.operand x g.a (elemBytes g.fmtA (g.m * g.k))) (hb : b = s.operand x g.b (elemBytes g.fmtB (g.k * g.n)))
    (hcount : ((gridAccs x g a b).any fun y => 2 ^ 24 < y.count) = false) :
    ∃ t, exec (.gridOp c u g) s = .next t ∧
      WritesRegion s t x e.dst (epilogueBytes s f r x (s.ctx c).key g e (gridAccs x g a b)) ∧
      Keeps [.hrd, .freeCount, .mem] s t := by
  have hdone := gridDone_keeps s c u g.acc (gridAccs x g a b)
  exact ⟨_, exec_gridOp_of_epilogue hissue g a b hpair ha hb hcount e hepi hact hfmt,
    putTile_writesRegion _ _ _ _ _ (hdone .mem (by decide)),
    (hdone.mono (by simp)).trans' ((putTile_keeps _ _ _ _).mono (by simp))⟩

end

/-- Settles O20: the accumulations enter the unit's table one after another and are found there, and an epilogue or a partial
puts its bytes in the working region. -/
theorem gridAccumulates : Obligations.GridAccumulates := by
  intro s c u f r x hissue
  refine ⟨gridOp_accumulates hissue, gridOp_writes_epilogue hissue, fun acc dst v n a b d e hacc => ?_,
    mergePartial_merges hissue⟩
  exact ⟨_, exec_exportPartial hissue acc dst _ _ hacc rfl, putTile_writesRegion _ _ _ _ _ rfl, putTile_keeps _ _ _ _⟩

end Sys2Proof.Machine
end

section
/-!
Exact sums: an exact accumulation depends on no order and on no split, and its partial reads back (R151, R152, R155, R156,
R159).
-/
namespace Sys2Proof.Machine
open Sys2Proof

/-! ### Order and split (R152, R155) -/

/-- Two products may be added to an accumulation in either order: values add, and flags join by "or". -/
theorem Acc.addExact_comm (a : Acc) (p q : Fl) : (a.addExact p).addExact q = (a.addExact q).addExact p := by
  cases a with
  | int v n => rfl
  | free t n => rfl
  | exact v n nan pi ni nz =>
    rcases p with _ | (_ | _) | ⟨s, m, e⟩ <;> rcases q with _ | (_ | _) | ⟨s', m', e'⟩ <;>
      simp [Acc.addExact, Int.add_right_comm, Bool.or_right_comm]

/-- An accumulation of the exact kind. -/
def Acc.isExact : Acc → Bool
  | .exact .. => true
  | _ => false

theorem Acc.isExact_addExact {a : Acc} (p : Fl) (ha : a.isExact = true) : (a.addExact p).isExact = true := by
  cases a with
  | int v n => cases ha
  | free t n => cases ha
  | exact v n nan pi ni nz => rcases p with _ | (_ | _) | ⟨s, m, e⟩ <;> rfl

theorem Acc.isExact_foldl (ps : List Fl) {a : Acc} (ha : a.isExact = true) : (ps.foldl Acc.addExact a).isExact = true :=
  List.foldlRecOn (motive := fun y : Acc => y.isExact = true) _ _ ha fun _ hy p _ => Acc.isExact_addExact p hy

theorem Acc.addProducts_of_exact {a : Acc} (ha : a.isExact = true) (block : Nat) (ps : List Fl) :
    a.addProducts block ps = ps.foldl Acc.addExact a := by
  cases a with
  | int v n => cases ha
  | free t n => cases ha
  | exact v n nan pi ni nz => rfl

/-- A product added to one of two parts is added to their merge. -/
theorem Acc.merge_addExact {a b : Acc} (p : Fl) (ha : a.isExact = true) (hb : b.isExact = true) :
    a.merge (b.addExact p) = (a.merge b).map fun y => y.addExact p := by
  cases a with
  | int v n => cases ha
  | free t n => cases ha
  | exact v n nan pi ni nz =>
    cases b with
    | int v n => cases hb
    | free t n => cases hb
    | exact w m nan' pi' ni' nz' =>
      rcases p with _ | (_ | _) | ⟨s, k, e⟩ <;> simp [Acc.addExact, Acc.merge, Int.add_assoc, Nat.add_assoc, Bool.or_assoc]

theorem Acc.merge_foldl_addExact (ps : List Fl) {a b : Acc} (ha : a.isExact = true) (hb : b.isExact = true) :
    a.merge (ps.foldl Acc.addExact b) = (a.merge b).map fun y => ps.foldl Acc.addExact y := by
  induction ps generalizing b with
  | nil => simp
  | cons p ps ih =>
    rw [List.foldl_cons, ih (Acc.isExact_addExact p hb), Acc.merge_addExact p ha hb, Option.map_map]
    rfl

/-- The accumulation of no products is neutral. -/
theorem Acc.merge_fresh {a : Acc} (ha : a.isExact = true) : a.merge (Acc.fresh false 0x12) = some a := by
  cases a with
  | int v n => cases ha
  | free t n => cases ha
  | exact v n nan pi ni nz => simp [Acc.fresh, Acc.merge]

theorem Acc.merge_of_split (block : Nat) (ps qs : List Fl) :
    ((Acc.fresh false 0x12).addProducts block ps).merge ((Acc.fresh false 0x12).addProducts block qs) =
      some ((Acc.fresh false 0x12).addProducts block (ps ++ qs)) := by
  have hfresh : (Acc.fresh false 0x12).isExact = true := rfl
  have hps := Acc.isExact_foldl ps hfresh
  simp only [Acc.addProducts_of_exact hfresh]
  rw [Acc.merge_foldl_addExact qs hps hfresh, Acc.merge_fresh hps, Option.map_some, List.foldl_append]

/-! ### Little-endian numbers and two's complement -/

@[simp] theorem natLe_length (n v : Nat) : (natLe n v).length = n := by
  induction n generalizing v with
  | zero => rfl
  | succ n ih => rw [natLe, List.length_cons, ih]

theorem leNat_natLe (n v : Nat) : leNat (natLe n v) = v % 256 ^ n := by
  induction n generalizing v with
  | zero => rw [natLe, leNat, Nat.pow_zero, Nat.mod_one]
  | succ n ih =>
    have hpow : 256 ^ (n + 1) = 256 * 256 ^ n := Nat.pow_succ'
    rw [natLe, leNat, ih, BitVec.toNat_ofNat, hpow]
    exact Nat.mod_mul.symm

theorem take_natLe (n k v : Nat) (h : n ≤ k) : (natLe k v).take n = natLe n v := by
  induction n generalizing k v with
  | zero => rfl
  | succ n ih =>
    obtain ⟨k, rfl⟩ : ∃ j, k = j + 1 := ⟨k - 1, by omega⟩
    rw [natLe, List.take_succ_cons, ih k _ (by omega), natLe]

/-- A field of bytes followed by others, read from its first byte. -/
theorem leAt_natLe_append (n k v : Nat) (rest : List Byte) (h : n ≤ k) : leAt (natLe k v ++ rest) 0 n = v % 256 ^ n := by
  rw [leAt, slice, List.drop_zero, List.take_append_of_le_length (by simpa using h), take_natLe n k v h, leNat_natLe]

/-- A field beyond the first `k` bytes. -/
theorem leAt_append_right (bs rest : List Byte) (off n : Nat) : leAt (bs ++ rest) (bs.length + off) n = leAt rest off n := by
  rw [leAt, slice, List.drop_append, List.drop_eq_nil_of_le (by omega), Nat.add_sub_cancel_left]
  rfl

theorem ofSigned_cast (w : Nat) (v : Int) : (ofSigned w v : Int) = v % (2 ^ w : Nat) :=
  Int.toNat_of_nonneg (Int.emod_nonneg _ (Int.natCast_ne_zero.mpr (Nat.ne_of_gt (Nat.two_pow_pos w))))

theorem toSigned_ofSigned (k : Nat) (v : Int) (hlo : -(2 ^ k) ≤ v) (hhi : v < 2 ^ k) :
    toSigned (k + 1) (ofSigned (k + 1) v) = v := by
  have hhalf : ((2 ^ k : Nat) : Int) = 2 ^ k := Int.natCast_pow 2 k
  rw [← hhalf] at hlo hhi
  have hpow : 2 ^ (k + 1) = 2 * 2 ^ k := Nat.pow_succ'
  have hcast := ofSigned_cast (k + 1) v
  rw [toSigned, Nat.add_sub_cancel]
  rw [hpow] at hcast ⊢
  generalize 2 ^ k = half at hlo hhi hcast ⊢
  rcases Int.lt_or_le v 0 with hneg | hpos
  · have hmod : v % (2 * half : Nat) = v + (2 * half : Nat) := by
      rw [← Int.add_emod_right, Int.emod_eq_of_lt (by omega) (by omega)]
    rw [if_neg (by omega)]
    omega
  · have hmod : v % (2 * half : Nat) = v := Int.emod_eq_of_lt hpos (by omega)
    rw [if_pos (by omega)]
    omega

/-- The low bytes of a wider pattern are the narrower one. -/
theorem ofSigned_mod (n k : Nat) (v : Int) : ofSigned (8 * (n + k)) v % 256 ^ n = ofSigned (8 * n) v := by
  have hbytes : 256 ^ n = 2 ^ (8 * n) := by rw [Nat.pow_mul]
  have hdvd : ((2 ^ (8 * n) : Nat) : Int) ∣ ((2 ^ (8 * (n + k)) : Nat) : Int) :=
    Int.natCast_dvd_natCast.mpr (Nat.pow_dvd_pow 2 (by omega))
  apply Int.ofNat_inj.mp
  rw [hbytes, Int.natCast_emod, ofSigned_cast, ofSigned_cast, Int.emod_emod_of_dvd _ hdvd]

/-! ### A partial read back (Table 4.6) -/

/-- The 80 bytes of a partial: ACC, COUNT and FLAGS. -/
def partialLayout (acc count flags : Nat) : List Byte := natLe 72 acc ++ natLe 4 count ++ natLe 4 flags

theorem partialLayout_acc (acc count flags n : Nat) (h : n ≤ 72) :
    leAt (partialLayout acc count flags) 0 n = acc % 256 ^ n := by
  rw [partialLayout, List.append_assoc, leAt_natLe_append n 72 acc _ h]

theorem partialLayout_count (acc count flags : Nat) :
    leAt (partialLayout acc count flags) 0x48 4 = count % 256 ^ 4 := by
  have hright := leAt_append_right (natLe 72 acc) (natLe 4 count ++ natLe 4 flags) 0 4
  rw [natLe_length] at hright
  rw [partialLayout, List.append_assoc, hright, leAt_natLe_append 4 4 count _ (Nat.le_refl _)]

theorem partialLayout_flags (acc count flags : Nat) :
    leAt (partialLayout acc count flags) 0x4C 1 = flags % 256 ^ 1 := by
  have hright := leAt_append_right (natLe 72 acc ++ natLe 4 count) (natLe 4 flags ++ []) 0 1
  rw [List.length_append, natLe_length, natLe_length, List.append_nil] at hright
  rw [partialLayout, hright, ← List.append_nil (natLe 4 flags), leAt_natLe_append 1 4 flags _ (by decide)]

/-- FLAGS of an exact partial, and of an integer one, read bit by bit. -/
theorem testBit_exactFlags (a b c d : Bool) : ∀ fl, fl = (bitAt 0 a + bitAt 1 b + bitAt 2 c + bitAt 3 d) % 256 ^ 1 →
    fl.testBit 0 = a ∧ fl.testBit 1 = b ∧ fl.testBit 2 = c ∧ fl.testBit 3 = d ∧ fl.testBit 4 = false := by
  rintro fl rfl
  revert a b c d
  decide

theorem readPartial_exact (v : Int) (n : Nat) (a b c d : Bool) (hlo : -(2 ^ 575) ≤ v) (hhi : v < 2 ^ 575) (hn : n < 2 ^ 32) :
    readPartial (partialLayout (ofSigned 576 v) n (bitAt 0 a + bitAt 1 b + bitAt 2 c + bitAt 3 d)) = .exact v n a b c d := by
  have hacc : ofSigned 576 v % 256 ^ 72 = ofSigned 576 v := ofSigned_mod 72 0 v
  obtain ⟨h0, h1, h2, h3, h4⟩ := testBit_exactFlags a b c d _ rfl
  rw [readPartial, partialLayout_count, partialLayout_flags, h0, h1, h2, h3, h4, partialLayout_acc _ _ _ 72 (Nat.le_refl _),
    hacc, toSigned_ofSigned 575 v hlo hhi, Nat.mod_eq_of_lt (by omega)]
  rfl

/-- An integer partial's value is sign-extended from 48 bits (R151, R159). -/
theorem readPartial_int (v : Int) (n : Nat) (hlo : -(2 ^ 47) ≤ v) (hhi : v < 2 ^ 47) (hn : n < 2 ^ 32) :
    readPartial (partialLayout (ofSigned 576 v) n 16) = .int v n := by
  have hacc : ofSigned 576 v % 256 ^ 6 = ofSigned 48 v := ofSigned_mod 6 66 v
  have hflag : Nat.testBit (16 % 256 ^ 1) 4 = true := by decide
  rw [readPartial, partialLayout_count, partialLayout_flags, hflag, if_pos rfl, partialLayout_acc _ _ _ 6 (by decide), hacc,
    toSigned_ofSigned 47 v hlo hhi, Nat.mod_eq_of_lt (by omega)]

/-- Settles O21: adding products commutes, a merge moves past a product added to one part, and each field of a partial reads
back. -/
theorem exactSumsDependOnNoOrder : Obligations.ExactSumsDependOnNoOrder := by
  refine ⟨fun block ps qs v n a b c d hperm => ?_, Acc.merge_of_split, fun v n a b c d hlo hhi hn => ?_, fun v n hlo hhi hn => ?_⟩
  · have hexact : (Acc.exact v n a b c d).isExact = true := rfl
    rw [Acc.addProducts_of_exact hexact, Acc.addProducts_of_exact hexact]
    exact hperm.foldl_eq' (fun p _ q _ y => Acc.addExact_comm y p q) _
  · exact congrArg some (readPartial_exact v n a b c d hlo hhi hn)
  · exact congrArg some (readPartial_int v n hlo hhi hn)

end Sys2Proof.Machine
end

section
/-!
Fences kept: reports, cancellations and the cores' choices leave the fences of the cores, their records in the Field book and
the queue of extended tests (R178, R308 to R311, R688).
-/
namespace Sys2Proof.Machine
open Sys2Proof

/-- A core but for the unit it issues from. -/
def Core.standing (x : Core) : Core := { x with issuing := none }

@[simp] theorem Core.standing_fence (x : Core) : x.standing.fence = x.fence := rfl
@[simp] theorem Core.standing_underTest (x : Core) : x.standing.underTest = x.underTest := rfl
@[simp] theorem Core.standing_cache (x : Core) : x.standing.cache = x.cache := rfl

/-- Two states agree on the fences: the module's state, the Field book's records of fences, the cores asked for under test, and
every core but for the unit it issues from. -/
structure SameFences (s t : State) : Prop where
  mstate : t.sup.mstate = s.sup.mstate
  fences : t.fb.work.fences = s.fb.work.fences
  pending : t.fb.pendingFences = s.fb.pendingFences
  queue : t.hnd.unfenceQueue = s.hnd.unfenceQueue
  cores : ∀ k, (t.core k).standing = (s.core k).standing

namespace SameFences

variable {s t u : State}

theorem fence (h : SameFences s t) (k : Nat) : (t.core k).fence = (s.core k).fence := by
  simpa using congrArg Core.fence (h.cores k)

theorem underTest (h : SameFences s t) (k : Nat) : (t.core k).underTest = (s.core k).underTest := by
  simpa using congrArg Core.underTest (h.cores k)

theorem cache (h : SameFences s t) (k : Nat) : (t.core k).cache = (s.core k).cache := by
  simpa using congrArg Core.cache (h.cores k)

theorem rfl' (s : State) : SameFences s s := ⟨rfl, rfl, rfl, rfl, fun _ => rfl⟩

theorem trans (h : SameFences s t) (k : SameFences t u) : SameFences s u :=
  ⟨k.mstate.trans h.mstate, k.fences.trans h.fences, k.pending.trans h.pending, k.queue.trans h.queue,
    fun j => (k.cores j).trans (h.cores j)⟩

theorem foldl {α : Type} (g : State → α → State) (h : ∀ s a, SameFences s (g s a)) (xs : List α) (s : State) :
    SameFences s (xs.foldl g s) :=
  List.foldlRecOn (motive := SameFences s) _ _ (rfl' s) fun t ht a _ => ht.trans (h t a)

/-- A change of other parts of the state. -/
theorem of_keeps {l : List Part} (h : Keeps l s t) (hl : ∀ p ∈ [Part.sup, .fb, .hnd, .hrd], p ∉ l) : SameFences s t := by
  have hsup : t.sup = s.sup := h .sup (hl _ (by simp))
  have hfb : t.fb = s.fb := h .fb (hl _ (by simp))
  have hhnd : t.hnd = s.hnd := h .hnd (hl _ (by simp))
  have hhrd : t.hrd = s.hrd := h .hrd (hl _ (by simp))
  exact ⟨by rw [hsup], by rw [hfb], by rw [hfb], by rw [hhnd],
    fun k => congrArg Core.standing (State.core_congr (by rw [hhrd]) k)⟩

end SameFences

/-! ### Reports -/

theorem platformEvent_sameFences (s : State) (cls : Nat) (body : List Byte) : SameFences s (s.platformEvent cls body) := by
  unfold State.platformEvent
  split
  · exact .rfl' s
  · split
    · exact .rfl' s
    · exact ⟨by simp, by simp, by simp, by simp, fun k => by rw [State.core_congr (s := s) (by simp)]⟩

theorem raiseAlert_sameFences (s : State) (bits : Nat) : SameFences s (s.raiseAlert bits) :=
  SameFences.trans (t := { s with erl := { s.erl with alert := s.erl.alert ||| BitVec.ofNat 13 bits } })
    ⟨rfl, rfl, rfl, rfl, fun _ => rfl⟩ (.foldl _ (fun t _ => platformEvent_sameFences t _ _) _ _)

theorem raiseReplace_sameFences (s : State) (bits : Nat) : SameFences s (s.raiseReplace bits) := by
  unfold State.raiseReplace
  split
  · exact .rfl' s
  · refine SameFences.trans ?_ (raiseAlert_sameFences _ _)
    exact ⟨rfl, rfl, rfl, rfl, fun _ => rfl⟩

theorem fieldBookPut_sameFences (s : State) (cls : ErrClass) (r : Rec) : SameFences s (s.fieldBookPut cls r) := by
  unfold State.fieldBookPut
  split
  · exact .rfl' s
  · split
    · exact ⟨rfl, rfl, rfl, rfl, fun _ => rfl⟩
    · split <;> exact ⟨rfl, rfl, rfl, rfl, fun _ => rfl⟩

theorem ringStep_sameFences (rep : Ev → State → State) (hrep : ∀ e s, SameFences s (rep e s)) (r : Rec) (s : State) (f : Nat) :
    SameFences s (ringStep rep r s f) := by
  have hput : SameFences s (s.ringPut f r) := .of_keeps (ringPut_keeps s f r) (by decide)
  unfold ringStep
  split
  · next p _ =>
    have hdeny : SameFences s ((s.ringPut f r).countDenial f p true).2 :=
      hput.trans (.of_keeps (countDenial_keeps _ _ _ _) (by decide))
    dsimp only
    refine SameFences.trans ?_ (hrep _ _)
    split
    · exact hdeny.trans (hrep _ _)
    · exact hdeny
  · exact hput

theorem reportWith_sameFences (n : Nat) : ∀ (e : Ev) (s : State), SameFences s (reportWith n e s) := by
  induction n with
  | zero => exact fun e s => .rfl' s
  | succ n ih =>
    intro e s
    have hraise : SameFences s (s.raiseFor e) := (raiseAlert_sameFences s _).trans (raiseReplace_sameFences _ _)
    have hbook : ∀ (t : State) (r : Rec), SameFences t (if e.class = .unitFatal ∨ e.class = .moduleFatal then
        (t.fieldBookPut e.class r).platformEvent 0xF0 (r.bytes false) else t.fieldBookPut e.class r) := by
      intro t r
      split
      · exact (fieldBookPut_sameFences t _ r).trans (platformEvent_sameFences _ _ _)
      · exact fieldBookPut_sameFences t _ r
    have herl : ∀ (t : State) (y : Erl), SameFences t { t with erl := y } := fun t y => ⟨rfl, rfl, rfl, rfl, fun _ => rfl⟩
    unfold reportWith
    dsimp only
    split
    · exact hraise.trans (herl _ _)
    · exact (hraise.trans ((herl _ _).trans (hbook _ _))).trans (.foldl _ (fun t f => ringStep_sameFences _ ih _ t f) _ _)

/-- A report of a class that leaves the module running. -/
theorem report_sameFences (s : State) (e : Ev) (h : e.class ≠ .moduleFatal) : SameFences s (s.report e) := by
  rw [report_eq s e fun hfatal => absurd hfatal h]
  exact reportWith_sameFences _ _ _

theorem report_hrd (s : State) (e : Ev) (h : e.class ≠ .moduleFatal) : (s.report e).hrd = s.hrd := by
  rw [report_eq s e fun hfatal => absurd hfatal h, reportWith_hrd]

/-! ### Cancellation (R279, R309) -/

/-- A run whose units neither wait nor have commands queued. -/
def FrameRun.idled (r : FrameRun) : FrameRun :=
  { r with units := r.units.map fun u => { u with queue := [], blocked := none } }

/-- A frame whose commands are dropped and whose units no longer wait, before any report. -/
def State.runIdled (s : State) (c no : Nat) : State :=
  (((s.dropCommands c no).dropEntries c no).mapRoutes c fun r => { r with waitSend := none, waitRead := false }).modRun c
    FrameRun.idled

theorem cancelRun_eq (s : State) (c : Nat) (record : Bool) (f : Frame) (r : FrameRun) (h : (s.ctx c).running = some (f, r)) :
    s.cancelRun c record = if record then (s.frameCommands c).foldl (fun t x => t.reportCancelled c f.no x) (s.runIdled c f.no)
      else s.runIdled c f.no := by
  rw [State.cancelRun, h]
  rfl

theorem cancelRun_of_idle (s : State) (c : Nat) (record : Bool) (h : (s.ctx c).running = none) : s.cancelRun c record = s := by
  rw [State.cancelRun, h]

theorem dropCommands_keeps (s : State) (c no : Nat) : Keeps [.pck, .out, .rtv, .ec] s (s.dropCommands c no) := by
  have htell : ∀ (t : State) (k : Cmd), Keeps [.pck, .out, .rtv, .ec] t (t.tellPeer k) := by
    intro t k
    unfold State.tellPeer
    split
    · exact (sendMember_keeps _ _ _ _).mono (by simp)
    · exact Keeps.rfl' _ _
  refine (Keeps.foldl _ _ htell
    (s.rtv.chans.flatMap fun p => p.2.started.filter fun k => k.issuer.ofFrame c no) s).trans' ?_
  unfold State.dropCommands
  intro p hp; cases p <;> simp_all [Part.same]

theorem dropEntries_keeps (s : State) (c no : Nat) : Keeps [.fns] s (s.dropEntries c no) := by
  intro p hp; cases p <;> simp_all [Part.same, State.dropEntries]

theorem mapRoutes_keeps (s : State) (c : Nat) (g : Route → Route) : Keeps [.fab] s (s.mapRoutes c g) := by
  intro p hp; cases p <;> simp_all [Part.same, State.mapRoutes]

/-- What is dropped with a frame's commands is outside the Herder's part, the Field book, the Handler and the supervisor. -/
theorem commandsDropped_keeps (s : State) (c no : Nat) (g : Route → Route) :
    Keeps [.pck, .out, .rtv, .ec, .fns, .fab] s (((s.dropCommands c no).dropEntries c no).mapRoutes c g) :=
  (((dropCommands_keeps s c no).mono (by simp)).trans' ((dropEntries_keeps _ _ _).mono (by simp))).trans'
    ((mapRoutes_keeps _ _ _).mono (by simp))

theorem reportCancelled_sameFences (s : State) (c no : Nat) (x : Nat × Nat × Nat) : SameFences s (s.reportCancelled c no x) := by
  refine SameFences.trans (t := s.modChan x.1 fun k => { k with lastErr := 12 }) ?_ (report_sameFences _ _ (by simp [Ev.class]))
  exact ⟨rfl, rfl, rfl, rfl, fun _ => rfl⟩

theorem reportCancelled_hrd (s : State) (c no : Nat) (x : Nat × Nat × Nat) : (s.reportCancelled c no x).hrd = s.hrd :=
  report_hrd _ _ (by simp [Ev.class])

theorem modRun_sameFences (s : State) (c : Nat) (g : FrameRun → FrameRun) : SameFences s (s.modRun c g) :=
  ⟨rfl, rfl, rfl, rfl, fun _ => rfl⟩

theorem runIdled_sameFences (s : State) (c no : Nat) : SameFences s (s.runIdled c no) :=
  (SameFences.of_keeps (commandsDropped_keeps s c no _) (by decide)).trans (modRun_sameFences _ _ _)

theorem cancelRun_sameFences (s : State) (c : Nat) (record : Bool) : SameFences s (s.cancelRun c record) := by
  cases h : (s.ctx c).running with
  | none => rw [cancelRun_of_idle s c record h]; exact .rfl' s
  | some q =>
    rw [cancelRun_eq s c record q.1 q.2 h]
    have hidled := runIdled_sameFences s c q.1.no
    cases record with
    | false => exact hidled
    | true => exact hidled.trans (.foldl _ (fun t x => reportCancelled_sameFences t c _ x) _ _)

theorem modRun_hrd_congr {s t : State} (h : t.hrd = s.hrd) (c : Nat) (g : FrameRun → FrameRun) :
    (t.modRun c g).hrd = (s.modRun c g).hrd := by
  simp only [State.modRun, State.modHead, State.modCtx_eq, State.setCtx_hrd, State.ctx, h]

/-- Of the Herder's part, a cancellation changes the cancelled frame's units. -/
theorem cancelRun_hrd (s : State) (c : Nat) (record : Bool) : (s.cancelRun c record).hrd = s.hrd ∨
    (s.cancelRun c record).hrd = (s.modRun c FrameRun.idled).hrd := by
  cases h : (s.ctx c).running with
  | none => rw [cancelRun_of_idle s c record h]; exact .inl rfl
  | some q =>
    right
    have hidled : (s.runIdled c q.1.no).hrd = (s.modRun c FrameRun.idled).hrd :=
      modRun_hrd_congr (commandsDropped_keeps s c q.1.no _ .hrd (by decide)) c _
    rw [cancelRun_eq s c record q.1 q.2 h]
    cases record with
    | false => exact hidled
    | true =>
      exact List.foldlRecOn (motive := fun t : State => t.hrd = (s.modRun c FrameRun.idled).hrd) _ _ hidled
        fun t ht x _ => (reportCancelled_hrd t c _ x).trans ht

/-! ### The cores' choices and the contexts' states -/

theorem schedule_sameFences (s : State) (k : Nat) : SameFences s (s.schedule k) := by
  have hkeeps := schedule_keeps s k
  exact ⟨congrArg (fun y => y.mstate) (hkeeps .sup (by decide)), congrArg (fun y => y.work.fences) (hkeeps .fb (by decide)),
    congrArg (fun y => y.pendingFences) (hkeeps .fb (by decide)), congrArg (fun y => y.unfenceQueue) (hkeeps .hnd (by decide)),
    schedule_core s k Core.standing fun _ _ => rfl⟩

theorem scheduleAll_sameFences (s : State) (l : List Nat) : SameFences s (s.scheduleAll l) := .foldl _ schedule_sameFences l s

theorem suspendCheck_sameFences (s : State) : SameFences s s.suspendCheck := ⟨rfl, rfl, rfl, rfl, fun _ => rfl⟩

theorem serviceCheck_sameFences (s : State) (before : Nat) : SameFences s (s.serviceCheck before) := by
  unfold State.serviceCheck
  split
  · refine SameFences.trans ?_ (report_sameFences _ _ (by decide))
    exact ⟨rfl, rfl, rfl, rfl, fun _ => rfl⟩
  · exact .rfl' s

theorem abandonAudits_keeps (s : State) (p : Nat → Bool) : Keeps [.fab] s (s.abandonAudits p) := by
  refine Keeps.foldl _ _ (fun t q => ?_) _ s
  split
  · unfold State.abandonAudit
    split
    · exact Keeps.rfl' _ _
    · exact modQuarter_keeps _ _ _
  · exact Keeps.rfl' _ _

end Sys2Proof.Machine
end

section
/-!
Fences: a fenced core leaves the pool, its frames restart, and a passed test returns it; corrected errors of a core (R178,
R179, R308 to R311, R688).
-/
namespace Sys2Proof.Machine
open Sys2Proof

/-! ### A fence (R308, R309) -/

/-- The state in which a core's fence is recorded, the core fenced and its cache empty, before anything is cancelled. -/
def State.fencedAt (s : State) (k : Nat) (cause : FenceCause) : State :=
  (s.recordFence k cause).modCore k fun x => { x with fence := some cause, cache := {} }

theorem recordFence_fences (s : State) (k : Nat) (cause : FenceCause) :
    (s.recordFence k cause).fb.work.fences = Tab.put s.fb.work.fences k cause.code := by
  unfold State.recordFence
  dsimp only
  split <;> rfl

theorem recordFence_keeps (s : State) (k : Nat) (cause : FenceCause) : Keeps [.fb] s (s.recordFence k cause) := by
  unfold State.recordFence
  dsimp only
  split <;> (intro p hp; cases p <;> simp_all [Part.same])

/-- What a fence does beyond recording it leaves every fence as recorded. -/
theorem fenceCore_sameFences (s : State) (k : Nat) (cause : FenceCause) (h : s.fenced k = false) :
    SameFences (s.fencedAt k cause) (s.fenceCore k cause) := by
  have hfab : ∀ (t : State) (y : Fab), SameFences t { t with fab := y } := fun t y => ⟨rfl, rfl, rfl, rfl, fun _ => rfl⟩
  rw [State.fenceCore, if_neg (by rw [h]; exact Bool.false_ne_true)]
  dsimp only
  refine SameFences.trans ?_ (serviceCheck_sameFences _ _)
  refine SameFences.trans ?_ (suspendCheck_sameFences _)
  refine SameFences.trans ?_ (scheduleAll_sameFences _ _)
  refine SameFences.trans (SameFences.trans (.of_keeps (abandonAudits_keeps _ _) (by decide)) (hfab _ _)) (.foldl _ ?_ _ _)
  intro t c
  exact ((cancelRun_sameFences t c true).trans (hfab _ _)).trans (modRun_sameFences _ _ _)

/-- A core is fenced with a cause, out of the pool and recorded in the Field book, its cache empty; the module is in a state. -/
def State.FencedWith (t : State) (k : Nat) (cause : FenceCause) (mstate : ModState) : Prop :=
  (t.core k).fence = some cause ∧ (t.core k).cache = {} ∧ t.pooled k = false ∧
    Tab.find? t.fb.work.fences k = some cause.code ∧ t.sup.mstate = mstate

theorem fenceCore_effect (s : State) (k : Nat) (cause : FenceCause) (h : s.fenced k = false) :
    (s.fenceCore k cause).FencedWith k cause s.sup.mstate := by
  have hsame := fenceCore_sameFences s k cause h
  have hfence : ((s.fenceCore k cause).core k).fence = some cause := by rw [hsame.fence]; simp [State.fencedAt]
  have hbook : (s.fencedAt k cause).fb.work.fences = Tab.put s.fb.work.fences k cause.code := recordFence_fences s k cause
  have hsup : (s.fencedAt k cause).sup = s.sup := recordFence_keeps s k cause .sup (by decide)
  refine ⟨hfence, ?_, ?_, ?_, ?_⟩
  · rw [hsame.cache]; simp [State.fencedAt]
  · simp [State.pooled, State.fenced, hfence]
  · rw [hsame.fences, hbook, Tab.find?_put_same]
  · rw [hsame.mstate, hsup]

theorem coreEv_class (blk : Block) (nn k : Nat) : (coreEv blk nn k).class = Err.cls ⟨blk, nn⟩ := rfl

/-- A report and then the fence of a core that works. -/
theorem report_fenceCore_effect (s : State) (e : Ev) (k : Nat) (cause : FenceCause) (hworks : s.coreWorks k = true)
    (he : e.class ≠ .moduleFatal) :
    ((s.report e).fenceCore k cause).FencedWith k cause s.sup.mstate := by
  have hfenced : (s.report e).fenced k = false := by
    rw [State.fenced, (report_sameFences s e he).fence]
    simp only [State.coreWorks, Bool.and_eq_true, Bool.not_eq_true'] at hworks
    exact hworks.2
  rw [← (report_sameFences s e he).mstate]
  exact fenceCore_effect _ k cause hfenced

theorem fencesTakeCoresOutOfThePool : FencesTakeCoresOutOfThePool := by
  refine fun s k => ⟨fun hworks i cause hi => ?_, fun hidle => ?_⟩
  · rcases hi with ⟨rfl, rfl⟩ | ⟨rfl, rfl⟩ | ⟨rfl, hreach, rfl, rfl⟩
    · exact ⟨(s.report (coreEv .sys 23 k)).fenceCore k .uncorrectable, by simp [exec, execCoreFatalError, hworks],
        report_fenceCore_effect s _ k _ hworks (by rw [coreEv_class]; decide)⟩
    · exact ⟨(s.report (coreEv .hrd 10 k)).fenceCore k .watchdog, by simp [exec, execCoreWatchdogExpiry, hworks],
        report_fenceCore_effect s _ k _ hworks (by rw [coreEv_class]; decide)⟩
    · exact ⟨(s.report (coreEv .erl 11 (s.fn 0).hrd.fenceSel.toNat)).fenceCore (s.fn 0).hrd.fenceSel.toNat .driver,
        by simp [exec, execDriverFence, hreach, hworks],
        report_fenceCore_effect s _ _ _ hworks (by rw [coreEv_class]; decide)⟩
  · simp [exec, execCoreFatalError, execCoreWatchdogExpiry, hidle]

/-! ### The restart of a cancelled frame (R309, R310) -/

@[simp] theorem State.ctx_modHead (s : State) (c : Nat) (g : Frame → Frame) : (s.modHead c g).ctx c = (s.ctx c).modHead g :=
  State.ctx_setCtx _ _ _

theorem Ctx.modHead_of_cons {x : Ctx} {f : Frame} {rest : List Frame} (h : x.held = f :: rest) (g : Frame → Frame) :
    x.modHead g = { x with held := g f :: rest } := by
  simp [Ctx.modHead, h]

/-- A change that leaves every frame without a run leaves a context that runs nothing. -/
theorem Ctx.modHead_of_idle {x : Ctx} (g : Frame → Frame) (h : x.running = none) (hg : ∀ f, f.run = none → g f = f) :
    x.modHead g = x := by
  have hheld : (x.modHead g).held = x.held := by
    unfold Ctx.modHead
    cases hx : x.held with
    | nil => rfl
    | cons f rest =>
      have hrun : f.run = none := by simpa [Ctx.running, hx] using h
      exact congrArg (· :: rest) (hg f hrun)
  calc x.modHead g = { x with held := (x.modHead g).held } := rfl
    _ = x := by rw [hheld]

/-- A context that runs nothing is left as it is by a change of a unit. -/
theorem modUnit_ctx_of_idle (s : State) (c d u : Nat) (g : UnitRun → UnitRun) (h : (s.ctx c).running = none) :
    (s.modUnit d u g).ctx c = s.ctx c := by
  by_cases hd : c = d
  · subst hd
    refine (State.ctx_modHead s c _).trans (Ctx.modHead_of_idle _ h fun f hf => ?_)
    cases f
    simp_all
  · exact State.ctx_setCtx_other _ _ _ _ hd

/-- A context that runs a frame holds it first. -/
theorem Ctx.held_of_running {x : Ctx} {f : Frame} {r : FrameRun} (h : x.running = some (f, r)) : ∃ rest, x.held = f :: rest := by
  unfold Ctx.running at h
  split at h
  · next g rest hheld =>
    obtain ⟨q, -, hq⟩ := Option.map_eq_some_iff.mp h
    cases hq
    exact ⟨rest, hheld⟩
  · cases h

/-- The cores' choices leave a context that runs nothing, and the count of restarts. -/
theorem scheduleAll_idle (s : State) (l : List Nat) (c : Nat) (h : (s.ctx c).running = none) :
    (s.scheduleAll l).ctx c = s.ctx c ∧ (s.scheduleAll l).hrd.restartCount = s.hrd.restartCount := by
  refine List.foldlRecOn (motive := fun t : State => t.ctx c = s.ctx c ∧ t.hrd.restartCount = s.hrd.restartCount) _ _ ⟨rfl, rfl⟩
    fun t ht k _ => schedule_induction
      (P := fun t : State => t.ctx c = s.ctx c ∧ t.hrd.restartCount = s.hrd.restartCount) t k ht ?_ ?_
  · intro t d u n ht
    exact ⟨(modUnit_ctx_of_idle t c d u _ (by rw [ht.1, h])).trans ht.1, ht.2⟩
  · intro t i ht
    exact ht

/-- A frame that has left its run. -/
def Frame.stopped (f : Frame) : Frame := { f with run := none }

/-- A frame stopped for a restart is at the head of its context's queue, its run gone. -/
theorem stopRun_head (s : State) (c : Nat) (record : Bool) (f : Frame) (r : FrameRun) (h : (s.ctx c).running = some (f, r)) :
    ((s.stopRun c record).ctx c).held.head? = some f.stopped ∧
      (s.stopRun c record).hrd.restartCount = s.hrd.restartCount := by
  obtain ⟨rest, hheld⟩ := Ctx.held_of_running h
  have hcancel : ∃ g, ((s.cancelRun c record).ctx c).held = { f with run := g } :: rest ∧
      (s.cancelRun c record).hrd.restartCount = s.hrd.restartCount := by
    rcases cancelRun_hrd s c record with heq | heq
    · exact ⟨f.run, by rw [State.ctx, heq]; exact hheld, by rw [heq]⟩
    · refine ⟨f.run.map FrameRun.idled, ?_, by rw [heq]; rfl⟩
      rw [State.ctx, heq]
      exact congrArg Ctx.held ((State.ctx_modHead s c _).trans (Ctx.modHead_of_cons hheld _))
  obtain ⟨g, hg, hcount⟩ := hcancel
  have hstopped : ((s.cancelRun c record).modHead c Frame.stopped).ctx c =
      { (s.cancelRun c record).ctx c with held := f.stopped :: rest } :=
    (State.ctx_modHead _ c _).trans (Ctx.modHead_of_cons hg _)
  have hidle := scheduleAll_idle ((s.cancelRun c record).modHead c Frame.stopped) r.onCores c
    (by rw [hstopped]; simp [Ctx.running, Frame.stopped])
  have hstop : s.stopRun c record = ((s.cancelRun c record).modHead c Frame.stopped).scheduleAll r.onCores := by
    rw [State.stopRun, h]; rfl
  rw [hstop, hidle.1, hidle.2, hstopped]
  exact ⟨rfl, hcount⟩

/-- A frame with one restart more. -/
def Frame.restarted (f : Frame) : Frame := { f with restarts := f.restarts + 1 }

/-- One more restart counted. -/
def State.restartCounted (s : State) : State := { s with hrd := { s.hrd with restartCount := satInc s.hrd.restartCount } }

/-- A frame cancelled for the first or second time restarts: it is ready again, with one restart more. -/
theorem restartFrame_restarts (s : State) (c : Nat) (f : Frame) (r : FrameRun) (h : (s.ctx c).running = some (f, r))
    (hfew : f.restarts < 2) :
    ((s.restartFrame c).ctx c).held.head? = some f.stopped.restarted ∧
      (s.restartFrame c).hrd.restartCount = satInc s.hrd.restartCount := by
  obtain ⟨hhead, hcount⟩ := stopRun_head s c true f r h
  obtain ⟨rest, hheld⟩ := List.head?_eq_some_iff.mp hhead
  have heq : s.restartFrame c = State.restartCounted (((s.stopRun c true).quiesceRoutes c).modHead c Frame.restarted) := by
    rw [State.restartFrame, h]
    exact if_neg (by omega)
  have hctx : (s.restartFrame c).ctx c = ((s.stopRun c true).ctx c).modHead Frame.restarted := by
    rw [heq]
    exact State.ctx_modHead _ _ _
  rw [hctx, Ctx.modHead_of_cons hheld, heq, ← hcount]
  exact ⟨rfl, rfl⟩

theorem exec_fenceCancelDone_single (s : State) (k c : Nat) (halive : s.alive = true) (hc : s.cancelledOn k = [c]) :
    exec (.fenceCancelDone k) s = .next (s.restartFrame c) := by
  simp only [exec, execFenceCancelDone, halive, hc, if_true, List.foldl_cons, List.foldl_nil]

/-! ### The extended test (R311) -/

/-- A core under extended test, or no longer. -/
def State.underTestAt (s : State) (k : Nat) (b : Bool) : State := s.modCore k fun x => { x with underTest := b }

theorem underTestAt_keeps (s : State) (k : Nat) (b : Bool) : Keeps [.hrd] s (s.underTestAt k b) := modCore_keeps _ _ _

/-- The next test begins on a core of the queue, or none does. -/
theorem nextTest_cases (s : State) :
    s.nextTest = s ∨ ∃ j ∈ s.hnd.unfenceQueue, s.nextTest = s.underTestAt j true := by
  unfold State.nextTest
  split
  · next j rest hqueue =>
    split
    · exact .inr ⟨j, by rw [hqueue]; exact List.mem_cons_self, rfl⟩
    · exact .inl rfl
  · exact .inl rfl

theorem nextTest_keeps (s : State) : Keeps [.hrd] s s.nextTest := by
  rcases nextTest_cases s with heq | ⟨j, -, heq⟩ <;> rw [heq]
  · exact Keeps.rfl' _ _
  · exact underTestAt_keeps _ _ _

/-- A core that is not asked for is left as it is by the next test. -/
theorem nextTest_core (s : State) (k : Nat) (h : k ∉ s.hnd.unfenceQueue) : s.nextTest.core k = s.core k := by
  rcases nextTest_cases s with heq | ⟨j, hj, heq⟩ <;> rw [heq]
  exact State.core_setCore_other _ _ _ _ fun hkj => h (hkj ▸ hj)

/-- The Handler's queue with other cores asked for under test. -/
def State.withQueue (s : State) (l : List Nat) : State := { s with hnd := { s.hnd with unfenceQueue := l } }

theorem withQueue_keeps (s : State) (l : List Nat) : Keeps [.hnd] s (s.withQueue l) := by
  intro p hp; cases p <;> simp_all [Part.same, State.withQueue]

theorem exec_unfenceRequest (s : State) (k : Nat) (hreach : s.hostReach 0 = true) (hk : k = (s.fn 0).hrd.fenceSel.toNat)
    (henabled : s.enabled k = true) (hfenced : s.fenced k = true) (hqueue : s.hnd.unfenceQueue = []) :
    exec (.unfenceRequest 0) s = .next (s.withQueue [k]).nextTest := by
  subst hk
  simp [exec, execUnfenceRequest, hreach, henabled, hfenced, hqueue, State.withQueue]

theorem nextTest_of_single (s : State) (k : Nat) (hrun : s.hnd.running = true) :
    (s.withQueue [k]).nextTest = (s.withQueue [k]).underTestAt k true := by
  simp [State.nextTest, State.withQueue, hrun, State.underTestAt]

/-- A core whose test is over, before its verdict is carried out. -/
def State.tested (s : State) (k : Nat) : State := (s.withQueue (s.hnd.unfenceQueue.filter fun j => j != k)).underTestAt k false

theorem exec_extendedTestDone (s : State) (k : Nat) (pass : Bool) (halive : s.alive = true) (hrun : s.hnd.running = true)
    (htest : (s.core k).underTest = true) : exec (.extendedTestDone k pass) s =
    .next (if pass then (s.tested k).liftFence k else s.tested k).nextTest := by
  show execExtendedTestDone k pass s = _
  exact if_neg (by simp [halive, hrun, htest])

theorem tested_core (s : State) (k : Nat) : (s.tested k).core k = { s.core k with underTest := false } :=
  State.core_setCore _ _ _

theorem not_mem_tested_queue (s : State) (k : Nat) : k ∉ (s.tested k).hnd.unfenceQueue := by
  show k ∉ s.hnd.unfenceQueue.filter fun j => j != k
  simp

/-- A core's fence and its records erased, before the report of its return. -/
def State.unfenced (s : State) (k : Nat) : State :=
  State.modCore { s with fb := { s.fb with
    work := { s.fb.work with fences := Tab.erase s.fb.work.fences k }
    pendingFences := Tab.erase s.fb.pendingFences k } } k fun x => { x with fence := none }

theorem unfenced_core (s : State) (k : Nat) : (s.unfenced k).core k = { s.core k with fence := none } := State.core_setCore _ _ _

theorem liftFence_sameFences (s : State) (k : Nat) : SameFences (s.unfenced k) (s.liftFence k) :=
  (report_sameFences (s.unfenced k) (coreEv .erl 10 k) (by rw [coreEv_class]; decide)).trans
    (suspendCheck_sameFences _)

/-- A passed test lifts the fence and its records, whichever core is tested next. -/
theorem liftFence_nextTest_effect (s : State) (k : Nat) (hqueue : k ∉ s.hnd.unfenceQueue) :
    ((s.liftFence k).nextTest.core k).fence = none ∧ ((s.liftFence k).nextTest.core k).underTest = (s.core k).underTest ∧
      Tab.find? (s.liftFence k).nextTest.fb.work.fences k = none ∧
      Tab.find? (s.liftFence k).nextTest.fb.pendingFences k = none := by
  have hsame := liftFence_sameFences s k
  have hcore : (s.liftFence k).nextTest.core k = (s.liftFence k).core k := nextTest_core _ k (by rw [hsame.queue]; exact hqueue)
  have hfb : (s.liftFence k).nextTest.fb = (s.liftFence k).fb := nextTest_keeps _ .fb (by decide)
  rw [hcore, hfb, hsame.fence, hsame.underTest, hsame.fences, hsame.pending, unfenced_core]
  exact ⟨rfl, rfl, Tab.find?_erase_same _ _, Tab.find?_erase_same _ _⟩

/-! ### Corrected errors (R178) -/

theorem report_corrected_effect (s : State) (e : Ev) (hcls : e.class = .corrected) :
    Records s (s.report e) e.err .corrected e.unit e.detail ∧ Keeps reportParts s (s.report e) := by
  have heq : s.report e = reportWith 3 e s := report_eq s e fun hfatal => by rw [hcls] at hfatal; cases hfatal
  rw [heq, ← hcls]
  exact ⟨reportWith_records 2 e s, reportWith_keeps 3 e s⟩

/-- A core whose cache has dropped the line of an address. -/
def State.lineDropped (s : State) (k a : Nat) : State := s.modCore k fun x => { x with cache := x.cache.dropLine (granule a) }

theorem exec_coreCacheParityError (s : State) (k a : Nat) (hworks : s.coreWorks k = true)
    (hline : (Tab.find? (s.core k).cache.lines (granule a)).isSome = true) :
    exec (.coreCacheParityError k a) s = .next ((s.lineDropped k a).report (coreEv .sys 27 k)) := by
  have hsome : (Tab.find? (s.core k).cache.lines (granule a)).isNone = false := by rw [← Option.not_isSome, hline]; rfl
  simp only [exec, execCoreCacheParityError, hworks, hsome, Bool.not_true, Bool.or_self, Bool.false_eq_true, if_false]
  rfl

theorem lineDropped_line (s : State) (k a : Nat) : Tab.find? ((s.lineDropped k a).core k).cache.lines (granule a) = none := by
  rw [State.lineDropped, State.modCore_eq, State.core_setCore]
  exact dropLine_find _ _

theorem coreCacheParityError_drops (s : State) (k a : Nat) (hworks : s.coreWorks k = true)
    (hline : (Tab.find? (s.core k).cache.lines (granule a)).isSome = true) :
    ∃ t, exec (.coreCacheParityError k a) s = .next t ∧ Tab.find? (t.core k).cache.lines (granule a) = none ∧
      Records s t ⟨.sys, 27⟩ .corrected (.core k) [] ∧ Keeps (.hrd :: reportParts) s t := by
  obtain ⟨hrec, hkeeps⟩ := report_corrected_effect (s.lineDropped k a) (coreEv .sys 27 k) rfl
  refine ⟨_, exec_coreCacheParityError s k a hworks hline, ?_, records_of_before hrec id rfl,
    ((modCore_keeps _ _ _).mono (by simp)).trans' (hkeeps.mono (by simp_all))⟩
  rw [(report_sameFences _ _ (by rw [coreEv_class]; decide)).cache]
  exact lineDropped_line s k a

theorem cancelledFramesRestartAndCoresReturn : CancelledFramesRestartAndCoresReturn := by
  refine fun s k halive => ⟨fun c f r hc hrun hfew => ?_, fun hreach hk henabled hfenced hqueue hrunning => ?_,
    fun hrunning htest => ?_, fun hrunning htest => ?_, fun hworks => ?_, fun a => coreCacheParityError_drops s k a⟩
  · obtain ⟨hhead, hcount⟩ := restartFrame_restarts s c f r hrun hfew
    exact ⟨_, _, exec_fenceCancelDone_single s k c halive hc, hhead, rfl, rfl, rfl, hcount⟩
  · have hcore : ((s.withQueue [k]).underTestAt k true).core k = { s.core k with underTest := true } := State.core_setCore _ _ _
    refine ⟨_, exec_unfenceRequest s k hreach hk henabled hfenced hqueue, ?_⟩
    rw [nextTest_of_single s k hrunning, State.fenced, hcore]
    exact ⟨rfl, rfl, hfenced, ((withQueue_keeps _ _).mono (by simp)).trans' ((underTestAt_keeps _ _ _).mono (by simp))⟩
  · obtain ⟨hfence, hunder, hbook, hpending⟩ := liftFence_nextTest_effect (s.tested k) k (not_mem_tested_queue s k)
    rw [tested_core] at hunder
    exact ⟨_, exec_extendedTestDone s k true halive hrunning htest, hfence, hunder, hbook, hpending⟩
  · refine ⟨_, exec_extendedTestDone s k false halive hrunning htest, ?_⟩
    rw [if_neg Bool.false_ne_true, nextTest_core _ k (not_mem_tested_queue s k), tested_core]
    exact ⟨rfl, rfl, nextTest_keeps _ .fb (by decide)⟩
  · exact ⟨s.report (coreEv .sys 20 k), by simp [exec, execCoreEccCorrected, hworks],
      report_corrected_effect s (coreEv .sys 20 k) rfl⟩

/-- Settles O17: whatever a fence cancels, reports and reschedules leaves the fences as recorded, and a restarted frame stays at
the head of its context's queue. -/
theorem fencedCoresLeaveAndReturn : Obligations.FencedCoresLeaveAndReturn :=
  ⟨fencesTakeCoresOutOfThePool, cancelledFramesRestartAndCoresReturn⟩

end Sys2Proof.Machine
end

section
/-!
The start of a driver's Retriever command (R260, R261, R281, R440): a dictionary command whose record a started one is to
write waits, whatever its checks would find.
-/
namespace Sys2Proof.Machine
open Sys2Proof

/-! ### A driver's command at its start -/

/-- The command at the head of a driver-mode channel's queue, as it starts. -/
def State.driverStart (s : State) (ch : Nat) (d : Desc) (a : StartArgs) (idx : List Byte) : Starting :=
  { ch := ch, issuer := .driver (s.chan ch).func.toNat, whole := true, desc := d, args := a, index := idx }

section
variable {s : State} {ch op : Nat}

theorem starting_of_driver {d : Desc} {r : List Desc} (a : StartArgs) (idx : List Byte) (hserves : s.serves ch = true)
    (hmode : (s.chan ch).mode = 2) (hqueue : (s.chan ch).driverQ = d :: r) (hrow : d.row = op)
    (hrun : (s.chan ch).halted = false) (hmay : s.mayStart ch (.driver (s.chan ch).func.toNat) d = true) :
    s.starting ch op a idx = some (s.driverStart ch d a idx, s.modChan ch fun x => { x with driverQ := r }) := by
  simp [State.starting, State.driverStart, hserves, hmode, hqueue, hrow, hrun, hmay]

/-- A dictionary command of a valid form waits while a started command is to write the record it names (R440). -/
theorem startRow_of_recordBusy {a : StartArgs} {idx : List Byte} {x : Starting} {s' : State}
    (hstart : s.starting ch op a idx = some (x, s')) (hop : 8 ≤ op) (hform : x.desc.formOk x.issuer = true)
    (hbusy : s.recordBusy x = true) : s.startRow ch op a idx = s := by
  simp [State.startRow, hstart, hop, hform, hbusy]

end

/-! ### A dictionary command that waits and names a tally its function does not own -/

/-- DICT_COMPRESS of 65 bytes of device memory, first of its stream, its context record at 0x4000. Its TALLY, 0, is the tally
of no driver's channel. -/
def unownedCompress : Desc :=
  { opcode := 8, flags := 1, spaces := 0, res3 := 0, tally := 0, vector := 0, src := 0x1000, dst := 0x2000, len := 65
    tagId := 7, arg := padTo 24 (natLe 8 0x4000 ++ natLe 4 4096 ++ natLe 2 1), waitTally := 0, peer := 0, waitValue := 0 }

/-- A started command that is to write the context record at 0x4000. -/
def recordWriter : Cmd :=
  { tag := 0, issuer := .driver 0, desc := { unownedCompress with tally := 768 }, tally := 768, todo := [], pages := []
    resultLen := 0, info := 0, status := 0, unpublished := false, heldRecord := false, engine := some 0
    ctxOut := some (.module 0x4000), fate := none, waitPeer := false }

/-- Channel 0, in driver mode for function 0, with the one command started and the other queued behind it. -/
def recordAwaited : State :=
  { State.reset with
    sup := { mstate := .run }
    rtv := { chans := [(0, { mode := 2, driverQ := [unownedCompress], started := [recordWriter] })] } }

/-- No host answer and no bad granule. -/
def plainArgs : StartArgs := { queue := 0, host := [], hostFail := false, ue := [] }

theorem recordAwaited_starting : recordAwaited.starting 0 8 plainArgs [] =
    some (recordAwaited.driverStart 0 unownedCompress plainArgs [],
      recordAwaited.modChan 0 fun x => { x with driverQ := [] }) :=
  starting_of_driver plainArgs [] (by decide) (by decide) (by decide) (by decide) (by decide) (by decide)

theorem recordAwaited_startFault : (recordAwaited.modChan 0 fun x => { x with driverQ := [] }).startFault
    (recordAwaited.driverStart 0 unownedCompress plainArgs []) = some (.code 11) := by decide

theorem recordAwaited_waits : exec (.dictCompress 0 plainArgs) recordAwaited = .next recordAwaited := by
  have hform : unownedCompress.formOk (.driver 0) = true := by decide
  have hbusy : recordAwaited.recordBusy (recordAwaited.driverStart 0 unownedCompress plainArgs []) = true := by decide
  exact congrArg Host.Outcome.next (startRow_of_recordBusy recordAwaited_starting (by decide) hform hbusy)

/-- Refutes O25: a driver's DICT_COMPRESS that would fail with E-RTV-11 waits, as R440 says, while a started command is to
write the record it names; the third clause asks for its failure at once, and with it for the halt of a channel that runs. -/
theorem not_commandsStartAndTakeATag : ¬ Obligations.CommandsStartAndTakeATag := by
  intro h
  have hrow : startsOn (.dictCompress 0 plainArgs) 8 0 plainArgs [] := by simp [startsOn]
  obtain ⟨-, -, hfails⟩ := h recordAwaited 0 8 plainArgs [] _ hrow
  obtain ⟨t, hexec, hhalted, -⟩ := hfails _ _ 11 0 recordAwaited_starting recordAwaited_startFault rfl rfl
  rw [recordAwaited_waits] at hexec
  cases hexec
  exact absurd hhalted (by decide)

end Sys2Proof.Machine
end

section
/-!
Registers of a Retriever channel (R270, R273, R283, R496): what the end of a driver's command leaves alone, and what each
register command does.
-/
namespace Sys2Proof.Machine
open Sys2Proof

/-! ### Reports count no tally -/

theorem State.chan_congr {s t : State} (h : t.rtv = s.rtv) (ch : Nat) : t.chan ch = s.chan ch := by simp [State.chan, h]

theorem State.tally_congr {s t : State} (h : t.mem.tallies = s.mem.tallies) (n : Nat) : t.tally n = s.tally n := by
  simp [State.tally, h]

theorem State.tally_setTally_other (s : State) (k n : Nat) (v : Word) (h : n ≠ k) : (s.setTally k v).tally n = s.tally n := by
  simp [State.tally, State.setTally, Tab.getD_put_other _ _ _ _ _ h]

theorem setChan_keeps (s : State) (ch : Nat) (x : Chan) : Keeps [.rtv] s (s.setChan ch x) := by
  intro p hp; cases p <;> simp_all [Part.same]

theorem setTally_keeps (s : State) (k : Nat) (v : Word) : Keeps [.mem] s (s.setTally k v) := by
  intro p hp; cases p <;> simp_all [Part.same]

theorem hostWrite_keeps (s : State) (f a : Nat) (d : List Byte) : Keeps [.out] s (s.hostWrite f a d) := emitIf_keeps _ _ _

theorem writeDev_keeps (s : State) (a : Nat) (d : List Byte) : Keeps [.mem] s (s.writeDev a d) := by
  intro p hp; cases p <;> simp_all [Part.same, State.writeDev]

@[simp] theorem write_tallies (s : State) (a : Nat) (d : List Byte) : (s.write a d).mem.tallies = s.mem.tallies := by
  unfold State.write
  split <;> rfl

theorem ringPut_tallies (s : State) (f : Nat) (r : Rec) : (s.ringPut f r).mem.tallies = s.mem.tallies := by
  unfold State.ringPut
  dsimp only
  split
  · rfl
  · simp
  · simp
  · split <;> split <;> simp

theorem ringStep_tallies (rep : Ev → State → State) (hrep : ∀ e s, (rep e s).mem.tallies = s.mem.tallies) (r : Rec)
    (s : State) (f : Nat) : (ringStep rep r s f).mem.tallies = s.mem.tallies := by
  have hput := ringPut_tallies s f r
  unfold ringStep
  split
  · dsimp only
    rw [hrep]
    split
    · rw [hrep]
      exact hput
    · exact hput
  · exact hput

theorem foldl_tallies {α : Type} (g : State → α → State) (h : ∀ s a, (g s a).mem.tallies = s.mem.tallies) (xs : List α) :
    ∀ s, (xs.foldl g s).mem.tallies = s.mem.tallies := by
  induction xs with
  | nil => exact fun s => rfl
  | cons x r ih => exact fun s => (ih _).trans (h s x)

theorem reportWith_tallies (n : Nat) : ∀ (e : Ev) (s : State), (reportWith n e s).mem.tallies = s.mem.tallies := by
  induction n with
  | zero => exact fun e s => rfl
  | succ n ih =>
    intro e s
    have hraise : (s.raiseFor e).mem = s.mem := (raiseFor_keeps s e) .mem (by decide)
    have hshare : ∀ (t : State) (r : Rec), (if e.class = .unitFatal ∨ e.class = .moduleFatal then
        (t.fieldBookPut e.class r).platformEvent 0xF0 (r.bytes false) else t.fieldBookPut e.class r).mem = t.mem := by
      intro t r
      have hbook : (t.fieldBookPut e.class r).mem = t.mem := (fieldBookPut_keeps t e.class r) .mem (by decide)
      split
      · exact (platformEvent_keeps _ _ _ .mem (by decide)).trans hbook
      · exact hbook
    unfold reportWith
    dsimp only
    split
    · exact congrArg Mem.tallies hraise
    · rw [foldl_tallies _ (fun t f => ringStep_tallies _ ih _ t f), hshare]
      exact congrArg Mem.tallies hraise

/-! ### What the end of a driver's command may change, no tally counted -/

/-- What a driver's command that ends without success may change: the channel's registers and started commands, a link to a
peer and what a report changes; the channel's queue and every tally stand. -/
structure EndsUncounted (ch : Nat) (s t : State) : Prop where
  keeps : Keeps ([.rtv, .pck, .freeCount] ++ reportParts) s t
  queue : (t.chan ch).driverQ = (s.chan ch).driverQ
  tallies : t.mem.tallies = s.mem.tallies

namespace EndsUncounted
variable {ch : Nat} {s t u : State}

theorem rfl' (ch : Nat) (s : State) : EndsUncounted ch s s := ⟨Keeps.rfl' _ _, rfl, rfl⟩

theorem trans (h : EndsUncounted ch s t) (k : EndsUncounted ch t u) : EndsUncounted ch s u :=
  ⟨h.keeps.trans' k.keeps, k.queue.trans h.queue, k.tallies.trans h.tallies⟩

theorem foldl {α : Type} (g : State → α → State) (h : ∀ s a, EndsUncounted ch s (g s a)) (xs : List α) :
    ∀ s, EndsUncounted ch s (xs.foldl g s) := by
  induction xs with
  | nil => exact fun s => rfl' ch s
  | cons x r ih => exact fun s => (h s x).trans (ih _)

theorem of_keeps {l : List Part} (h : Keeps l s t) (hl : ∀ p ∈ l, p ∈ [Part.pck, .freeCount] ++ reportParts)
    (htallies : t.mem.tallies = s.mem.tallies) : EndsUncounted ch s t :=
  ⟨h.mono fun p hp => List.mem_cons_of_mem _ (hl p hp),
    by rw [State.chan_congr (h .rtv fun hp => absurd (hl _ hp) (by decide))], htallies⟩

theorem of_report (h : Keeps reportParts s t) (htallies : t.mem.tallies = s.mem.tallies) : EndsUncounted ch s t :=
  of_keeps h (fun _ hp => List.mem_append_right _ hp) htallies

theorem setChan {x : Chan} (h : x.driverQ = (s.chan ch).driverQ) : EndsUncounted ch s (s.setChan ch x) :=
  ⟨(setChan_keeps s ch x).mono (by simp), by rw [State.chan_setChan, h], rfl⟩

theorem modChan {g : Chan → Chan} (h : ∀ x, (g x).driverQ = x.driverQ) : EndsUncounted ch s (s.modChan ch g) := setChan (h _)

theorem report {e : Ev} (h : e.class ≠ .moduleFatal) : EndsUncounted ch s (s.report e) := by
  rw [report_eq s e fun hfatal => absurd hfatal h]
  exact of_report (reportWith_keeps 3 e s) (reportWith_tallies 3 e s)

theorem deny {cls page : Nat} {write : Bool} {f ctx frame : Option Nat} :
    EndsUncounted ch s (s.deny cls page write .reportOnly f ctx frame) := by
  have hcount : EndsUncounted ch s (s.countDenial cls page write).2 :=
    of_keeps (countDenial_keeps s cls page write) (by simp [reportParts]) rfl
  unfold State.deny
  dsimp only
  split
  · exact hcount.trans (report (by simp [denialEv, Ev.class]))
  · exact hcount

theorem memError {nn g source : Nat} {newly : Bool} {e : Ev} (h : e.cls = some .reportOnly) :
    EndsUncounted ch s (s.memError nn g source newly e) := by
  refine of_report (memError_keeps s nn g source newly e .reportOnly h (by decide)) ?_
  unfold State.memError
  rw [report_eq _ _ (by simp [Ev.class, h]), reportWith_tallies]
  cases newly <;> rfl

theorem sendMember {m : Nat} {b : Bool} {o : Out} : EndsUncounted ch s (s.sendMember m b o) := by
  have hkeeps := sendMember_keeps s m b o
  exact of_keeps hkeeps (by simp [reportParts]) (congrArg Mem.tallies (hkeeps .mem (by decide)))

theorem tellPeer {k : Cmd} : EndsUncounted ch s (s.tellPeer k) := by
  unfold State.tellPeer
  split
  · exact sendMember
  · exact rfl' ch s

theorem cmdMsix {k : Cmd} : EndsUncounted ch s (s.cmdMsix k) := by
  unfold State.cmdMsix
  split
  · exact of_keeps (msix_keeps _ _ _) (by simp [reportParts]) (by rw [State.msix_mem])
  · exact rfl' ch s

theorem takeFree : EndsUncounted ch s s.takeFree := of_keeps (takeFree_keeps s) (by simp) rfl

theorem hostWrite {f a : Nat} {d : List Byte} : EndsUncounted ch s (s.hostWrite f a d) :=
  of_keeps (hostWrite_keeps s f a d) (by simp [reportParts]) (by rw [State.hostWrite_mem])

theorem writeDev {a : Nat} {d : List Byte} : EndsUncounted ch s (s.writeDev a d) :=
  of_keeps (writeDev_keeps s a d) (by simp [reportParts]) rfl

/-- A completion record is written, or its place is denied or poisoned and the channel halts (R273, R623, R254). -/
theorem putCompletion {fn v : Nat} {k : Cmd} (hdriver : k.issuer = .driver fn) :
    EndsUncounted ch s (s.putCompletion ch fn k v) := by
  unfold State.putCompletion
  dsimp only
  split
  · refine .trans ?_ hostWrite
    exact setChan rfl
  · split
    · refine .trans ?_ (report (by simp [Ev.class, Ev.err, Err.cls]))
      refine .trans ?_ deny
      exact setChan rfl
    · split
      · refine .trans ?_ (memError (by rw [hdriver]; rfl))
        exact setChan rfl
      · refine .trans ?_ writeDev
        exact setChan rfl

theorem endDriver {fn : Nat} {k : Cmd} (hdriver : k.issuer = .driver fn) (hbad : k.succeeded = false) :
    EndsUncounted ch s (s.endDriver ch fn k) := by
  have hrecord : EndsUncounted ch s (if k.desc.record then s.putCompletion ch fn k 0 else s) := by
    split
    · exact putCompletion hdriver
    · exact rfl' ch s
  have hfailed : ∀ (b : Bool) (t : State),
      EndsUncounted ch t (if b then t.modChan ch fun x => { x with failed := satInc x.failed } else t) := by
    intro b t
    split
    · exact modChan fun _ => rfl
    · exact rfl' ch t
  simp only [State.endDriver, hbad, Bool.false_and, Bool.false_eq_true, if_false]
  exact ((hrecord.trans (hfailed _ _)).trans cmdMsix).trans (modChan fun _ => rfl)

theorem finishDriver {fn : Nat} {k : Cmd} (hdriver : k.issuer = .driver fn) (hbad : k.succeeded = false) :
    EndsUncounted ch s (s.finishDriver ch fn k) := by
  unfold State.finishDriver
  split
  · exact modChan fun _ => rfl
  · exact endDriver hdriver hbad

theorem cancelDriver {fn : Nat} {k : Cmd} (hdriver : k.issuer = .driver fn) :
    EndsUncounted ch s (s.cancelDriver ch fn k) := by
  have hclass : ∀ (t : State) (d : List Nat), (t.cmdEv ch k.issuer .rtv 12 .reportOnly d).class ≠ .moduleFatal := by
    intro t d h
    rw [hdriver] at h
    cases h
  unfold State.cancelDriver
  dsimp only
  refine .trans ?_ (finishDriver hdriver rfl)
  refine .trans ?_ takeFree
  refine .trans ?_ (report (hclass _ _))
  refine .trans (tellPeer (k := k)) ?_
  exact modChan fun _ => rfl

end EndsUncounted

/-! ### RESUME and DROP (R283) -/

section
variable {s : State} {fn ch : Nat}

theorem hostReach_alive (hreach : s.hostReach fn = true) : s.alive = true := by
  simp only [State.hostReach, Bool.and_eq_true] at hreach
  exact hreach.1.1

theorem exec_channelResume (hreach : s.hostReach fn = true) (hown : s.ownsChan fn ch = true) :
    exec (.channelResume fn ch) s = .next (s.modChan ch fun x => { x with halted := false }) := by
  simp [exec, execChannelResume, hreach, hown]

theorem exec_channelDrop (hreach : s.hostReach fn = true) (hown : s.ownsChan fn ch = true) :
    exec (.channelDrop fn ch) s = .next ((s.dropQueued ch fn).modChan ch fun x => { x with halted := false }) := by
  simp [exec, execChannelDrop, hreach, hown]

theorem dropQueued_ends (s : State) (ch fn : Nat) :
    EndsUncounted ch (s.modChan ch fun x => { x with driverQ := [] }) (s.dropQueued ch fn) :=
  .foldl _ (fun _ _ => .cancelDriver rfl) _ _

theorem dropQueued_queue (s : State) (ch fn : Nat) : ((s.dropQueued ch fn).chan ch).driverQ = [] := by
  rw [(dropQueued_ends s ch fn).queue, State.modChan_eq, State.chan_setChan]

theorem dropQueued_keeps (s : State) (ch fn : Nat) :
    Keeps ([.rtv, .pck, .freeCount] ++ reportParts) s (s.dropQueued ch fn) :=
  ((setChan_keeps s ch _).mono (by simp)).trans' (dropQueued_ends s ch fn).keeps

theorem channelDrop_empties (hreach : s.hostReach fn = true) (hown : s.ownsChan fn ch = true) :
    ∃ t, exec (.channelDrop fn ch) s = .next t ∧ (t.chan ch).driverQ = [] ∧ (t.chan ch).halted = false ∧
      t.mem.tallies = s.mem.tallies ∧ Keeps ([.rtv, .pck, .freeCount] ++ reportParts) s t := by
  refine ⟨_, exec_channelDrop hreach hown, ?_, ?_, (dropQueued_ends s ch fn).tallies,
    (dropQueued_keeps s ch fn).trans' ((setChan_keeps _ _ _).mono (by simp))⟩
  · rw [State.modChan_eq, State.chan_setChan]
    exact dropQueued_queue s ch fn
  · rw [State.modChan_eq, State.chan_setChan]

/-! ### RTV_TALLY_VAL (R270) -/

theorem exec_tallyValueWrite {k : Nat} (v : Word) (hreach : s.hostReach fn = true)
    (hk : k = tallyKey ((s.fn fn).tallySel.toNat / 1024) ((s.fn fn).tallySel.toNat % 1024)) (hown : s.ownsTally fn k = true) :
    exec (.tallyValueWrite fn v) s = .next (if s.rtv.chans.any (fun p => p.2.names k) then
      (s.modChan ((tallyOwner k).getD 0) fun x => { x with fieldLocked := true, lastErr := 10 }).lockedRecord
        .rtv 10 fn 0x81000C v.toNat
      else s.setTally k v) := by
  subst hk
  simp only [exec, execTallyValueWrite, hreach, hown, Bool.not_true, Bool.false_eq_true, if_false]
  split <;> rfl

theorem tallyValueWrite_sets {k : Nat} (v : Word) (hreach : s.hostReach fn = true)
    (hk : k = tallyKey ((s.fn fn).tallySel.toNat / 1024) ((s.fn fn).tallySel.toNat % 1024)) (hown : s.ownsTally fn k = true)
    (hfree : s.rtv.chans.any (fun p => p.2.names k) = false) :
    ∃ t, exec (.tallyValueWrite fn v) s = .next t ∧ t.tally k = v ∧ (∀ n, n ≠ k → t.tally n = s.tally n) ∧
      Keeps [.mem] s t := by
  refine ⟨_, exec_tallyValueWrite v hreach hk hown, ?_⟩
  rw [hfree, if_neg Bool.false_ne_true]
  exact ⟨State.tally_setTally s k v, fun n hn => State.tally_setTally_other s k n v hn, setTally_keeps s k v⟩

theorem lockedRecord_rtv (s : State) (off value : Nat) : s.lockedRecord .rtv 10 fn off value =
    reportWith 3 { blk := .rtv, nn := 10, func := some fn, detail := [off, value % 2 ^ 32] } s :=
  report_eq _ _ (by intro h; cases h)

theorem tallyValueWrite_locked {k : Nat} (v : Word) (hreach : s.hostReach fn = true)
    (hk : k = tallyKey ((s.fn fn).tallySel.toNat / 1024) ((s.fn fn).tallySel.toNat % 1024)) (hown : s.ownsTally fn k = true)
    (hnamed : s.rtv.chans.any (fun p => p.2.names k) = true) :
    ∃ t, exec (.tallyValueWrite fn v) s = .next t ∧ t.mem.tallies = s.mem.tallies ∧
      (t.chan ((tallyOwner k).getD 0)).fieldLocked = true ∧
      Records s t ⟨.rtv, 10⟩ .reportOnly .none [0x81000C, v.toNat] ∧ Keeps ([.rtv] ++ reportParts) s t := by
  refine ⟨_, exec_tallyValueWrite v hreach hk hown, ?_⟩
  rw [hnamed, if_pos rfl, lockedRecord_rtv, Nat.mod_eq_of_lt v.isLt]
  refine ⟨reportWith_tallies _ _ _, ?_, records_of_before (reportWith_records 2 _ _) id rfl,
    ((setChan_keeps _ _ _).mono (by simp)).trans' ((reportWith_keeps _ _ _).mono (by simp_all))⟩
  rw [State.chan_congr (reportWith_rtv _ _ _), State.modChan_eq, State.chan_setChan]

/-! ### The record ring's consumer index (R273, R496) -/

theorem exec_crecTailWrite (v : Word) (hreach : s.hostReach fn = true) (hown : s.ownsChan fn ch = true) :
    exec (.crecTailWrite fn ch v) s = .next (
      if consumerOk (s.chan ch).recordSize (s.chan ch).tail.toNat (v.toNat % 65536) (s.chan ch).head.toNat then
        s.setChan ch { s.chan ch with tail := BitVec.ofNat 16 (v.toNat % 65536) }
      else s.accessError fn) := by
  simp only [exec, execCrecTailWrite, hreach, hown, Bool.not_true, Bool.or_self, Bool.false_eq_true, if_false]
  split <;> rfl

theorem accessError_chan (s : State) (fn ch : Nat) : (s.accessError fn).chan ch = s.chan ch :=
  State.chan_congr ((accessError_keeps s fn) .rtv (by decide)) ch

theorem crecTailWrite_moves_or_errs (v : Word) (hreach : s.hostReach fn = true) (hown : s.ownsChan fn ch = true) :
    (consumerOk (s.chan ch).recordSize (s.chan ch).tail.toNat (v.toNat % 65536) (s.chan ch).head.toNat = true →
      ∃ t, exec (.crecTailWrite fn ch v) s = .next t ∧
        t.chan ch = { s.chan ch with tail := BitVec.ofNat 16 (v.toNat % 65536) } ∧ Keeps [.rtv] s t) ∧
    (consumerOk (s.chan ch).recordSize (s.chan ch).tail.toNat (v.toNat % 65536) (s.chan ch).head.toNat = false →
      ∃ t, exec (.crecTailWrite fn ch v) s = .next t ∧ t.chan ch = s.chan ch ∧
        Records s t ⟨.hst, 1⟩ .reportOnly .none [] ∧ Keeps reportParts s t) := by
  refine ⟨fun hok => ⟨_, exec_crecTailWrite v hreach hown, ?_⟩, fun hbad => ⟨_, exec_crecTailWrite v hreach hown, ?_⟩⟩
  · rw [hok, if_pos rfl]
    exact ⟨State.chan_setChan _ _ _, setChan_keeps _ _ _⟩
  · rw [hbad, if_neg Bool.false_ne_true]
    exact ⟨accessError_chan s fn ch, accessError_records s fn, accessError_keeps s fn⟩

/-! ### A held completion ends (R273) -/

/-- A channel whose record ring has taken one more record. -/
def Chan.recorded (x : Chan) : Chan :=
  { x with
    head := BitVec.ofNat 16 ((x.head.toNat + 1) % x.recordSize)
    phase := if (x.head.toNat + 1) % x.recordSize = 0 then !x.phase else x.phase }

theorem putCompletion_host (k : Cmd) (v : Nat) (hhost : (s.chan ch).crecHost = true) : s.putCompletion ch fn k v =
    (s.setChan ch (s.chan ch).recorded).hostWrite fn ((s.chan ch).crecAddr.toNat * 64 + 32 * (s.chan ch).head.toNat)
      (recordOf k ch v s.epoch.toNat (s.chan ch).phase) :=
  if_pos hhost

/-- A state with a succeeded command's record in the ring, where the command asks for one. -/
def State.withRecord (s : State) (ch fn : Nat) (k : Cmd) : State :=
  if k.desc.record then s.putCompletion ch fn k (s.tally k.tally + 1).toNat else s

theorem withRecord_effect (k : Cmd) (hhost : (s.chan ch).crecHost = true) :
    (s.withRecord ch fn k).chan ch = (if k.desc.record then (s.chan ch).recorded else s.chan ch) ∧
      Keeps [.rtv, .out] s (s.withRecord ch fn k) := by
  unfold State.withRecord
  split
  · rw [putCompletion_host k _ hhost]
    refine ⟨?_, ((setChan_keeps _ _ _).mono (by simp)).trans' ((hostWrite_keeps _ _ _ _).mono (by simp))⟩
    rw [State.chan_congr (State.hostWrite_rtv _ _ _ _), State.chan_setChan]
  · exact ⟨rfl, Keeps.rfl' _ _⟩

theorem cmdMsix_keeps (s : State) (k : Cmd) : Keeps [.fns, .out] s (s.cmdMsix k) := by
  unfold State.cmdMsix
  split
  · exact msix_keeps _ _ _
  · exact Keeps.rfl' _ _

/-- A channel that counts a command in DONE. -/
def Chan.counted (x : Chan) : Chan := { x with done := x.done + 1 }

/-- A channel whose command of a tag is no longer started. -/
def Chan.without (x : Chan) (tag : Nat) : Chan := { x with started := x.started.filter fun k => k.tag != tag }

theorem endDriver_of_succeeded (k : Cmd) (hgood : k.succeeded = true) (hhost : (s.chan ch).crecHost = true) :
    s.endDriver ch fn k =
      ((((s.withRecord ch fn k).incTally k.tally).modChan ch Chan.counted).cmdMsix k).modChan ch fun x => x.without k.tag := by
  simp only [State.endDriver, State.recordFits, hgood, hhost, Bool.true_or, Bool.or_true, Bool.not_true, Bool.false_eq_true,
    Bool.and_self, if_true, if_false]
  rfl

/-- The rest of a succeeded command's end: its tally and DONE counted, its message sent, its tag free. -/
theorem succeededEnd_effect (u : State) (ch : Nat) (k : Cmd) (t : State)
    (ht : t = (((u.incTally k.tally).modChan ch Chan.counted).cmdMsix k).modChan ch fun x => x.without k.tag) :
    t.tally k.tally = u.tally k.tally + 1 ∧ t.chan ch = (u.chan ch).counted.without k.tag ∧
      Keeps [.rtv, .mem, .fns, .out] u t := by
  subst ht
  have hmsix := cmdMsix_keeps ((u.incTally k.tally).modChan ch Chan.counted) k
  refine ⟨?_, ?_, ?_⟩
  · have hmem := congrArg Mem.tallies (hmsix .mem (by decide))
    exact (State.tally_congr hmem _).trans (State.tally_setTally _ _ _)
  · rw [State.modChan_eq, State.chan_setChan, State.chan_congr (hmsix .rtv (by decide)), State.modChan_eq, State.chan_setChan]
    rfl
  · have hcount : Keeps [.rtv, .mem, .fns, .out] u (u.incTally k.tally) := (setTally_keeps _ _ _).mono (by simp)
    exact ((hcount.trans' ((setChan_keeps _ _ _).mono (by simp))).trans' (hmsix.mono (by simp))).trans'
      ((setChan_keeps _ _ _).mono (by simp))

theorem endDriver_of_succeeded_effect (k : Cmd) (hgood : k.succeeded = true) (hhost : (s.chan ch).crecHost = true) :
    (s.endDriver ch fn k).tally k.tally = s.tally k.tally + 1 ∧
      (s.endDriver ch fn k).chan ch = (if k.desc.record then (s.chan ch).recorded else s.chan ch).counted.without k.tag ∧
      Keeps [.rtv, .mem, .fns, .out] s (s.endDriver ch fn k) := by
  obtain ⟨hchan, hkeeps⟩ := withRecord_effect (fn := fn) k hhost
  obtain ⟨htally, hend, hrest⟩ := succeededEnd_effect (s.withRecord ch fn k) ch k _ (endDriver_of_succeeded k hgood hhost)
  have hmem := congrArg Mem.tallies (hkeeps .mem (by decide))
  refine ⟨?_, ?_, (hkeeps.mono (by simp)).trans' hrest⟩
  · rw [htally, State.tally_congr hmem]
  · rw [hend, hchan]

theorem exec_recordRingRelease {k : Cmd} {f : Nat} (halive : s.alive = true)
    (hheld : (s.chan ch).started.find? (fun y => y.heldRecord) = some k) (hdriver : k.issuer = .driver f)
    (hroom : (s.chan ch).recordFull = false) :
    exec (.recordRingRelease ch) s = .next (s.endDriver ch f { k with heldRecord := false }) := by
  simp [exec, execRecordRingRelease, State.releaseHeld, halive, hheld, hdriver, hroom]

theorem recordRingRelease_ends {k : Cmd} {f : Nat} (halive : s.alive = true)
    (hheld : (s.chan ch).started.find? (fun y => y.heldRecord) = some k) (hdriver : k.issuer = .driver f)
    (hroom : (s.chan ch).recordFull = false) (hgood : k.succeeded = true) (hhost : (s.chan ch).crecHost = true) :
    ∃ t, exec (.recordRingRelease ch) s = .next t ∧ t.tally k.tally = s.tally k.tally + 1 ∧
      (t.chan ch).started = (s.chan ch).started.filter (fun y => y.tag != k.tag) ∧
      (k.desc.record = true → (t.chan ch).head.toNat = ((s.chan ch).head.toNat + 1) % (s.chan ch).recordSize % 65536) ∧
      Keeps [.rtv, .mem, .fns, .out] s t := by
  obtain ⟨htally, hchan, hkeeps⟩ := endDriver_of_succeeded_effect (fn := f) { k with heldRecord := false } hgood hhost
  refine ⟨_, exec_recordRingRelease halive hheld hdriver hroom, htally, ?_, fun hrecord => ?_, hkeeps⟩
  · rw [hchan]
    cases k.desc.record <;> rfl
  · rw [hchan, if_pos hrecord]
    exact BitVec.toNat_ofNat _ _

end

/-- Settles O28: a driver's command that ends without success counts no tally and leaves the queue, so DROP may end them all;
each other register command is its own equation. -/
theorem channelRegistersAct : Obligations.ChannelRegistersAct := by
  intro s fn ch hreach
  refine ⟨fun hown => ?_, channelDrop_empties hreach, fun v k hk hown => ?_, fun v => crecTailWrite_moves_or_errs v hreach,
    fun k f hheld hdriver hroom => recordRingRelease_ends (hostReach_alive hreach) hheld hdriver hroom⟩
  · exact ⟨_, exec_channelResume hreach hown, State.chan_setChan _ _ _, setChan_keeps _ _ _⟩
  · exact ⟨tallyValueWrite_sets v hreach hk hown, tallyValueWrite_locked v hreach hk hown⟩

end Sys2Proof.Machine
end

section
/-!
The Herder's shared rules: a function's copy of a context's status read back, changes of the module's state, and lines dropped
from the caches as a context sees them (R231, R232, R324).
-/
namespace Sys2Proof.Machine
open Sys2Proof

/-! ### HRD_CTX_STATUS as a function sees it (R324) -/

section
variable (s : State) (fn c : Nat) (g : CtxStat → CtxStat)

theorem modStat_keeps : Keeps [.fns] s (s.modStat fn c g) := setFn_keeps s fn _

theorem modStat_atHost (h : ringsAtHost s = true) : ringsAtHost (s.modStat fn c g) = true :=
  ringsAtHost_setFn s h fn _ (ringsAtHost_fn s h fn)

@[simp] theorem State.ctxStat_modStat : (s.modStat fn c g).ctxStat fn c = g (s.ctxStat fn c) := by
  simp [State.ctxStat, State.modStat]

@[simp] theorem State.mem_modStat : (s.modStat fn c g).mem = s.mem := rfl

@[simp] theorem State.ctx_modStat (k : Nat) : (s.modStat fn c g).ctx k = s.ctx k := rfl

end

theorem SameSettings.ctxStat {s t : State} (h : SameSettings s t) (fn c : Nat) : t.ctxStat fn c = s.ctxStat fn c := by
  have hstats : (t.fn fn).hrd.stats = (s.fn fn).hrd.stats := congrArg (fun g => g.hrd.stats) (h fn)
  rw [State.ctxStat, hstats, State.ctxStat]

/-- No E-HRD code takes the module to HOLD: its report is the shared one. -/
theorem report_hrdCode (s : State) (e : Ev) (hblk : e.blk = .hrd) (hcls : e.cls = none) : s.report e = reportWith 3 e s := by
  have hclass : e.class ≠ .moduleFatal := by
    rw [Ev.class, hcls, Ev.err, hblk]
    simp only [Option.getD_none, Err.cls]
    split
    · decide
    · split
      · decide
      · split <;> decide
  exact report_eq s e fun hfatal => absurd hfatal hclass

/-! ### HRD_CTX_CMD.OP as written, and READY and RUN (Table 17.1) -/

/-- A function that has written OP of HRD_CTX_CMD. -/
def State.opWritten (s : State) (fn : Nat) (op : BitVec 2) : State :=
  s.modFn fn fun g => { g with hrd := { g.hrd with op := op } }

@[simp] theorem State.ctx_opWritten (s : State) (fn : Nat) (op : BitVec 2) (c : Nat) : (s.opWritten fn op).ctx c = s.ctx c := rfl

theorem opWritten_keeps (s : State) (fn : Nat) (op : BitVec 2) : Keeps [.fns] s (s.opWritten fn op) := setFn_keeps s fn _

theorem toState_keeps (s : State) (m : ModState) : Keeps [.sup, .hnd, .out] s (s.toState m) := by
  unfold State.toState
  split
  · exact Keeps.rfl' _ _
  · refine Keeps.trans' (t := { s with sup := { s.sup with mstate := m } }) ?_
      (((platformEvent_keeps _ _ _).mono (by simp)).trans' ((smbusSettled_keeps _ _).mono (by simp)))
    intro p hp; cases p <;> simp_all [Part.same]

theorem settleRun_keeps (s : State) : Keeps [.sup, .hnd, .out] s s.settleRun := by
  unfold State.settleRun
  dsimp only
  split
  · split
    · exact toState_keeps s _
    · exact Keeps.rfl' _ _
  · split
    · exact Keeps.rfl' _ _
    · exact toState_keeps s _
  · exact Keeps.rfl' _ _

/-! ### Lines dropped from the caches, as a context sees them (R232) -/

theorem State.ctx_dropLines (s : State) (p : Nat → Bool) (c : Nat) : (s.dropLines p).ctx c = (s.ctx c).dropFills p := by
  simp only [State.ctx, State.dropLines, Tab.getD, Tab.find?_mapVal]
  cases Tab.find? s.hrd.ctxs c <;> rfl

theorem Ctx.dropFills_of_idle {x : Ctx} (h : x.held = []) (p : Nat → Bool) : x.dropFills p = x := by
  calc x.dropFills p = { x with held := (x.dropFills p).held } := rfl
    _ = x := by rw [show (x.dropFills p).held = x.held by simp [Ctx.dropFills, h]]

end Sys2Proof.Machine
end

section
/-!
Admission: the settings a request is judged with, the context and the memory it takes, and a refused request's code (R286 to
R288, R303, Table 17.6).
-/
namespace Sys2Proof.Machine
open Sys2Proof

/-! ### A request and its verdict -/

section
variable (s : State) (fn : Nat)

theorem takeRegs_keeps (c : Nat) : Keeps [.hrd] s (s.takeRegs fn c) := by
  unfold State.takeRegs
  split
  · exact modCtx_keeps _ _ _
  · exact Keeps.rfl' _ _

theorem takeRegs_st (c : Nat) : ((s.takeRegs fn c).ctx c).st = (s.ctx c).st := by
  unfold State.takeRegs
  split
  · rw [State.modCtx_eq, State.ctx_setCtx]; rfl
  · rfl

theorem asked_keeps : Keeps [.fns, .hrd] s (asked s fn) :=
  ((setFn_keeps s fn _).mono (by simp)).trans' ((takeRegs_keeps _ _ _).mono (by simp))

theorem asked_st : ((asked s fn).ctx (s.fn fn).hrd.ctxSel.toNat).st = (s.ctx (s.fn fn).hrd.ctxSel.toNat).st :=
  takeRegs_st _ _ _

theorem asked_atHost (h : ringsAtHost s = true) : ringsAtHost (asked s fn) = true := by
  rw [asked, ringsAtHost_congr (takeRegs_keeps _ _ _ .fns (by decide))]
  exact ringsAtHost_setFn s h fn _ (ringsAtHost_fn s h fn)

end

/-- In SHUTDOWN-A the request waits, OP 1 written and BUSY set (Table 17.6). -/
def State.askKept (s : State) (fn : Nat) : State :=
  let t := s.opWritten fn 1
  let c := (s.fn fn).hrd.ctxSel.toNat
  State.modStat { t with hrd := { t.hrd with asks := t.hrd.asks ++ [(fn, c)] } } fn c fun x => { x with busy := true }

theorem askKept_keeps (s : State) (fn : Nat) : Keeps [.fns, .hrd] s (s.askKept fn) := by
  intro p hp; cases p <;> simp_all [Part.same, State.askKept, State.opWritten, State.modStat]

section
variable {s : State} {fn : Nat} (hreach : s.hostReach fn = true) (hidle : s.goBusy fn = false)
include hreach hidle

theorem exec_contextAdmit_judged (ue : UeList) (hstate : s.sup.mstate ≠ .shutdownA) : exec (.contextAdmit ⟨fn, ue⟩) s =
    .next (((asked s fn).judgeAsk ue fn (s.fn fn).hrd.ctxSel.toNat).modStat fn (s.fn fn).hrd.ctxSel.toNat
      fun x => { x with busy := false }) := by
  simp only [exec, execContextAdmit, hreach, hidle, Bool.not_true, Bool.or_self, Bool.false_eq_true, if_false]
  exact if_neg hstate

theorem exec_contextAdmit_kept (ue : UeList) (hstate : s.sup.mstate = .shutdownA) :
    exec (.contextAdmit ⟨fn, ue⟩) s = .next (s.askKept fn) := by
  simp only [exec, execContextAdmit, hreach, hidle, Bool.not_true, Bool.or_self, Bool.false_eq_true, if_false]
  exact if_pos hstate

end

/-! ### An admission that nothing refuses (R288) -/

section
variable (s : State) (fn c : Nat) (l : Loaded) (m : TmplRec) (base : Nat)

/-- A context as an admission makes it: its settings, its function, its memory and its key, and no frame. -/
def Ctx.admitted (x : Ctx) (fn : Nat) (l : Loaded) (m : TmplRec) (base : Nat) (rings : List (Option Nat)) (pinBad : Bool) : Ctx :=
  { x.cleared with
    st := .admitted, func := fn, base := base, len := m.instKib * 1024, gen := l.gen, tmpl := x.template.toNat
    key := deriveKey x.seed, rings := rings, spanPin := if pinBad then 0 else x.spanPin }

/-- The span pin of a context is refused for a template. -/
def State.pinBad (s : State) (c : Nat) (m : TmplRec) : Bool := !s.pinValid m (s.ctx c).spanPin.toNat

/-- The context admitted and its memory zero, before a refused pin is reported. -/
def State.contextTaken : State :=
  ((s.modCtx c fun x => x.admitted fn l m base (s.ringsOf fn c) (s.pinBad c m)).modStat fn c fun _ => {}).zeroDev base
    (heapBytes m.instKib)

/-- A refused span pin reads 0 and is reported (R303). -/
def State.pinRefused (s : State) (fn c : Nat) : State :=
  State.hrdLocked (s.setCtxRegs fn c { s.ctxRegs fn c with spanPin := 0 }) fn (some c) 0x400030 (s.ctxRegs fn c).word

theorem takeContext_eq : s.takeContext fn c l m base = (if s.pinBad c m then (s.contextTaken fn c l m base).pinRefused fn c
    else s.contextTaken fn c l m base).settleRun := rfl

theorem contextTaken_ctx : (s.contextTaken fn c l m base).ctx c =
    (s.ctx c).admitted fn l m base (s.ringsOf fn c) (s.pinBad c m) := by
  rw [State.contextTaken, State.zeroDev, State.ctx_dropLines]
  refine (Ctx.dropFills_of_idle ?_ _).trans (State.ctx_setCtx _ _ _)
  exact congrArg Ctx.held (State.ctx_setCtx s c _)

theorem contextTaken_atHost (h : ringsAtHost s = true) : ringsAtHost (s.contextTaken fn c l m base) = true := by
  rw [State.contextTaken, State.zeroDev, ringsAtHost_congr (dropLines_keeps _ _ .fns (by decide))]
  exact modStat_atHost (s.modCtx c fun x => x.admitted fn l m base (s.ringsOf fn c) (s.pinBad c m)) fn c (fun _ => {}) h

theorem pinRefused_ctx (k : Nat) : (s.pinRefused fn c).ctx k = s.ctx k := hrdLocked_ctx _ _ _ _ _ _

theorem pinRefused_mem (h : ringsAtHost s = true) : (s.pinRefused fn c).mem = s.mem := by
  rw [State.pinRefused, hrdLocked_eq, (reportWith_atHost _ _ _ (hrdMarked_atHost _ _ _ ?_)).1,
    hrdMarked_keeps _ _ _ .mem (by decide)]
  · rfl
  · exact ringsAtHost_setFn s h fn _ (ringsAtHost_fn s h fn)

theorem takeContext_ctx : (s.takeContext fn c l m base).ctx c =
    (s.ctx c).admitted fn l m base (s.ringsOf fn c) (s.pinBad c m) := by
  rw [takeContext_eq, State.ctx_congr (congrArg Hrd.ctxs (settleRun_keeps _ .hrd (by decide)))]
  split
  · rw [pinRefused_ctx, contextTaken_ctx]
  · rw [contextTaken_ctx]

theorem takeContext_mem (h : ringsAtHost s = true) :
    (s.takeContext fn c l m base).mem = (s.contextTaken fn c l m base).mem := by
  rw [takeContext_eq, settleRun_keeps _ .mem (by decide)]
  split
  · exact pinRefused_mem _ _ _ (contextTaken_atHost s fn c l m base h)
  · rfl

/-- The heap's range reads as zeros, every other byte as before. -/
theorem takeContext_readByte (h : ringsAtHost s = true) (a : Nat) : readByte (s.takeContext fn c l m base).mem.bytes a =
    if base ≤ a ∧ a < base + heapBytes m.instKib then 0 else readByte s.mem.bytes a := by
  rw [takeContext_mem _ _ _ _ _ _ h]
  exact readByte_zeroCells _ _ _ _

end

theorem judgeAsk_of_accepted {s : State} {ue : UeList} {fn c : Nat} {l : Loaded} {m : TmplRec} {base : Nat}
    (haccept : s.admitRefusal ue fn c = none) (hasked : s.askedFor c = some (l, m))
    (halloc : s.heapAlloc (heapBytes m.instKib) = some base) : s.judgeAsk ue fn c = s.takeContext fn c l m base := by
  simp only [State.judgeAsk, haccept, hasked, halloc]

/-! ### A refused admission (R287, Table 8.3) -/

section
variable (s : State) (fn c nn : Nat)

theorem judgeAsk_of_refused {ue : UeList} (hrefuse : s.admitRefusal ue fn c = some ⟨.hrd, nn⟩) :
    s.judgeAsk ue fn c = s.admitRefused fn c ⟨.hrd, nn⟩ := by
  simp only [State.judgeAsk, hrefuse, reduceCtorEq, if_false]
  split <;> rfl

theorem admitRefused_hrd_eq : s.admitRefused fn c ⟨.hrd, nn⟩ =
    reportWith 3 { blk := .hrd, nn := nn, func := some fn, ctx := some c }
      (s.modStat fn c fun x => { x with code := BitVec.ofNat 8 nn }) := by
  simp only [State.admitRefused, reduceCtorEq, if_false]
  exact report_hrdCode _ _ rfl rfl

theorem admitRefused_hrd_keeps : Keeps reportParts s (s.admitRefused fn c ⟨.hrd, nn⟩) := by
  rw [admitRefused_hrd_eq]
  exact ((modStat_keeps _ _ _ _).mono (by simp [reportParts])).trans' (reportWith_keeps _ _ _)

theorem admitRefused_hrd_code : ((s.admitRefused fn c ⟨.hrd, nn⟩).ctxStat fn c).code = BitVec.ofNat 8 nn := by
  rw [admitRefused_hrd_eq, (reportWith_sameSettings _ _ _).ctxStat, State.ctxStat_modStat]

theorem admitRefused_hrd_records :
    Records s (s.admitRefused fn c ⟨.hrd, nn⟩) ⟨.hrd, nn⟩ (Err.cls ⟨.hrd, nn⟩) .none [] := by
  rw [admitRefused_hrd_eq]
  exact records_of_before (reportWith_records 2 _ _) (modStat_atHost _ _ _ _) rfl

end

/-- Settles O14: what an admission does beyond taking the context and zeroing its memory is a report at most, which leaves both;
a refusal is a report and its code. -/
theorem admissionTakesZeroedMemory : Obligations.AdmissionTakesZeroedMemory := by
  intro s fn hreach hidle
  refine ⟨?_, ?_, fun ue hstate => ?_⟩
  · rintro ue c l m base rfl hstate haccept hasked halloc hrings
    have hmem : (asked s fn).mem = s.mem := asked_keeps s fn .mem (by decide)
    have hbyte := takeContext_readByte (asked s fn) fn (s.fn fn).hrd.ctxSel.toNat l m base (asked_atHost s fn hrings)
    refine ⟨_, exec_contextAdmit_judged hreach hidle ue hstate, ?_⟩
    rw [judgeAsk_of_accepted haccept hasked halloc, State.ctx_modStat, takeContext_ctx, State.mem_modStat]
    refine ⟨rfl, rfl, rfl, rfl, rfl, rfl, rfl, fun a hlo hhi => ?_, fun a hout => ?_, ?_⟩
    · exact (hbyte a).trans (if_pos ⟨hlo, hhi⟩)
    · exact (hbyte a).trans ((if_neg (by omega)).trans (by rw [hmem]))
    · rw [takeContext_mem _ _ _ _ _ _ (asked_atHost s fn hrings), ← hmem]
      rfl
  · rintro ue c nn rfl hstate hrefuse hfree
    refine ⟨_, exec_contextAdmit_judged hreach hidle ue hstate, ?_⟩
    rw [judgeAsk_of_refused _ _ _ _ hrefuse, State.ctx_modStat, State.ctxStat_modStat]
    have hkeeps := admitRefused_hrd_keeps (asked s fn) fn (s.fn fn).hrd.ctxSel.toNat nn
    refine ⟨?_, admitRefused_hrd_code _ _ _ _, rfl, records_of_after (records_of_before
      (admitRefused_hrd_records _ _ _ _) (asked_atHost s fn) (asked_keeps s fn .erl (by decide)))
      (modStat_keeps _ _ _ _ .erl (by decide))⟩
    rw [State.ctx_congr (congrArg Hrd.ctxs (hkeeps .hrd (by decide))), asked_st, hfree]
  · refine ⟨_, exec_contextAdmit_kept hreach hidle ue hstate, rfl, ?_, rfl, askKept_keeps s fn⟩
    rw [State.askKept, State.ctxStat_modStat]

end Sys2Proof.Machine
end

section
/-!
What the operations on frames and streams leave of a context: a fact about a context that does not turn on its held frames
stands when its run is stopped and the cores choose anew, and one that does not turn on its stream when units join it.
-/
namespace Sys2Proof.Machine
open Sys2Proof

/-! ### Held frames -/

section
variable {α : Type} (π : Ctx → α) (hπ : ∀ x l, π { x with held := l } = π x)
include hπ

theorem modHead_ctx_map (s : State) (c : Nat) (g : Frame → Frame) (k : Nat) : π ((s.modHead c g).ctx k) = π (s.ctx k) := by
  by_cases hk : k = c
  · subst hk
    rw [State.ctx_modHead, Ctx.modHead, hπ]
  · exact congrArg π (State.ctx_setCtx_other _ _ _ _ hk)

theorem scheduleAll_ctx_map (s : State) (l : List Nat) (k : Nat) : π ((s.scheduleAll l).ctx k) = π (s.ctx k) := by
  refine List.foldlRecOn (motive := fun t : State => π (t.ctx k) = π (s.ctx k)) _ _ rfl fun t ht j _ =>
    schedule_induction (P := fun t : State => π (t.ctx k) = π (s.ctx k)) t j ht ?_ ?_
  · intro t d u n ht
    exact (modHead_ctx_map π hπ t d _ k).trans ht
  · intro t i ht
    exact ht

theorem cancelRun_ctx_map (s : State) (c : Nat) (record : Bool) (k : Nat) :
    π ((s.cancelRun c record).ctx k) = π (s.ctx k) := by
  rcases cancelRun_hrd s c record with heq | heq
  · rw [State.ctx_congr (congrArg Hrd.ctxs heq)]
  · rw [State.ctx_congr (congrArg Hrd.ctxs heq)]
    exact modHead_ctx_map π hπ s c _ k

theorem stopRun_ctx_map (s : State) (c : Nat) (record : Bool) (k : Nat) : π ((s.stopRun c record).ctx k) = π (s.ctx k) := by
  unfold State.stopRun
  split
  · rfl
  · rw [scheduleAll_ctx_map π hπ, modHead_ctx_map π hπ, cancelRun_ctx_map π hπ]

end

/-! ### The stream -/

section
variable {α : Type} (π : Ctx → α) (hπ : ∀ x y, π { x with stream := y } = π x)
include hπ

theorem modStream_ctx_map (s : State) (c : Nat) (g : StreamOut → StreamOut) (k : Nat) :
    π ((s.modCtx c fun x => { x with stream := g x.stream }).ctx k) = π (s.ctx k) := by
  by_cases hk : k = c
  · subst hk
    rw [State.modCtx_eq, State.ctx_setCtx, hπ]
  · exact congrArg π (State.ctx_setCtx_other _ _ _ _ hk)

theorem putUnit_ctx_map (s : State) (c : Nat) (u : List Byte) (g : StreamOut → StreamOut) (k : Nat) :
    π ((s.putUnit c u g).ctx k) = π (s.ctx k) := modStream_ctx_map π hπ s c g k

theorem putMarker_ctx_map (s : State) (c : Nat) (m : Nat × Nat × DWord) (k : Nat) :
    π ((s.putMarker c m).ctx k) = π (s.ctx k) := by
  unfold State.putMarker
  split
  · exact putUnit_ctx_map π hπ s c _ _ k
  · rfl

theorem flushMarkers_ctx_map (s : State) (c : Nat) (all : Bool) (k : Nat) :
    π ((s.flushMarkers c all).ctx k) = π (s.ctx k) := by
  unfold State.flushMarkers
  dsimp only
  split
  · rfl
  · exact List.foldlRecOn (motive := fun t : State => π (t.ctx k) = π (s.ctx k)) _ _
      (modStream_ctx_map π hπ s c (fun y => { y with waiting := _ }) k)
      fun t ht m _ => (putMarker_ctx_map π hπ t c m k).trans ht

theorem putEnd_ctx_map (s : State) (c k : Nat) : π ((s.putEnd c).ctx k) = π (s.ctx k) := by
  unfold State.putEnd
  dsimp only
  split
  · rw [putUnit_ctx_map π hπ, flushMarkers_ctx_map π hπ]
  · exact flushMarkers_ctx_map π hπ s c true k

end

end Sys2Proof.Machine
end

section
/-!
The end of a context: at once or after its frame, and its return to FREE with its routes gone (R84, R292).
-/
namespace Sys2Proof.Machine
open Sys2Proof

/-! ### ENDING (R292) -/

section
variable (s : State) (c : Nat)

/-- A context whose end begins is ENDING, its frames as they were. -/
theorem beginEnd_ctx (h : (s.ctx c).st ≠ .free) : (s.beginEnd c).ctx c = { s.ctx c with st := .ending } := by
  rw [State.beginEnd, State.ctx_congr (congrArg Hrd.ctxs (kickAudits_keeps _ .hrd (by decide))), State.modCtx_eq,
    State.ctx_setCtx, if_neg h]

/-- The context once its run is stopped and its frames are gone, before its stream's markers and its end. -/
def State.emptied : State := (s.stopRun c false).modCtx c fun x => { x with held := [], arriving := [] }

theorem endSilently_ends (h : (s.ctx c).st ≠ .free) :
    ((s.endSilently c).ctx c).st = .ending ∧ ((s.endSilently c).ctx c).held = [] ∧
      ((s.endSilently c).ctx c).arriving = [] := by
  have hctx : (s.emptied c).ctx c = { (s.stopRun c false).ctx c with held := [], arriving := [] } := State.ctx_setCtx _ _ _
  have hst : (((s.emptied c).flushMarkers c true).ctx c).st = (s.ctx c).st := by
    rw [flushMarkers_ctx_map Ctx.st (fun _ _ => rfl), hctx]
    exact stopRun_ctx_map Ctx.st (fun _ _ => rfl) s c false c
  have heq : (s.endSilently c).ctx c = { ((s.emptied c).flushMarkers c true).ctx c with st := .ending } :=
    beginEnd_ctx ((s.emptied c).flushMarkers c true) c (by rw [hst]; exact h)
  rw [heq]
  refine ⟨rfl, ?_, ?_⟩
  · exact (flushMarkers_ctx_map Ctx.held (fun _ _ => rfl) _ c true c).trans (congrArg Ctx.held hctx)
  · exact (flushMarkers_ctx_map Ctx.arriving (fun _ _ => rfl) _ c true c).trans (congrArg Ctx.arriving hctx)

theorem endCleanly_ends (h : (s.ctx c).st ≠ .free) :
    ((s.endCleanly c).ctx c).st = .ending ∧ ((s.endCleanly c).ctx c).held = [] ∧ ((s.endCleanly c).ctx c).arriving = [] :=
  endSilently_ends (s.putEnd c) c (by rw [putEnd_ctx_map Ctx.st (fun _ _ => rfl)]; exact h)

end

/-! ### The requests -/

/-- A context that ends after its current frame (OP 2). -/
def State.endsAfter (s : State) (c : Nat) : State := s.modCtx c fun x => { x with st := .ending, endAfter := true }

/-- A context that ends at once, whatever end it waited for before (OP 3). -/
def State.endsNow (s : State) (c : Nat) : State := (s.endSilently c).modCtx c fun x => { x with endAfter := false }

section
variable (s : State) (c : Nat)

theorem endsAfter_ctx : (s.endsAfter c).ctx c = { s.ctx c with st := .ending, endAfter := true } := State.ctx_setCtx _ _ _

theorem endsNow_ctx : (s.endsNow c).ctx c = { (s.endSilently c).ctx c with endAfter := false } := State.ctx_setCtx _ _ _

theorem endsAfter_keeps : Keeps [.hrd] s (s.endsAfter c) := modCtx_keeps _ _ _

end

theorem ownsCtx_not_free {s : State} {fn c : Nat} (hown : s.ownsCtx fn c = true) : (s.ctx c).st ≠ .free := by
  simp only [State.ownsCtx, Bool.and_eq_true, bne_iff_ne] at hown
  exact hown.1

/-- A context that its function owns and that is not ENDING already takes OP 2. -/
theorem endAfterFrame_allowed {s : State} {fn c : Nat} (hown : s.ownsCtx fn c = true) (hst : (s.ctx c).st ≠ .ending) :
    ¬(!(s.opWritten fn 2).ownsCtx fn c || ((s.opWritten fn 2).ctx c).st == .ending) = true := by
  have hown' : (s.opWritten fn 2).ownsCtx fn c = true := hown
  rw [hown', State.ctx_opWritten]
  simpa using hst

section
variable {s : State} {fn : Nat} (hreach : s.hostReach fn = true) (hidle : s.goBusy fn = false)
  (hown : s.ownsCtx fn (s.fn fn).hrd.ctxSel.toNat = true)
include hreach hidle hown

section
variable (hst : (s.ctx (s.fn fn).hrd.ctxSel.toNat).st ≠ .ending)
include hst

theorem exec_contextEndAfterFrame_current (hcur : ((s.ctx (s.fn fn).hrd.ctxSel.toNat).current?).isSome = true) :
    exec (.contextEndAfterFrame fn) s = .next ((s.opWritten fn 2).endsAfter (s.fn fn).hrd.ctxSel.toNat) := by
  simp only [exec, execContextEndAfterFrame, hreach, hidle, Bool.not_true, Bool.or_self, Bool.false_eq_true, if_false]
  exact (if_neg (endAfterFrame_allowed hown hst)).trans (if_pos hcur)

theorem exec_contextEndAfterFrame_idle (hcur : ((s.ctx (s.fn fn).hrd.ctxSel.toNat).current?).isSome = false) :
    exec (.contextEndAfterFrame fn) s = .next ((s.opWritten fn 2).endCleanly (s.fn fn).hrd.ctxSel.toNat) := by
  simp only [exec, execContextEndAfterFrame, hreach, hidle, Bool.not_true, Bool.or_self, Bool.false_eq_true, if_false]
  exact (if_neg (endAfterFrame_allowed hown hst)).trans (if_neg (by rw [← Bool.not_eq_true] at hcur; exact hcur))

end

theorem exec_contextEndNow : exec (.contextEndNow fn) s =
    .next ((s.opWritten fn 3).endsNow (s.fn fn).hrd.ctxSel.toNat) := by
  have hown' : (s.opWritten fn 3).ownsCtx fn (s.fn fn).hrd.ctxSel.toNat = true := hown
  unfold State.opWritten at hown'
  simp only [exec, execContextEndNow, hreach, hidle, hown', Bool.not_true, Bool.or_self, Bool.false_eq_true, if_false, if_true]
  rfl

end

/-! ### The return to FREE (R84) -/

section
variable (s : State) (c : Nat)

theorem settleSlot_keeps (n : Nat) : Keeps [.svy] s (s.settleSlot n) := setSlot_keeps _ _ _

theorem setJob_keeps (j : Nat) (x : Job) : Keeps [.pck] s (s.setJob j x) := by
  intro p hp; cases p <;> simp_all [Part.same]

theorem dropRoutes_keeps : Keeps [.fab] s (s.dropRoutes c) := by
  refine (abandonAudits_keeps s fun rid => (s.route? rid).any fun r => r.ctx == c).trans' ?_
  intro p hp; cases p <;> simp_all [Part.same, State.dropRoutes]

theorem dropRoutes_routes : ((s.dropRoutes c).fab.routes.any fun p => p.2.ctx == c) = false := by
  simp [State.dropRoutes]

/-- The job of a context that becomes FREE runs no more. -/
def State.jobStopped : State :=
  match s.jobOfCtx c with
  | some j => s.modJob j fun x => { x with running := false, barrier := none, failSent := none }
  | none => s

theorem jobStopped_keeps : Keeps [.pck] s (s.jobStopped c) := by
  unfold State.jobStopped
  split
  · exact setJob_keeps _ _ _
  · exact Keeps.rfl' _ _

theorem freeCtx_eq : s.freeCtx c =
    ((((s.dropRoutes c).jobStopped c).modCtx c Ctx.cleared).settleSlot (s.ctx c).slot.toNat).settleRun := rfl

theorem freeCtx_st : ((s.freeCtx c).ctx c).st = .free := by
  rw [freeCtx_eq, State.ctx_congr (congrArg Hrd.ctxs (settleRun_keeps _ .hrd (by decide))),
    State.ctx_congr (congrArg Hrd.ctxs (settleSlot_keeps _ _ .hrd (by decide))), State.modCtx_eq, State.ctx_setCtx]
  rfl

theorem freeCtx_routes : ((s.freeCtx c).fab.routes.any fun p => p.2.ctx == c) = false := by
  have hfab : (s.freeCtx c).fab = (s.dropRoutes c).fab := by
    rw [freeCtx_eq, settleRun_keeps _ .fab (by decide), settleSlot_keeps _ _ .fab (by decide),
      modCtx_keeps _ _ _ .fab (by decide), jobStopped_keeps _ _ .fab (by decide)]
  rw [hfab, dropRoutes_routes]

theorem exec_contextFreed (halive : s.alive = true) (hover : (s.ctx c).over = true) (hroutes : s.routesDone c = true) :
    exec (.contextFreed c) s = .next (s.freeCtx c) := by
  simp [exec, execContextFreed, halive, hover, hroutes]

end

/-- Settles O15: an end at once leaves no frame and the context ENDING, whatever its stopped run and its stream's markers
change; a context freed loses its routes first. -/
theorem contextsEndAndBecomeFree : Obligations.ContextsEndAndBecomeFree := by
  refine fun s => ⟨?_, ?_, ?_, fun c halive hst hcur hroutes => ?_⟩
  · rintro fn c rfl hreach hidle hown hst hcur
    refine ⟨_, exec_contextEndAfterFrame_current hreach hidle hown hst hcur, ?_⟩
    rw [endsAfter_ctx]
    exact ⟨rfl, rfl, rfl, ((opWritten_keeps s fn 2).mono (by simp)).trans' ((endsAfter_keeps _ _).mono (by simp))⟩
  · rintro fn c rfl hreach hidle hown hst hcur
    exact ⟨_, exec_contextEndAfterFrame_idle hreach hidle hown hst hcur, endCleanly_ends _ _ (ownsCtx_not_free hown)⟩
  · rintro fn c rfl hreach hidle hown
    obtain ⟨hst, hheld, harriving⟩ :=
      endSilently_ends (s.opWritten fn 3) (s.fn fn).hrd.ctxSel.toNat (ownsCtx_not_free hown)
    refine ⟨_, exec_contextEndNow hreach hidle hown, ?_⟩
    simp only [endsNow_ctx]
    exact ⟨hst, hheld, harriving, trivial⟩
  · have hover : (s.ctx c).over = true := by
      simpa [Ctx.over, hst] using hcur
    exact ⟨_, exec_contextFreed s c halive hover hroutes, freeCtx_st s c, freeCtx_routes s c⟩

end Sys2Proof.Machine
end

section
/-!
A frame that finds four held (R293): its record, written to an output ring in device memory, drops the line fills in flight of
the ring's pages (R232, R265), and with them the mark that a waiting load keeps its line, which stands with the held frames.
-/
namespace Sys2Proof.Machine
open Sys2Proof

/-! ### A fifth frame (R293) -/

/-- A fifth frame reported and lost, and the losses told behind it passed on. -/
def State.fifthLost (s : State) (c : Nat) (f : Arriving) (rest : List Arriving) : State :=
  let t := s.modCtx c fun x => { x with arriving := rest }
  ((t.hrdReport c 5 (some f.frame.no)).loseUnheld c f.frame (Err.lossCode ⟨.hrd, 5⟩)).passLost c

theorem exec_frameArrive_full {s : State} {c : Nat} {f : Arriving} {rest : List Arriving} (halive : s.alive = true)
    (harriving : (s.ctx c).arriving = f :: rest) (hst : (s.ctx c).st = .admitted) (hfull : 4 ≤ (s.ctx c).held.length) :
    exec (.frameArrive c) s = .next (s.fifthLost c f rest) := by
  have hheld : ((s.modCtx c fun x => { x with arriving := rest }).ctx c).held = (s.ctx c).held := by
    rw [State.modCtx_eq, State.ctx_setCtx]
  have hlost : (s.modCtx c fun x => { x with arriving := rest }).arrive c f.frame =
      ((s.modCtx c fun x => { x with arriving := rest }).hrdReport c 5 (some f.frame.no)).loseUnheld c f.frame
        (Err.lossCode ⟨.hrd, 5⟩) := if_pos (by rw [hheld]; exact hfull)
  simp only [exec, execFrameArrive, harriving, halive, hst, Bool.not_true, beq_self_eq_true, Bool.true_or,
    Bool.or_false, Bool.false_eq_true, if_false, hlost]
  rfl

/-! ### A load that waits for a line of the page that a record is written to -/

/-- A template of one core unit that writes output rings. -/
def ringTemplate : TmplRec :=
  { nameId := 1, span := 1, variants := 1, boundary := 0, cost := 1000, deadline := 40000, role := 0, profile := 0
    lossy := false, packBound := false, rings := 1, drainMs := 0, maxInst := 4, instKib := 4, compatKey := 0 }

/-- An unsigned image of that template alone. -/
def ringImage : Image :=
  { id := 0, signed := false, packBound := false
    progs := [{ template := 0, variant := 1, kind := 0, unit := 0, tileBytes := 4096, codeLen := 64, code := [] }]
    kennels := [], routes := [], leashes := [], wrefs := [], tmpls := [ringTemplate], nums := [], certs := [], pack := none
    opens := [] }

/-- Unit 0 on core 0 waits for a load of the 64 bytes at 0x1000, whose line may be kept. -/
def loadingUnit : UnitRun :=
  { unit := 0, kind := 0, place := 0, base := 0, size := 4096, codeLen := 64, steps := [], ended := false
    blocked := some (.load 0x1000 64 true), passes := 0, accs := [], msg := [], data := [], queue := [], qPasses := 0
    qAge := 0 }

/-- The dispatched frame of that unit. -/
def loadingFrame : Frame :=
  { Frame.fresh 0 0 0 0 0 false false with
    run := some { k := 1, gen := 0, tier := 0, units := [loadingUnit], routes := [], cancelling := false }
    firstGen := some 0 }

/-- The frame that finds four held. -/
def fifthFrame : Arriving := ⟨Frame.fresh 4 0 0 0 0 false false, none⟩

/-- Context 0 holds four frames, the first of them running, and its record ring lies in device memory at 0x1000, which the
Cadastre grants; a fifth frame is on its way. -/
def fourHeld : State :=
  { State.reset with
    sup := { mstate := .run }
    cad := { locked := true, entries := [⟨0, 0xFFFFFFFF, 0xFFFF, 0xFFFF, 0xFFFF, 0xFFFF, 0xFF, 0xFF⟩] }
    svy := { slots := [(0, { state := .loaded, current := some { gen := 0, image := ringImage, hash := [] } })] }
    fns := [(0, { hst := { oqs := [(0, { addr := 0x40, wbHost := true })] } })]
    hrd := {
      cores := [(0, { issuing := some (0, 0) })]
      ctxs := [(0, {
        st := .admitted, base := 0x100000, len := 4096, rings := [some 0], cores := [0], arriving := [fifthFrame]
        held := [loadingFrame, Frame.fresh 1 0 0 0 0 false false, Frame.fresh 2 0 0 0 0 false false,
          Frame.fresh 3 0 0 0 0 false false] })] } }

/-- What the first unit of context 0 waits for. -/
def State.waitsFor (s : State) : Option Blocked := (s.unitRun 0 0).bind UnitRun.blocked

theorem fourHeld_keeps_line : fourHeld.waitsFor = some (.load 0x1000 64 true) := by decide +kernel

theorem fifthLost_keeps_no_line : (fourHeld.fifthLost 0 fifthFrame []).waitsFor = some (.load 0x1000 64 false) := by
  decide +kernel

theorem waitsFor_congr {s t : State} (h : (t.ctx 0).held = (s.ctx 0).held) : t.waitsFor = s.waitsFor := by
  simp only [State.waitsFor, State.unitRun, Ctx.running, h]

/-- Refutes O16: a fifth frame's record may be written to a page of which a held frame's load awaits a line, and R232 then takes
from that load the leave to keep it; the second clause asks that the held frames stand as they were. -/
theorem not_framesArriveDispatchCommit : ¬ Obligations.FramesArriveDispatchCommit := by
  rintro ⟨harrive, -⟩
  have halive : fourHeld.alive = true := by decide
  have hfull : 4 ≤ (fourHeld.ctx 0).held.length := by decide
  obtain ⟨harrived, -, -⟩ := harrive fourHeld 0 halive (by decide)
  obtain ⟨-, hfifth⟩ := harrived fifthFrame [] rfl rfl
  obtain ⟨t, hexec, -, hheld, -⟩ := hfifth hfull rfl
  rw [exec_frameArrive_full halive rfl rfl hfull] at hexec
  cases hexec
  have hsame := waitsFor_congr hheld
  rw [fourHeld_keeps_line, fifthLost_keeps_no_line] at hsame
  exact absurd hsame (by decide)

end Sys2Proof.Machine
end

section
/-!
The SYS_RNG_ registers (R359, Tables 9.11 and 9.12): every command of theirs gives one function other registers, and a write of
GO while BUSY is also reported.
-/
namespace Sys2Proof.Machine
open Sys2Proof

/-- A function with other SYS_RNG_ registers. -/
def State.setRng (s : State) (fn : Nat) (x : RngFn) : State := s.setFn fn { s.fn fn with rng := x }

/-- The registers once GO has started a computation by a write of SYS_RNG_CTRL. -/
def RngFn.started (g : RngFn) (v : Word) : RngFn :=
  { g with busy := true, seedMode := v.getLsbD 1, fieldLocked := g.fieldLocked && !v.getLsbD 3 }

/-- The registers once a computation has ended. -/
def RngFn.completed (g : RngFn) : RngFn :=
  { g with busy := false, outLo := g.result.x1 ++ g.result.x0, outHi := g.result.x3 ++ g.result.x2 }

theorem SameSettings.rng {s t : State} (h : SameSettings s t) (f : Nat) : (t.fn f).rng = (s.fn f).rng :=
  congrArg (fun g => g.rng) (h f)

section
variable (s : State) (fn : Nat)

@[simp] theorem State.setRng_rng (x : RngFn) : ((s.setRng fn x).fn fn).rng = x := by simp [State.setRng]

theorem setRng_keeps (x : RngFn) : Keeps [.fns] s (s.setRng fn x) := setFn_keeps s fn _

theorem setRng_atHost (x : RngFn) (h : ringsAtHost s = true) : ringsAtHost (s.setRng fn x) = true :=
  ringsAtHost_setFn s h fn _ (ringsAtHost_fn s h fn)

/-! ### Locked writes (R128, E-SYS-32) -/

theorem rngLocked_eq (off value : Nat) : s.rngLocked fn off value =
    reportWith 3 { blk := .sys, nn := 32, func := some fn, detail := [off, value % 2 ^ 32] }
      (s.setRng fn { (s.fn fn).rng with fieldLocked := true }) := by
  unfold State.rngLocked State.lockedRecord
  exact report_eq _ _ (by intro h; cases h)

theorem rngLocked_rng (off value : Nat) :
    ((s.rngLocked fn off value).fn fn).rng = { (s.fn fn).rng with fieldLocked := true } := by
  rw [rngLocked_eq, (reportWith_sameSettings _ _ _).rng, State.setRng_rng]

theorem rngLocked_records (off value : Nat) :
    Records s (s.rngLocked fn off value) ⟨.sys, 32⟩ .reportOnly .none [off, value % 2 ^ 32] := by
  rw [rngLocked_eq]
  exact records_of_before (reportWith_records 2 _ _) (setRng_atHost s fn _) rfl

theorem rngLocked_keeps (off value : Nat) : Keeps reportParts s (s.rngLocked fn off value) := by
  rw [rngLocked_eq]
  exact ((setRng_keeps s fn _).mono (by simp [reportParts])).trans' (reportWith_keeps _ _ _)

end

/-! ### GO and the end of a computation (Table 9.12) -/

section
variable {s : State} {fn : Nat}

theorem exec_rngCompute_idle (v : Word) (hreach : s.hostReach fn = true) (hidle : (s.fn fn).rng.busy = false) :
    exec (.rngCompute fn v) s = .next (s.setRng fn ((s.fn fn).rng.started v)) := by
  simp only [exec, execRngCompute, hreach, hidle, Bool.not_true, Bool.false_eq_true, if_false]
  rfl

theorem exec_rngCompute_busy (v : Word) (hreach : s.hostReach fn = true) (hbusy : (s.fn fn).rng.busy = true) :
    exec (.rngCompute fn v) s = .next (s.rngLocked fn 0x140 v.toNat) := by
  simp only [exec, execRngCompute, hreach, hbusy, Bool.not_true, Bool.false_eq_true, if_false, if_true]

theorem exec_rngComplete_busy (halive : s.alive = true) (hbusy : (s.fn fn).rng.busy = true) :
    exec (.rngComplete fn) s = .next (s.setRng fn (s.fn fn).rng.completed) := by
  simp only [exec, execRngComplete, halive, hbusy, Bool.not_true, Bool.or_self, Bool.false_eq_true, if_false]
  rfl

theorem rngCompute_starts (v : Word) (hreach : s.hostReach fn = true) (hidle : (s.fn fn).rng.busy = false) :
    ∃ t, exec (.rngCompute fn v) s = .next t ∧ (t.fn fn).rng = (s.fn fn).rng.started v ∧ Keeps [.fns] s t :=
  ⟨_, exec_rngCompute_idle v hreach hidle, State.setRng_rng _ _ _, setRng_keeps _ _ _⟩

theorem rngCompute_locked (v : Word) (hreach : s.hostReach fn = true) (hbusy : (s.fn fn).rng.busy = true) :
    ∃ t, exec (.rngCompute fn v) s = .next t ∧ (t.fn fn).rng = { (s.fn fn).rng with fieldLocked := true } ∧
      Records s t ⟨.sys, 32⟩ .reportOnly .none [0x140, v.toNat] ∧ Keeps reportParts s t := by
  have hrecords := rngLocked_records s fn 0x140 v.toNat
  rw [Nat.mod_eq_of_lt v.isLt] at hrecords
  exact ⟨_, exec_rngCompute_busy v hreach hbusy, rngLocked_rng _ _ _ _, hrecords, rngLocked_keeps _ _ _ _⟩

theorem rngComplete_ends (halive : s.alive = true) (hbusy : (s.fn fn).rng.busy = true) :
    ∃ t, exec (.rngComplete fn) s = .next t ∧ (t.fn fn).rng = (s.fn fn).rng.completed ∧ Keeps [.fns] s t :=
  ⟨_, exec_rngComplete_busy halive hbusy, State.setRng_rng _ _ _, setRng_keeps _ _ _⟩

end

/-- Settles O24: a write of GO starts the computation or, while BUSY, is a locked write, and the end of the computation puts the
block function's words in the output registers. -/
theorem counterGeneratorTestRegisters : Obligations.CounterGeneratorTestRegisters := by
  intro s fn
  refine ⟨fun v hreach hidle => ?_, rngCompute_locked, fun halive hbusy o ho => ?_⟩
  · obtain ⟨t, hexec, hrng, hkeeps⟩ := rngCompute_starts v hreach hidle
    refine ⟨t, hexec, ?_, ?_, ?_, hkeeps⟩ <;> rw [hrng] <;> rfl
  · obtain ⟨t, hexec, hrng, hkeeps⟩ := rngComplete_ends halive hbusy
    have hresult : o = (s.fn fn).rng.result := ho
    rw [hresult]
    refine ⟨t, hexec, ?_, ?_, ?_, hkeeps⟩ <;> rw [hrng] <;> rfl

end Sys2Proof.Machine
end

section
/-!
What the Herder's operations leave of the engines: a frame that is stopped, restarted or lost, and a context that ends, take
frames away and bring none; they disable no engine, take none back in use, and touch no dictionary engine (R279, R296, R309).
-/
namespace Sys2Proof.Machine
open Sys2Proof

theorem Tab.getD_mapVal_map {α β : Type} (π : α → β) {g : Nat → α → α} (hπ : ∀ n x, π (g n x) = π x) (t : Tab α) (n : Nat)
    (d : α) : π (Tab.getD (Tab.mapVal g t) n d) = π (Tab.getD t n d) := by
  simp only [Tab.getD, Tab.find?_mapVal]
  cases Tab.find? t n with
  | none => rfl
  | some x => exact hπ n x

theorem State.chan_setChan_map {α : Type} (π : Chan → α) (s : State) (n : Nat) {x : Chan} (h : π x = π (s.chan n)) (k : Nat) :
    π ((s.setChan n x).chan k) = π (s.chan k) := by
  by_cases hk : k = n
  · subst hk
    rw [State.chan_setChan, h]
  · exact congrArg π (Tab.getD_put_other _ _ _ _ _ hk)

/-- Dropped lines take the scale tables derived from their pages with them, and leave the rest of an entropy engine (R383). -/
theorem State.ecEngine_dropLines (s : State) (p : Nat → Bool) (n : Nat) : (s.dropLines p).ecEngine n =
    { s.ecEngine n with sets := (s.ecEngine n).sets.filter fun d => !(pages d.addr d.bytes.length).any p } := by
  unfold State.ecEngine Tab.getD
  rw [State.dropLines, Tab.find?_mapVal]
  cases Tab.find? s.ec.engines n <;> rfl

/-- The numbers of a context's held frames, oldest first. -/
def Ctx.numbers (x : Ctx) : List Nat := x.held.map Frame.no

theorem Ctx.numbers_modHead (x : Ctx) (g : Frame → Frame) (h : ∀ f, (g f).no = f.no) : (x.modHead g).numbers = x.numbers := by
  unfold Ctx.modHead Ctx.numbers
  cases x.held with
  | nil => rfl
  | cons f rest => simp [h]

theorem Ctx.numbers_dropFills (x : Ctx) (p : Nat → Bool) : (x.dropFills p).numbers = x.numbers := by
  simp [Ctx.dropFills, Ctx.numbers]

/-- Every context holds frames that it held before, or fewer; channels and entropy engines are disabled as before, an entropy
engine without scale tables gets none, and the dictionary engines stand. -/
structure FramesLeave (s t : State) : Prop where
  held : ∀ c, (t.ctx c).numbers ⊆ (s.ctx c).numbers
  chan : ∀ n, (t.chan n).disabled = (s.chan n).disabled
  engine : ∀ n, (t.ecEngine n).disabled = (s.ecEngine n).disabled
  sets : ∀ n, (s.ecEngine n).sets = [] → (t.ecEngine n).sets = []
  dce : t.dce = s.dce

namespace FramesLeave
variable {s t u : State}

theorem rfl' (s : State) : FramesLeave s s :=
  ⟨fun _ => List.Subset.refl _, fun _ => rfl, fun _ => rfl, fun _ h => h, rfl⟩

theorem trans (h : FramesLeave s t) (k : FramesLeave t u) : FramesLeave s u :=
  ⟨fun c => List.Subset.trans (k.held c) (h.held c), fun n => (k.chan n).trans (h.chan n),
    fun n => (k.engine n).trans (h.engine n), fun n hn => k.sets n (h.sets n hn), k.dce.trans h.dce⟩

theorem foldl {α : Type} (g : State → α → State) (h : ∀ s a, FramesLeave s (g s a)) (xs : List α) (s : State) :
    FramesLeave s (xs.foldl g s) :=
  List.foldlRecOn (motive := FramesLeave s) _ _ (rfl' s) fun t ht a _ => ht.trans (h t a)

/-- A change made or not. -/
theorem ite {p : Prop} [Decidable p] (h : FramesLeave s t) : FramesLeave s (if p then t else s) := by
  split
  · exact h
  · exact rfl' s

/-- A change outside the contexts and the engines. -/
theorem of_tables (hctxs : t.hrd.ctxs = s.hrd.ctxs) (hrtv : t.rtv = s.rtv) (hec : t.ec = s.ec) (hdce : t.dce = s.dce) :
    FramesLeave s t := by
  have hengine : ∀ n, t.ecEngine n = s.ecEngine n := fun n => by rw [State.ecEngine, hec]; rfl
  exact ⟨fun c => by rw [State.ctx_congr hctxs]; exact List.Subset.refl _, fun n => by rw [State.chan_congr hrtv],
    fun n => by rw [hengine], fun n hn => by rw [hengine, hn], hdce⟩

theorem of_keeps {l : List Part} (h : Keeps l s t) (hl : ∀ p ∈ [Part.rtv, .ec, .dce, .hrd], p ∉ l) : FramesLeave s t :=
  of_tables (congrArg Hrd.ctxs (h .hrd (hl _ (by simp)))) (h .rtv (hl _ (by simp))) (h .ec (hl _ (by simp)))
    (h .dce (hl _ (by simp)))

/-- A change outside the engines, of whose contexts the held frames' numbers are known. -/
theorem of_held {l : List Part} (h : Keeps l s t) (hl : ∀ p ∈ [Part.rtv, .ec, .dce], p ∉ l)
    (hheld : ∀ c, (t.ctx c).numbers ⊆ (s.ctx c).numbers) : FramesLeave s t := by
  have hengines : FramesLeave s { t with hrd := s.hrd } :=
    of_tables rfl (h .rtv (hl _ (by simp))) (h .ec (hl _ (by simp))) (h .dce (hl _ (by simp)))
  exact ⟨hheld, hengines.chan, hengines.engine, hengines.sets, hengines.dce⟩

/-! ### Changes of one context, channel or engine -/

theorem modCtx {c : Nat} {g : Ctx → Ctx} (h : (g (s.ctx c)).numbers ⊆ (s.ctx c).numbers) : FramesLeave s (s.modCtx c g) := by
  refine of_held (modCtx_keeps s c g) (by decide) fun k => ?_
  by_cases hk : k = c
  · subst hk
    rw [State.modCtx_eq, State.ctx_setCtx]
    exact h
  · rw [State.modCtx_eq, State.ctx_setCtx_other _ _ _ _ hk]
    exact List.Subset.refl _

theorem modHead {c : Nat} {g : Frame → Frame} (h : ∀ f, (g f).no = f.no) : FramesLeave s (s.modHead c g) :=
  modCtx (by rw [Ctx.numbers_modHead _ _ h]; exact List.Subset.refl _)

theorem setChan {n : Nat} {x : Chan} (h : x.disabled = (s.chan n).disabled) : FramesLeave s (s.setChan n x) :=
  ⟨fun _ => List.Subset.refl _, State.chan_setChan_map Chan.disabled s n h, fun _ => rfl, fun _ hn => hn, rfl⟩

theorem modChan {n : Nat} {g : Chan → Chan} (h : ∀ x, (g x).disabled = x.disabled) : FramesLeave s (s.modChan n g) :=
  setChan (h _)

theorem setFn {f : Nat} {x : Fn} : FramesLeave s (s.setFn f x) := of_keeps (setFn_keeps s f x) (by decide)

theorem setOq {f r : Nat} {x : Oq} : FramesLeave s (s.setOq f r x) := setFn

theorem dropLines {p : Nat → Bool} : FramesLeave s (s.dropLines p) where
  held c := by rw [State.ctx_dropLines, Ctx.numbers_dropFills]; exact List.Subset.refl _
  chan _ := rfl
  engine n := by rw [State.ecEngine_dropLines]
  sets n hn := by rw [State.ecEngine_dropLines, hn]; rfl
  dce := rfl

/-! ### Reports, sends and writes -/

theorem of_report (h : Keeps reportParts s t) : FramesLeave s t := of_keeps h (by decide)

theorem report {e : Ev} (h : e.class ≠ .moduleFatal) : FramesLeave s (s.report e) := by
  rw [report_eq s e fun hfatal => absurd hfatal h]
  exact of_report (reportWith_keeps 3 e s)

theorem deny {cls page : Nat} {write : Bool} {f ctx frame : Option Nat} :
    FramesLeave s (s.deny cls page write .reportOnly f ctx frame) := by
  have hcount : FramesLeave s (s.countDenial cls page write).2 := of_keeps (countDenial_keeps s cls page write) (by decide)
  unfold State.deny
  dsimp only
  split
  · exact hcount.trans (report (by simp [denialEv, Ev.class]))
  · exact hcount

theorem memError {nn g source : Nat} {newly : Bool} {e : Ev} (h : e.cls.getD (Err.cls ⟨.mem, nn⟩) ≠ .moduleFatal) :
    FramesLeave s (s.memError nn g source newly e) := by
  have hcount : FramesLeave s (if newly then s.countUe (homeQuarter g) else s) := .ite (of_keeps (countUe_keeps s _) (by decide))
  unfold State.memError
  refine .trans ?_ (report h)
  exact hcount.trans (.of_tables rfl rfl rfl rfl)

theorem hostWrite {f a : Nat} {d : List Byte} : FramesLeave s (s.hostWrite f a d) :=
  of_keeps (hostWrite_keeps s f a d) (by decide)

theorem writeDev {a : Nat} {d : List Byte} : FramesLeave s (s.writeDev a d) :=
  of_keeps (writeDev_keeps s a d) (by decide)

theorem sendMember {m : Nat} {b : Bool} {o : Out} : FramesLeave s (s.sendMember m b o) :=
  of_keeps (sendMember_keeps s m b o) (by decide)

theorem tellPeer {k : Cmd} : FramesLeave s (s.tellPeer k) := by
  unfold State.tellPeer
  split
  · exact sendMember
  · exact rfl' s

theorem hrdReport {c nn : Nat} {frame : Option Nat} : FramesLeave s (s.hrdReport c nn frame) := by
  unfold State.hrdReport
  rw [report_hrdCode _ _ rfl rfl]
  exact .trans (of_keeps (modStat_keeps s _ c _) (by decide)) (of_report (reportWith_keeps 3 _ _))

/-! ### Output rings (R494, R495) -/

theorem ringWrite {f : Nat} {host : Bool} {a : Nat} {d : List Byte} : FramesLeave s (s.ringWrite f host a d) := by
  unfold State.ringWrite State.invalidate
  split
  · exact hostWrite
  · split
    · exact writeDev
    · exact writeDev.trans dropLines

theorem copyPublished {copy : Option (Nat × Nat)} : FramesLeave s (s.copyPublished copy) := by
  unfold State.copyPublished
  split
  · exact rfl' s
  · exact modChan fun _ => rfl

theorem copyFails {copy : Option (Nat × Nat)} : FramesLeave s (s.copyFails copy) := by
  unfold State.copyFails
  split
  · exact rfl' s
  · exact modChan fun _ => rfl

theorem oqInterrupt {f r : Nat} : FramesLeave s (s.oqInterrupt f r) :=
  setOq.trans (of_keeps (msix_keeps _ _ _) (by decide))

theorem oqPlace {f r : Nat} {e : OqEntry} : FramesLeave s (s.oqPlace f r e) := by
  unfold State.oqPlace
  dsimp only
  split
  · refine .trans ?_ copyPublished
    refine .trans ?_ (report (by simp [Ev.class, Ev.err, Err.cls]))
    exact setOq.trans deny
  · have hwrites := foldl (fun t p => t.ringWrite f (s.oq f r).host ((s.oq f r).addr.toNat * 64 + 64 * p.1) p.2)
      (fun t p => ringWrite) ((s.oq f r).plan e).1 s
    split
    · exact (hwrites.trans (memError (by simp [Err.cls]))).trans copyFails
    · refine .trans (t := State.copyPublished _ _) ?_ (.ite oqInterrupt)
      refine .trans ?_ copyPublished
      split
      · exact (((hwrites.trans setOq).trans setOq).trans deny).trans (report (by simp [Ev.class, Ev.err, Err.cls]))
      · exact (hwrites.trans setOq).trans ringWrite

theorem oqPush {f r : Nat} {lossy : Bool} {e : OqEntry} : FramesLeave s (s.oqPush f r lossy e) := by
  unfold State.oqPush
  dsimp only
  split
  · exact copyPublished
  · split
    · exact oqPlace
    · split
      · refine .trans ?_ (report (by simp [Ev.class, Ev.err, Err.cls]))
        exact (setOq.trans setFn).trans copyPublished
      · exact setOq

theorem putRecord {c : Nat} {f : Frame} {k flags code : Nat} : FramesLeave s (s.putRecord c f k flags code) := by
  have hshown : ∀ g n h, FramesLeave s ((s.modCtx c fun x => { x with lastFrame := some f.no }).modStat g n h) := fun g n h =>
    .trans (modCtx (List.Subset.refl _)) setFn
  unfold State.putRecord
  dsimp only
  split
  · split
    · exact hshown _ _ _
    · exact (hshown _ _ _).trans oqPush
  · exact hshown _ _ _

/-! ### Streams (R404, R405) -/

theorem flushMarkers {c : Nat} {all : Bool} : FramesLeave s (s.flushMarkers c all) :=
  of_held (flushMarkers_keeps s c all) (by decide)
    fun k => by rw [flushMarkers_ctx_map Ctx.numbers fun _ _ => rfl]; exact List.Subset.refl _

theorem putEnd {c : Nat} : FramesLeave s (s.putEnd c) :=
  of_held (putEnd_keeps s c) (by decide)
    fun k => by rw [putEnd_ctx_map Ctx.numbers fun _ _ => rfl]; exact List.Subset.refl _

theorem loseUnit {c : Nat} {f : Frame} {code : Nat} : FramesLeave s (s.loseUnit c f code) := by
  unfold State.loseUnit
  split
  · exact rfl' s
  · refine .trans ?_ flushMarkers
    exact modCtx (List.Subset.refl _)

/-! ### Cancellation (R279) -/

theorem schedule {k : Nat} : FramesLeave s (s.schedule k) :=
  schedule_induction (P := FramesLeave s) s k (rfl' s) (fun _ _ _ _ ht => ht.trans (modHead fun _ => rfl))
    fun _ _ ht => ht.trans (.of_tables rfl rfl rfl rfl)

/-- A change of every channel and every entropy engine that none is disabled or taken back in use by. -/
theorem mapTables {g : Nat → Chan → Chan} {k : Nat → EcEngine → EcEngine} (hg : ∀ n x, (g n x).disabled = x.disabled)
    (hk : ∀ n x, (k n x).disabled = x.disabled) (hsets : ∀ n x, (k n x).sets = x.sets) :
    FramesLeave s { s with rtv := { s.rtv with chans := Tab.mapVal g s.rtv.chans }
                           ec := { s.ec with engines := Tab.mapVal k s.ec.engines } } :=
  ⟨fun _ => List.Subset.refl _, fun n => Tab.getD_mapVal_map Chan.disabled hg s.rtv.chans n _,
    fun n => Tab.getD_mapVal_map EcEngine.disabled hk s.ec.engines n _,
    fun n hn => (Tab.getD_mapVal_map EcEngine.sets hsets s.ec.engines n _).trans hn, rfl⟩

theorem dropCommands {c no : Nat} : FramesLeave s (s.dropCommands c no) := by
  unfold State.dropCommands
  dsimp only
  have htold := foldl (fun t k => t.tellPeer k) (fun t k => tellPeer)
    (s.rtv.chans.flatMap fun p => p.2.started.filter fun k => k.issuer.ofFrame c no) s
  exact htold.trans (mapTables (by intros; rfl) (by intros; rfl) (by intros; rfl))

theorem mapRoutes {c : Nat} {g : Route → Route} : FramesLeave s (s.mapRoutes c g) :=
  of_keeps (mapRoutes_keeps s c g) (by decide)

theorem reportCancelled {c no : Nat} {x : Nat × Nat × Nat} : FramesLeave s (s.reportCancelled c no x) := by
  unfold State.reportCancelled
  refine .trans ?_ (report (by simp [Ev.class]))
  exact modChan fun _ => rfl

theorem cancelRun {c : Nat} {record : Bool} : FramesLeave s (s.cancelRun c record) := by
  cases h : (s.ctx c).running with
  | none => rw [cancelRun_of_idle s c record h]; exact rfl' s
  | some q =>
    have hidled : FramesLeave s (s.runIdled c q.1.no) :=
      ((dropCommands.trans (of_keeps (dropEntries_keeps _ _ _) (by decide))).trans mapRoutes).trans (modHead fun _ => rfl)
    rw [cancelRun_eq s c record q.1 q.2 h]
    cases record with
    | false => exact hidled
    | true => exact hidled.trans (foldl _ (fun t x => reportCancelled) _ _)

theorem stopRun {c : Nat} {record : Bool} : FramesLeave s (s.stopRun c record) := by
  unfold State.stopRun
  split
  · exact rfl' s
  · exact (cancelRun.trans (modHead (by intro; rfl))).trans (foldl _ (fun t k => schedule) _ _)

/-! ### The end of a context (R66, R292) -/

theorem beginEnd {c : Nat} : FramesLeave s (s.beginEnd c) := by
  refine .trans ?_ (of_keeps (kickAudits_keeps _) (by decide))
  refine modCtx ?_
  split <;> exact List.Subset.refl _

theorem endSilently {c : Nat} : FramesLeave s (s.endSilently c) := by
  unfold State.endSilently
  refine .trans ?_ beginEnd
  refine .trans ?_ flushMarkers
  exact stopRun.trans (modCtx (List.nil_subset _))

end FramesLeave

/-! ### A frame is lost (R296) -/

/-- One more lost frame counted. -/
def State.lostCounted (s : State) : State := { s with hrd := { s.hrd with lostCount := satInc s.hrd.lostCount } }

/-- A frame that leaves a context's queue, as the one that used its cores where it was dispatched. -/
def Ctx.withoutFrame (x : Ctx) (f : Frame) (no : Nat) : Ctx :=
  { x with held := x.held.filter fun h => h.no ≠ no, prevCores := if f.firstGen.isSome then some x.cores else x.prevCores }

theorem Ctx.not_mem_withoutFrame (x : Ctx) (f : Frame) (no : Nat) : no ∉ (x.withoutFrame f no).numbers := by
  simp [Ctx.withoutFrame, Ctx.numbers]

theorem Ctx.withoutFrame_subset (x : Ctx) (f : Frame) (no : Nat) : (x.withoutFrame f no).numbers ⊆ x.numbers :=
  List.map_subset _ List.filter_sublist.subset

/-- The loss of a frame: its run ends, it leaves the queue, and its marker and record follow. -/
theorem loseOne_cases (s : State) (c no code : Nat) : (s.loseOne c no code = s ∧ no ∉ (s.ctx c).numbers) ∨
    ∃ (t : State) (f : Frame) (k flags : Nat), FramesLeave s t ∧
      s.loseOne c no code =
        ((t.modCtx c fun x => x.withoutFrame f no).lostCounted.loseUnit c f code).putRecord c f k flags code := by
  unfold State.loseOne
  cases h : (s.ctx c).held.find? fun f => f.no == no with
  | none => exact .inl ⟨rfl, by simpa [Ctx.numbers] using h⟩
  | some f => exact .inr ⟨_, f, _, _, .ite .stopRun, rfl⟩

theorem FramesLeave.lostCounted {s : State} : FramesLeave s s.lostCounted :=
  .of_tables rfl rfl rfl rfl

/-- What follows the frame's leave of the queue. -/
theorem FramesLeave.lossRecorded {s : State} {c k flags code : Nat} {f : Frame} :
    FramesLeave s ((s.lostCounted.loseUnit c f code).putRecord c f k flags code) :=
  (FramesLeave.lostCounted.trans .loseUnit).trans .putRecord

theorem FramesLeave.loseOne {s : State} {c no code : Nat} : FramesLeave s (s.loseOne c no code) := by
  obtain ⟨heq, -⟩ | ⟨t, f, k, flags, ht, heq⟩ := loseOne_cases s c no code <;> rw [heq]
  · exact .rfl' s
  · exact (ht.trans (.modCtx (Ctx.withoutFrame_subset _ _ _))).trans .lossRecorded

theorem loseOne_not_mem (s : State) (c no code : Nat) : no ∉ ((s.loseOne c no code).ctx c).numbers := by
  obtain ⟨heq, hno⟩ | ⟨t, f, k, flags, -, heq⟩ := loseOne_cases s c no code <;> rw [heq]
  · exact hno
  · have hout : no ∉ ((t.modCtx c fun x => x.withoutFrame f no).ctx c).numbers := by
      rw [State.modCtx_eq, State.ctx_setCtx]
      exact Ctx.not_mem_withoutFrame _ _ _
    exact fun hmem => hout (FramesLeave.lossRecorded.held c hmem)

/-! ### The end of a Pack job, and what follows a loss or a cancellation (R541, R542, R309) -/

/-- What follows a frame's loss: the routes of one that ran are cleared, its context ends where that was to be its last, and the
Pack learns of one that a Whistle had released. -/
def State.lossFollowed (s : State) (c no code : Nat) (ran released : Bool) : State :=
  let s := if ran then s.quiesceRoutes c else s
  let s := if ran && (s.ctx c).endAfter then (s.putEnd c).endSilently c else s
  if released then s.packLoss c no code else s

theorem loseFrame_eq (s : State) (c no code : Nat) :
    ∃ ran released, s.loseFrame c no code = (s.loseOne c no code).lossFollowed c no code ran released := ⟨_, _, rfl⟩

namespace FramesLeave
variable {s : State}

theorem loseAll {c code : Nat} : FramesLeave s (s.loseAll c code) := by
  unfold State.loseAll
  dsimp only
  refine .trans (.trans (foldl _ (fun t no => loseOne) _ s) (foldl _ (fun t x => ?_) _ _)) (modCtx (List.Subset.refl _))
  exact lossRecorded

theorem setPck {p : Pck} : FramesLeave s { s with pck := p } :=
  .of_tables rfl rfl rfl rfl

theorem failPuts {c : Nat} : FramesLeave s (s.failPuts c) := by
  unfold State.failPuts
  split
  · exact rfl' s
  · exact foldl _ (fun t ch => report (by simp [Ev.class])) _ _

theorem abortJob {j : Nat} {e : Err} : FramesLeave s (s.abortJob j e) := by
  unfold State.abortJob State.endInstance
  dsimp only
  refine .trans (.trans ?_ (of_keeps (setJob_keeps _ j _) (by decide))) setPck
  exact (failPuts.trans loseAll).trans beginEnd

theorem packLoss {c no code : Nat} : FramesLeave s (s.packLoss c no code) := by
  unfold State.packLoss
  split
  · exact rfl' s
  · split
    · exact (hrdReport.trans (of_keeps (toChildren_keeps _ _) (by decide))).trans abortJob
    · exact .trans (of_keeps (toParent_keeps s _) (by decide)) (of_keeps (setJob_keeps _ _ _) (by decide))

theorem lossFollowed {c no code : Nat} {ran released : Bool} : FramesLeave s (s.lossFollowed c no code ran released) :=
  .trans (.trans (.ite mapRoutes) (.ite (putEnd.trans endSilently))) (.ite packLoss)

theorem loseFrame {c no code : Nat} : FramesLeave s (s.loseFrame c no code) := by
  obtain ⟨ran, released, heq⟩ := loseFrame_eq s c no code
  rw [heq]
  exact loseOne.trans lossFollowed

theorem restartCounted : FramesLeave s s.restartCounted :=
  .of_tables rfl rfl rfl rfl

theorem restartFrame {c : Nat} : FramesLeave s (s.restartFrame c) := by
  unfold State.restartFrame
  split
  · exact rfl' s
  · have hstopped : FramesLeave s ((s.stopRun c true).quiesceRoutes c) := stopRun.trans mapRoutes
    dsimp only
    split
    · exact hstopped.trans (hrdReport.trans loseFrame)
    · exact (hstopped.trans (modHead (by intro; rfl))).trans restartCounted

end FramesLeave

/-- A lost frame is held no more. -/
theorem loseFrame_not_mem (s : State) (c no code : Nat) : no ∉ ((s.loseFrame c no code).ctx c).numbers := by
  obtain ⟨ran, released, heq⟩ := loseFrame_eq s c no code
  rw [heq]
  exact fun hmem => loseOne_not_mem s c no code (FramesLeave.lossFollowed.held c hmem)

/-! ### The end of a driver's command (R273, R281) -/

namespace FramesLeave
variable {s : State}

theorem putCompletion {ch fn v : Nat} {k : Cmd} : FramesLeave s (s.putCompletion ch fn k v) := by
  have hclass : ∀ t : State, (t.cmdEv ch k.issuer .mem 3 .reportOnly []).cls = some .reportOnly := by
    intro t
    cases k.issuer <;> rfl
  unfold State.putCompletion
  dsimp only
  split
  · refine .trans ?_ hostWrite
    exact setChan rfl
  · split
    · refine .trans (.trans ?_ deny) (report (by simp [Ev.class, Ev.err, Err.cls]))
      exact setChan rfl
    · split
      · refine .trans ?_ (memError (by rw [hclass]; decide))
        exact setChan rfl
      · refine .trans ?_ writeDev
        exact setChan rfl

theorem endDriver {ch fn : Nat} {k : Cmd} : FramesLeave s (s.endDriver ch fn k) := by
  have hcount : ∀ t : State, FramesLeave t ((t.incTally k.tally).modChan ch fun x => { x with done := x.done + 1 }) :=
    fun t => .trans (of_keeps (setTally_keeps t _ _) (by decide)) (modChan fun _ => rfl)
  unfold State.endDriver
  dsimp only
  refine .trans ?_ (modChan fun _ => rfl)
  refine .trans ?_ (of_keeps (cmdMsix_keeps _ k) (by decide))
  refine .trans ?_ (.ite (hcount _))
  exact .trans (.ite putCompletion) (.ite (modChan fun _ => rfl))

theorem finishDriver {ch fn : Nat} {k : Cmd} : FramesLeave s (s.finishDriver ch fn k) := by
  unfold State.finishDriver
  split
  · exact modChan fun _ => rfl
  · exact endDriver

theorem endWith {ch status : Nat} {k : Cmd} : FramesLeave s (s.endWith ch status k) := by
  unfold State.endWith
  split
  · exact rfl' s
  · refine .trans ?_ finishDriver
    exact (tellPeer.trans (of_keeps (takeFree_keeps _) (by decide))).trans (modChan fun _ => rfl)

end FramesLeave

end Sys2Proof.Machine
end

section
/-!
Entropy commands (R360, R382, R390): what an engine reads before a command starts, what it writes, and what the command's end
counts.
-/
namespace Sys2Proof.Machine
open Sys2Proof

/-! ### Reads and writes where no granule is bad (R253) -/

theorem badGranule_of_clean {s : State} (hclean : s.mem.poison = []) (gs : List Nat) : s.badGranule [] gs = none := by
  have hnone : gs.find? (fun g => s.poisoned g || ([] : UeList).any fun u => u.1 == g) = none :=
    List.find?_eq_none.mpr fun g _ => by simp [State.poisoned, hclean, Tab.find?]
  rw [State.badGranule, hnone]

theorem badMerge_of_clean {s : State} (hclean : s.mem.poison = []) (ws : List (Dest × List Byte)) : s.badMerge [] ws = none := by
  refine List.findSome?_eq_none_iff.mpr fun w _ => ?_
  split
  · split
    · exact badGranule_of_clean hclean _
    · rfl
  · rfl

theorem ecBad_of_clean {s : State} (hclean : s.mem.poison = []) (x : EcStart) (r : Reach) : s.ecBad x [] r = none := by
  refine Option.bind_eq_none_iff.mpr fun p _ => ?_
  cases p with
  | mem a => exact badGranule_of_clean hclean _
  | host f a => rfl
  | peer m j a => rfl

theorem streamRead_poison (s : State) (q : Nat) (v : Bool) (a n : Nat) : (s.streamRead q v a n).2.mem.poison = s.mem.poison := by
  unfold State.streamRead
  split <;> rfl

theorem putDest_keeps (s : State) (w : Dest × List Byte) : Keeps [.mem, .out] s (s.putDest w) := by
  unfold State.putDest
  split
  · unfold State.write
    split
    · exact (writeDev_keeps _ _ _).mono (by simp)
    · intro p hp; cases p <;> simp_all [Part.same, State.writeTile]
  · exact (hostWrite_keeps _ _ _ _).mono (by simp)
  · exact (emitIf_keeps _ _ _).mono (by simp)
  · exact (emit_keeps _ _).mono (by simp)

theorem putDest_tallies (s : State) (w : Dest × List Byte) : (s.putDest w).mem.tallies = s.mem.tallies := by
  unfold State.putDest
  split
  · exact write_tallies _ _ _
  · exact congrArg Mem.tallies (hostWrite_keeps _ _ _ _ .mem (by decide))
  · exact congrArg Mem.tallies (emitIf_keeps _ _ _ .mem (by decide))
  · rfl

theorem invalidate_tallies (s : State) (ps : List Nat) : (s.invalidate ps).mem.tallies = s.mem.tallies := by
  unfold State.invalidate
  split <;> rfl

theorem State.ecEngine_congr {s t : State} (h : t.ec = s.ec) (e : Nat) : t.ecEngine e = s.ecEngine e := by
  rw [State.ecEngine, h, State.ecEngine]

theorem setEcEngine_keeps (s : State) (e : Nat) (x : EcEngine) : Keeps [.ec] s (s.setEcEngine e x) := by
  intro p hp; cases p <;> simp_all [Part.same]

theorem invalidate_engine (s : State) (ps : List Nat) (e : Nat) :
    ((s.invalidate ps).ecEngine e).started = (s.ecEngine e).started ∧
      ((s.invalidate ps).ecEngine e).tiles = (s.ecEngine e).tiles ∧
      ((s.invalidate ps).ecEngine e).symbols = (s.ecEngine e).symbols := by
  unfold State.invalidate
  split
  · exact ⟨rfl, rfl, rfl⟩
  · rw [State.ecEngine_dropLines]
    exact ⟨rfl, rfl, rfl⟩

/-! ### The parts of a command's start -/

/-- A unit whose queue has lost its head. -/
def State.headTaken (s : State) (c u : Nat) : State := s.modUnit c u fun y => { y with queue := y.queue.drop 1 }

theorem ecHead_eq {s : State} {e c u : Nat} {x : EcStart} (h : s.ecHead e c u = some x) :
    x.engine = e ∧ x.ctx = c ∧ x.unit = u := by
  unfold State.ecHead at h
  split at h
  · cases h
  · split at h
    · cases h
    · dsimp only at h
      split at h
      · cases h
      · split at h <;> cases h
        exact ⟨rfl, rfl, rfl⟩

section
variable {s : State} {e c u : Nat} {ue : UeList} {i : Instr} {dec : Bool}
  (hi : (dec = false ∧ i = .encode e c u ue) ∨ (dec = true ∧ i = .decode e c u ue))
include hi

/-- Both rows, as one. -/
theorem exec_ecRow : exec i s = .next (s.ecRow e c u dec ue) := by
  rcases hi with ⟨rfl, rfl⟩ | ⟨rfl, rfl⟩ <;> rfl

theorem exec_ecRow_of_none (h : s.ecHead e c u = none) : exec i s = .next s := by
  rw [exec_ecRow hi, State.ecRow, h]

theorem exec_ecRow_of_some {x : EcStart} (h : s.ecHead e c u = some x) (hdec : x.decodes = dec) :
    exec i s = .next ((s.headTaken c u).ecStart x ue) := by
  rw [exec_ecRow hi, State.ecRow, h]
  exact congrArg Host.Outcome.next (if_pos hdec)

end

/-- A malformed command's frame is lost (E-EC-01). -/
theorem ecStart_of_malformed {s : State} {x : EcStart} (ue : UeList) (hform : x.formOk = false) :
    s.ecStart x ue = s.ecFail x 1 ⟨.ec, 1⟩ := by
  simp [State.ecStart, hform]

theorem ecFail_not_held (s : State) (x : EcStart) (nn : Nat) (root : Err) :
    ∀ h ∈ ((s.ecFail x nn root).ctx x.ctx).held, h.no ≠ x.frame := by
  intro h hheld hno
  exact loseFrame_not_mem _ x.ctx x.frame root.lossCode (List.mem_map.mpr ⟨h, hheld, hno⟩)

/-! ### The reads of a command that starts -/

/-- What a started command changes on its way: no command of the engine, and no part but memory, engines and outputs. -/
structure EcProgress (e : Nat) (s t : State) : Prop where
  keeps : Keeps [.mem, .ec, .hrd, .out, .freeCount] s t
  started : (t.ecEngine e).started = (s.ecEngine e).started

namespace EcProgress
variable {e : Nat} {s t u : State}

theorem rfl' (e : Nat) (s : State) : EcProgress e s s := ⟨Keeps.rfl' _ _, rfl⟩

theorem trans (h : EcProgress e s t) (k : EcProgress e t u) : EcProgress e s u :=
  ⟨h.keeps.trans' k.keeps, k.started.trans h.started⟩

theorem of_keeps {l : List Part} (h : Keeps l s t) (hl : ∀ p ∈ l, p ∈ [Part.mem, .hrd, .out, .freeCount]) : EcProgress e s t :=
  ⟨h.mono fun p hp => by have := hl p hp; simp_all [or_left_comm],
    congrArg EcEngine.started (State.ecEngine_congr (h .ec fun hp => absurd (hl _ hp) (by decide)) e)⟩

theorem ecRead {x : EcStart} {r : Reach} : EcProgress e s (s.ecRead x r).2 := by
  unfold State.ecRead
  split
  · exact of_keeps (streamRead_keeps _ _ _ _ _) (by simp)
  · exact rfl' e s

theorem keepSet {a : Nat} {d : List Byte} : EcProgress e s (s.setEcEngine e ((s.ecEngine e).keep a d)) := by
  refine ⟨(setEcEngine_keeps s e _).mono (by simp), ?_⟩
  rw [State.ecEngine_setEcEngine, EcEngine.keep]
  split <;> rfl

end EcProgress

theorem ecRead_poison (s : State) (x : EcStart) (r : Reach) : (s.ecRead x r).2.mem.poison = s.mem.poison := by
  unfold State.ecRead
  split
  · exact streamRead_poison _ _ _ _ _
  · rfl

/-- The table set is read, and the engine keeps it (R383). -/
def State.tablesRead (s : State) (x : EcStart) : State :=
  match (s.ecRead x (s.ecTables x)).2.ecPlace x (s.ecTables x) with
  | some (.mem a) => (s.ecRead x (s.ecTables x)).2.setEcEngine x.engine
      (((s.ecRead x (s.ecTables x)).2.ecEngine x.engine).keep a (s.ecRead x (s.ecTables x)).1)
  | _ => (s.ecRead x (s.ecTables x)).2

/-- What a command codes: ENCODE's values, DECODE's slot. -/
def EcStart.source (x : EcStart) : Reach := if x.decodes then x.slot else x.values

/-- The source and the parameters are read. -/
def State.sourcesRead (s : State) (x : EcStart) : State := ((s.ecRead x x.source).2.ecRead x x.params).2

/-- The tile that a command codes with a table set. -/
def State.ecTile (s : State) (x : EcStart) (set : TableSet) : Tile :=
  let d := (s.ecRead x x.source).1
  let as_ := alphabets s set x.mix (x.at_ 0x24 2) (x.at_ 0x38 1) x.mixOff x.symbols
    ((s.ecRead x x.source).2.ecRead x x.params).1
  if x.decodes then decodeTile x d as_
  else encodeTile x ((List.range x.symbols).map fun i => toSigned 16 (leAt d (2 * i) 2)) as_

/-- A command goes on with the table set it has read. -/
def State.ecCode (s : State) (x : EcStart) (ue : UeList) (set : TableSet) : State :=
  match [x.source, x.params].findSome? (s.ecBad x ue) with
  | some b => s.ecPoison x 2 b
  | none => (s.sourcesRead x).ecLaunch x ue (s.ecTile x set)

theorem tablesRead_progress (s : State) (x : EcStart) : EcProgress x.engine s (s.tablesRead x) := by
  unfold State.tablesRead
  split
  · exact EcProgress.ecRead.trans .keepSet
  · exact .ecRead

theorem tablesRead_poison (s : State) (x : EcStart) : (s.tablesRead x).mem.poison = s.mem.poison := by
  unfold State.tablesRead
  split <;> exact ecRead_poison s x _

theorem sourcesRead_progress (s : State) (x : EcStart) (e : Nat) : EcProgress e s (s.sourcesRead x) :=
  EcProgress.ecRead.trans .ecRead

theorem sourcesRead_poison (s : State) (x : EcStart) : (s.sourcesRead x).mem.poison = s.mem.poison :=
  (ecRead_poison _ _ _).trans (ecRead_poison _ _ _)

/-- The ranges that a command names. -/
def State.ecRegions (s : State) (x : EcStart) : List Reach := [x.values, x.params, x.slot, x.record, s.ecTables x]

/-! ### The start -/

/-- The writes of a tile that land before its command completes. -/
def State.firstLanded (s : State) (now : List (Dest × List Byte)) : State := (now.foldl (fun u w => u.putDest w) s).takeFree

theorem firstLanded_progress (s : State) (now : List (Dest × List Byte)) (e : Nat) : EcProgress e s (s.firstLanded now) :=
  (EcProgress.of_keeps (Keeps.foldl _ _ putDest_keeps now s) (by simp)).trans (.of_keeps (takeFree_keeps _) (by simp))

/-- An engine takes in a command behind its others. -/
def State.withCommand (s : State) (e : Nat) (k : EcCmd) : State :=
  s.setEcEngine e
    { s.ecEngine e with nextSerial := (s.ecEngine e).nextSerial + 1, started := (s.ecEngine e).started ++ [k] }

theorem withCommand_started (s : State) (e : Nat) (k : EcCmd) :
    ((s.withCommand e k).ecEngine e).started = (s.ecEngine e).started ++ [k] := by
  rw [State.withCommand, State.ecEngine_setEcEngine]

section
variable {s : State} {x : EcStart} (hclean : s.mem.poison = [])
include hclean

/-- A well-formed command whose ranges are placed and granted codes with a valid table set. -/
theorem ecStart_codes (hform : x.formOk = true) (hcap : x.decodes = true ∨ 8 + 2 * x.symbols ≤ x.cap)
    (hregions : ∀ r ∈ s.ecRegions x, ∃ p, s.ecPlace x r = some p ∧ s.rangeDenied x.issuer r.space p r.len r.write = none)
    {set : TableSet} (hset : readTableSet (s.ecRead x (s.ecTables x)).1 = some set) :
    s.ecStart x [] = (s.tablesRead x).ecCode x [] set := by
  have hfits : ¬(!x.decodes && decide (x.cap < 8 + 2 * x.symbols)) = true := by
    rcases hcap with h | h
    · simp [h]
    · simp [Nat.not_lt.mpr h]
  have hplaced : ¬((s.ecRegions x).any fun r => (s.ecPlace x r).isNone) = true := by
    simp only [List.any_eq_true, not_exists, not_and]
    intro r hr
    obtain ⟨p, hp, -⟩ := hregions r hr
    simp [hp]
  have hgranted : (s.ecRegions x).findSome? (fun r => (s.ecPlace x r).bind fun p =>
      (s.rangeDenied x.issuer r.space p r.len r.write).map fun page => (page, r.write)) = none := by
    refine List.findSome?_eq_none_iff.mpr fun r hr => ?_
    obtain ⟨p, hp, hfree⟩ := hregions r hr
    simp [hp, hfree]
  unfold State.ecRegions at hplaced hgranted
  simp only [State.ecStart, hform, Bool.not_true, Bool.false_eq_true, if_false, hfits, hplaced, hgranted,
    ecBad_of_clean hclean, hset]
  rfl

/-- With no bad granule to meet, the tile's writes begin. -/
theorem ecCode_launches (set : TableSet) : s.ecCode x [] set = (s.sourcesRead x).ecLaunch x [] (s.ecTile x set) := by
  have hgood : [x.source, x.params].findSome? (s.ecBad x []) = none :=
    List.findSome?_eq_none_iff.mpr fun r _ => ecBad_of_clean hclean x r
  rw [State.ecCode, hgood]

/-- A launched tile's first writes land, its tally is found, and the engine takes in its command. -/
theorem ecLaunch_eq (tile : Tile) : ∃ now k, s.ecLaunch x [] tile =
      ((s.firstLanded now).instTally x.ctx (x.at_ 4 2)).2.withCommand x.engine k ∧
    k.ctx = x.ctx ∧ k.unit = x.unit ∧ k.frame = x.frame ∧ k.symbols = x.symbols := by
  unfold State.ecLaunch
  dsimp only
  rw [badMerge_of_clean hclean]
  exact ⟨_, _, rfl, rfl, rfl, rfl, rfl⟩

theorem ecLaunch_starts (tile : Tile) : ∃ k, ((s.ecLaunch x [] tile).ecEngine x.engine).started =
      (s.ecEngine x.engine).started ++ [k] ∧ k.ctx = x.ctx ∧ k.unit = x.unit ∧ k.frame = x.frame ∧ k.symbols = x.symbols ∧
    Keeps [.mem, .ec, .hrd, .out, .freeCount] s (s.ecLaunch x [] tile) := by
  obtain ⟨now, k, heq, hctx, hunit, hframe, hsymbols⟩ := ecLaunch_eq hclean tile
  have hlanded : EcProgress x.engine s ((s.firstLanded now).instTally x.ctx (x.at_ 4 2)).2 :=
    .trans (firstLanded_progress s now x.engine) (.of_keeps (instTally_keeps _ _ _) (by simp))
  refine ⟨k, ?_, hctx, hunit, hframe, hsymbols, ?_⟩ <;> rw [heq]
  · rw [withCommand_started, hlanded.started]
  · exact hlanded.keeps.trans' ((setEcEngine_keeps _ _ _).mono (by simp))

end

/-! ### A command's end (R382) -/

/-- A command's remaining writes land, and its tally counts. -/
def State.ecLanded (s : State) (k : EcCmd) : State :=
  ((k.todo.foldl (fun t w => t.putDest w) s).invalidate k.pages).incTally k.tally

/-- An engine that a command has left, counted. -/
def EcEngine.completed (e : EcEngine) (k : EcCmd) : EcEngine :=
  { e with
    started := e.started.filter fun y => y.serial != k.serial
    symbols := e.symbols + BitVec.ofNat 64 k.symbols
    tiles := e.tiles + 1
    escTiles := if k.escTile then satInc e.escTiles else e.escTiles
    fallbackTiles := if k.flags.testBit 0 then satInc e.fallbackTiles else e.fallbackTiles }

theorem ecLanded_tally (s : State) (k : EcCmd) : (s.ecLanded k).tally k.tally = s.tally k.tally + 1 := by
  rw [State.ecLanded, State.incTally, State.tally_setTally]
  congr 1
  exact State.tally_congr ((invalidate_tallies _ _).trans (foldl_tallies _ putDest_tallies k.todo s)) _

theorem ecLanded_keeps (s : State) (k : EcCmd) : Keeps [.mem, .hrd, .ec, .out] s (s.ecLanded k) :=
  (((Keeps.foldl _ _ putDest_keeps k.todo s).mono (by simp)).trans' ((invalidate_keeps _ _).mono (by simp))).trans'
    ((setTally_keeps _ _ _).mono (by simp))

theorem ecLanded_engine (s : State) (k : EcCmd) (e : Nat) :
    ((s.ecLanded k).ecEngine e).started = (s.ecEngine e).started ∧ ((s.ecLanded k).ecEngine e).tiles = (s.ecEngine e).tiles ∧
      ((s.ecLanded k).ecEngine e).symbols = (s.ecEngine e).symbols := by
  have hput : (k.todo.foldl (fun t w => t.putDest w) s).ecEngine e = s.ecEngine e :=
    State.ecEngine_congr (Keeps.foldl _ _ putDest_keeps k.todo s .ec (by decide)) e
  have heq : (s.ecLanded k).ecEngine e = ((k.todo.foldl (fun t w => t.putDest w) s).invalidate k.pages).ecEngine e := rfl
  rw [heq, ← hput]
  exact invalidate_engine _ _ _

/-- A tile without flags is reported by nothing (R381). -/
theorem ecFlags_of_none (s : State) (e : Nat) {k : EcCmd} (hflags : k.flags = 0) : s.ecFlags e k = s := by
  simp [State.ecFlags, hflags]

section
variable {s : State} {e : Nat} {k : EcCmd} (halive : s.alive = true)
  (hfind : (s.ecEngine e).started.find? (fun y => y.serial == k.serial) = some k)
include hfind

theorem exec_ecCommandComplete_waits (hwait : (k.ordered && (s.ecEngine e).earlier k) = true) :
    exec (.ecCommandComplete e k.serial) s = .next s := by
  simp only [exec, execEcCommandComplete, hfind, hwait, Bool.or_true, if_true]

include halive

theorem exec_ecCommandComplete (hfree : (k.ordered && (s.ecEngine e).earlier k) = false) (hflags : k.flags = 0) :
    exec (.ecCommandComplete e k.serial) s =
      .next ((s.ecLanded k).setEcEngine e (((s.ecLanded k).ecEngine e).completed k)) := by
  simp only [exec, execEcCommandComplete, hfind, hfree, halive, Bool.not_true, Bool.or_false, Bool.false_eq_true, if_false]
  rw [ecFlags_of_none _ _ hflags]
  rfl

theorem ecCommandComplete_counts (hfree : (k.ordered && (s.ecEngine e).earlier k) = false) (hflags : k.flags = 0) :
    ∃ t, exec (.ecCommandComplete e k.serial) s = .next t ∧ t.tally k.tally = s.tally k.tally + 1 ∧
      (t.ecEngine e).started = (s.ecEngine e).started.filter (fun y => y.serial != k.serial) ∧
      (t.ecEngine e).tiles = (s.ecEngine e).tiles + 1 ∧
      (t.ecEngine e).symbols = (s.ecEngine e).symbols + BitVec.ofNat 64 k.symbols ∧ Keeps [.mem, .hrd, .ec, .out] s t := by
  obtain ⟨hstarted, htiles, hsymbols⟩ := ecLanded_engine s k e
  refine ⟨_, exec_ecCommandComplete halive hfind hfree hflags, ecLanded_tally s k, ?_, ?_, ?_,
    (ecLanded_keeps s k).trans' ((setEcEngine_keeps _ _ _).mono (by simp))⟩ <;>
    rw [State.ecEngine_setEcEngine, EcEngine.completed]
  · rw [hstarted]
  · rw [htiles]
  · rw [hsymbols]

end

theorem entropyCommandsStartAndComplete : EntropyCommandsStartAndComplete := by
  intro s e c u ue i dec hi
  refine ⟨exec_ecRow_of_none hi, fun x hhead hdec hform => ?_, ?_, fun k halive hfind =>
    ⟨exec_ecCommandComplete_waits hfind, ecCommandComplete_counts halive hfind⟩⟩
  · obtain ⟨-, rfl, -⟩ := ecHead_eq hhead
    refine ⟨_, exec_ecRow_of_some hi hhead hdec, ?_⟩
    rw [ecStart_of_malformed ue hform]
    exact ecFail_not_held _ x 1 _
  · rintro x s' hhead hdec rfl hform hcap hregions htables rfl hclean
    obtain ⟨rfl, rfl, rfl⟩ := ecHead_eq hhead
    obtain ⟨set, hset⟩ := Option.isSome_iff_exists.mp htables
    have hread : EcProgress x.engine s (((s.headTaken x.ctx x.unit).tablesRead x).sourcesRead x) :=
      ((EcProgress.of_keeps (modUnit_keeps s x.ctx x.unit _) (by simp)).trans (tablesRead_progress _ x)).trans
        (sourcesRead_progress _ x _)
    have hclean' : ((s.headTaken x.ctx x.unit).tablesRead x).mem.poison = [] := (tablesRead_poison _ x).trans hclean
    obtain ⟨k, hstarted, hctx, hunit, hframe, hsymbols, hkeeps⟩ :=
      ecLaunch_starts ((sourcesRead_poison _ x).trans hclean') (((s.headTaken x.ctx x.unit).tablesRead x).ecTile x set)
    refine ⟨_, k, exec_ecRow_of_some hi hhead hdec, ?_⟩
    rw [ecStart_codes (s := s.headTaken x.ctx x.unit) hclean hform hcap hregions hset, ecCode_launches hclean',
      hstarted, hread.started]
    exact ⟨rfl, hctx, hunit, hframe, hsymbols, hread.keeps.trans' hkeeps⟩

end Sys2Proof.Machine
end

section
/-!
The fatal errors of channels, entropy engines and dictionary engines (R281, R390, R443).
-/
namespace Sys2Proof.Machine
open Sys2Proof

/-! ### What each error marks and reports -/

/-- A channel disabled by its fatal error, before the report. -/
def State.chanDisabled (s : State) (ch : Nat) : State := s.modChan ch fun x => { x with disabled := true, lastErr := 13 }

/-- E-RTV-13 of a channel: the record names the function that a channel in driver mode serves. -/
def State.chanFatalEv (s : State) (ch : Nat) : Ev :=
  { blk := .rtv, nn := 13, quarter := some (chanQuarter ch), unit := .channel ch
    func := if (s.chan ch).mode = 2 then some (s.chan ch).func.toNat else none }

/-- A channel disabled and reported. -/
def State.chanFailed (s : State) (ch : Nat) : State := reportWith 3 (s.chanFatalEv ch) (s.chanDisabled ch)

/-- An entropy engine disabled, its scale tables gone, before the report. -/
def State.ecDisabled (s : State) (e : Nat) : State := s.setEcEngine e { s.ecEngine e with disabled := true, sets := [] }

/-- An entropy engine disabled and reported: E-EC-09. -/
def State.ecFailed (s : State) (e : Nat) : State :=
  reportWith 3 { blk := .ec, nn := 9, quarter := some (e / 4), unit := .entropy e } (s.ecDisabled e)

/-- A dictionary engine disabled and counted, before the report. -/
def State.dceDisabled (s : State) (e : Nat) : State :=
  let t := s.setDceEngine e { s.dceEngine e with disabled := true }
  { t with dce := { t.dce with engineFatal := satInc t.dce.engineFatal } }

/-- A dictionary engine disabled and reported: E-DCE-02. -/
def State.dceFailed (s : State) (e : Nat) : State :=
  reportWith 3 { blk := .dce, nn := 2, quarter := some (e / 2), unit := .dict e } (s.dceDisabled e)

/-- The frames of several contexts restart. -/
def State.restartFrames (s : State) (cs : List Nat) : State := cs.foldl (fun t c => t.restartFrame c) s

/-- The started driver commands of a channel end with E-RTV-13. -/
def State.endStarted (s : State) (ch : Nat) (ks : List Cmd) : State := ks.foldl (fun t k => t.endWith ch 13 k) s

/-- The driver commands started on a dictionary engine end with E-RTV-13, and their channels halt. -/
def State.endOnEngine (s : State) (ks : List (Nat × Cmd)) : State :=
  ks.foldl (fun t p => if p.2.issuer.isUnit then t
    else (t.modChan p.1 fun x => { x.halt with lastErr := 13 }).endWith p.1 13 p.2) s

/-- The contexts whose frames a dictionary engine's fatal error restarts. -/
def State.dceFrames (s : State) (e : Nat) (ks : List (Nat × Cmd)) : List Nat :=
  ((s.boundTo 2 e) ++ issuingCtxs ks).foldl (fun l c => insertNat c l) []

theorem boundTo_congr {s t : State} (h : t.hrd = s.hrd) (kind place : Nat) : t.boundTo kind place = s.boundTo kind place := by
  rw [State.boundTo, h, State.boundTo]

theorem FramesLeave.restartFrames {s : State} {cs : List Nat} : FramesLeave s (s.restartFrames cs) :=
  .foldl _ (fun _ _ => .restartFrame) cs s

theorem FramesLeave.endStarted {s : State} {ch : Nat} {ks : List Cmd} : FramesLeave s (s.endStarted ch ks) :=
  .foldl _ (fun _ _ => .endWith) ks s

theorem FramesLeave.endOnEngine {s : State} {ks : List (Nat × Cmd)} : FramesLeave s (s.endOnEngine ks) := by
  refine .foldl _ (fun t p => ?_) ks s
  split
  · exact .rfl' t
  · exact FramesLeave.trans (.modChan (by intro; rfl)) .endWith

section
variable (s : State) (e : Nat)

theorem chanFailed_chan : (s.chanFailed e).chan e = { s.chan e with disabled := true, lastErr := 13 } := by
  rw [State.chanFailed, State.chan_congr (reportWith_rtv _ _ _), State.chanDisabled, State.modChan_eq, State.chan_setChan]

theorem chanFailed_records : Records s (s.chanFailed e) ⟨.rtv, 13⟩ .unitFatal (.channel e) [] :=
  records_of_before (reportWith_records 2 _ _) id rfl

theorem chanFailed_keeps : Keeps ([.rtv] ++ reportParts) s (s.chanFailed e) :=
  ((setChan_keeps s e _).mono (by simp)).trans' ((reportWith_keeps _ _ _).mono fun _ => List.mem_append_right _)

theorem chanFailed_boundTo (kind place : Nat) : (s.chanFailed e).boundTo kind place = s.boundTo kind place :=
  boundTo_congr (reportWith_hrd _ _ _) _ _

theorem ecFailed_engine : (s.ecFailed e).ecEngine e = { s.ecEngine e with disabled := true, sets := [] } := by
  rw [State.ecFailed, State.ecEngine_congr (reportWith_ec _ _ _), State.ecDisabled, State.ecEngine_setEcEngine]

theorem ecFailed_records : Records s (s.ecFailed e) ⟨.ec, 9⟩ .unitFatal (.entropy e) [] :=
  records_of_before (reportWith_records 2 _ _) id rfl

theorem ecFailed_keeps : Keeps ([.ec] ++ reportParts) s (s.ecFailed e) :=
  ((setEcEngine_keeps s e _).mono (by simp)).trans' ((reportWith_keeps _ _ _).mono fun _ => List.mem_append_right _)

theorem ecFailed_boundTo (kind place : Nat) : (s.ecFailed e).boundTo kind place = s.boundTo kind place :=
  boundTo_congr (reportWith_hrd _ _ _) _ _

theorem dceFailed_dce : (s.dceFailed e).dce = (s.dceDisabled e).dce := reportWith_dce _ _ _

theorem dceDisabled_engine : (s.dceDisabled e).dceEngine e = { s.dceEngine e with disabled := true } :=
  State.dceEngine_setDceEngine s e _

theorem dceDisabled_keeps : Keeps [.dce] s (s.dceDisabled e) := by
  intro p hp; cases p <;> simp_all [Part.same, State.dceDisabled]

theorem dceFailed_records : Records s (s.dceFailed e) ⟨.dce, 2⟩ .unitFatal (.dict e) [] :=
  records_of_before (reportWith_records 2 _ _) id rfl

theorem dceFailed_keeps : Keeps ([.dce] ++ reportParts) s (s.dceFailed e) :=
  ((dceDisabled_keeps s e).mono (by simp)).trans' ((reportWith_keeps _ _ _).mono fun _ => List.mem_append_right _)

theorem dceFailed_boundTo (kind place : Nat) : (s.dceFailed e).boundTo kind place = s.boundTo kind place :=
  boundTo_congr (reportWith_hrd _ _ _) _ _

end

/-! ### The three errors -/

section
variable {s : State} {e : Nat}

theorem exec_channelFatalError_again (h : (s.chan e).disabled = true) : exec (.channelFatalError e) s = .next s := by
  simp only [exec, execChannelFatalError, h, Bool.or_true, if_true]

theorem exec_ecEngineFatal_again (h : (s.ecEngine e).disabled = true) : exec (.ecEngineFatal e) s = .next s := by
  simp only [exec, execEcEngineFatal, h, Bool.or_true, if_true]

theorem exec_dceEngineFatal_again (h : (s.dceEngine e).disabled = true) : exec (.dceEngineFatal e) s = .next s := by
  simp only [exec, execDceEngineFatal, h, Bool.or_true, if_true]

/-- An engine that works, of those there are, is not passed over by its fatal error. -/
theorem fatalGuard {n : Nat} {down : Bool} (halive : s.alive = true) (hrange : e < n) (hup : down = false) :
    ¬(!s.alive || decide (n ≤ e) || down) = true := by
  simp [halive, hup, hrange]

variable (halive : s.alive = true)
include halive

theorem exec_channelFatalError (hrange : e < 64) (hup : (s.chan e).disabled = false) : exec (.channelFatalError e) s =
    .next (((s.chanFailed e).restartFrames ((s.chanFailed e).boundTo 3 e)).endStarted e (s.chan e).started) := by
  simp only [exec, execChannelFatalError]
  rw [if_neg (fatalGuard halive hrange hup), report_eq _ _ (by intro h; cases h)]
  rfl

theorem exec_ecEngineFatal (hrange : e < 16) (hup : (s.ecEngine e).disabled = false) : exec (.ecEngineFatal e) s =
    .next ((s.ecFailed e).restartFrames ((s.ecFailed e).boundTo 1 e)) := by
  simp only [exec, execEcEngineFatal]
  rw [if_neg (fatalGuard halive hrange hup), report_eq _ _ (by intro h; cases h)]
  rfl

theorem exec_dceEngineFatal (hrange : e < 8) (hup : (s.dceEngine e).disabled = false) : exec (.dceEngineFatal e) s =
    .next (((s.dceFailed e).restartFrames ((s.dceFailed e).dceFrames e (s.engineCmds e))).endOnEngine (s.engineCmds e)) := by
  simp only [exec, execDceEngineFatal]
  rw [if_neg (fatalGuard halive hrange hup), report_eq _ _ (by intro h; cases h)]
  rfl

theorem channelFatalError_disables (hrange : e < 64) (hup : (s.chan e).disabled = false) :
    ∃ t, exec (.channelFatalError e) s = .next t ∧ (t.chan e).disabled = true ∧
      (s.boundTo 3 e = [] → (s.chan e).started = [] → Records s t ⟨.rtv, 13⟩ .unitFatal (.channel e) [] ∧
        (t.chan e).lastErr = 13 ∧ Keeps ([.rtv] ++ reportParts) s t) := by
  refine ⟨_, exec_channelFatalError halive hrange hup, ?_, fun hbound hstarted => ?_⟩
  · rw [(FramesLeave.restartFrames.trans FramesLeave.endStarted).chan e, chanFailed_chan]
  · rw [chanFailed_boundTo, hbound, hstarted]
    exact ⟨chanFailed_records s e, congrArg Chan.lastErr (chanFailed_chan s e), chanFailed_keeps s e⟩

theorem ecEngineFatal_disables (hrange : e < 16) (hup : (s.ecEngine e).disabled = false) :
    ∃ t, exec (.ecEngineFatal e) s = .next t ∧ (t.ecEngine e).disabled = true ∧ (t.ecEngine e).sets = [] ∧
      (s.boundTo 1 e = [] → Records s t ⟨.ec, 9⟩ .unitFatal (.entropy e) [] ∧ Keeps ([.ec] ++ reportParts) s t) := by
  refine ⟨_, exec_ecEngineFatal halive hrange hup, ?_, ?_, fun hbound => ?_⟩
  · rw [FramesLeave.restartFrames.engine e, ecFailed_engine]
  · exact FramesLeave.restartFrames.sets e (congrArg EcEngine.sets (ecFailed_engine s e))
  · rw [ecFailed_boundTo, hbound]
    exact ⟨ecFailed_records s e, ecFailed_keeps s e⟩

theorem dceEngineFatal_disables (hrange : e < 8) (hup : (s.dceEngine e).disabled = false) :
    ∃ t, exec (.dceEngineFatal e) s = .next t ∧ (t.dceEngine e).disabled = true ∧
      t.dce.engineFatal = satInc s.dce.engineFatal ∧
      (s.boundTo 2 e = [] → s.engineCmds e = [] → Records s t ⟨.dce, 2⟩ .unitFatal (.dict e) [] ∧
        Keeps ([.dce] ++ reportParts) s t) := by
  have hdce := fun cs => ((FramesLeave.restartFrames (s := s.dceFailed e) (cs := cs)).trans
    (.endOnEngine (ks := s.engineCmds e))).dce.trans (dceFailed_dce s e)
  refine ⟨_, exec_dceEngineFatal halive hrange hup, ?_, ?_, fun hbound hcmds => ?_⟩
  · rw [State.dceEngine, hdce]
    exact congrArg DceEngine.disabled (dceDisabled_engine s e)
  · rw [hdce]
    rfl
  · have hframes : (s.dceFailed e).dceFrames e [] = [] := by
      rw [State.dceFrames, dceFailed_boundTo, hbound]
      rfl
    rw [hcmds, hframes]
    exact ⟨dceFailed_records s e, dceFailed_keeps s e⟩

end

theorem engineFatalErrorsDisable : EngineFatalErrorsDisable := fun _ _ halive =>
  ⟨channelFatalError_disables halive, ecEngineFatal_disables halive, dceEngineFatal_disables halive,
    exec_channelFatalError_again, exec_ecEngineFatal_again, exec_dceEngineFatal_again⟩

/-- Settles O30: a command's start is followed through its reads to the tile's launch and its end through the writes that
remain; no restart, loss or failed command that follows a fatal error takes an engine back in use (`FramesLeave`). -/
theorem entropyCommandsRunAndEnginesFail : Obligations.EntropyCommandsRunAndEnginesFail :=
  ⟨entropyCommandsStartAndComplete, engineFatalErrorsDisable⟩

end Sys2Proof.Machine
end

section
/-!
Gate ports (R447, R448, R451, R478): what a port's registers and the exception ring show after a write, what becomes of a frame
by its length, check sequence, filter and kind, and what the commands of ports and of the ring's consumer index do.
-/
namespace Sys2Proof.Machine
open Sys2Proof

/-! ### Ports, streams and decoders -/

section
variable {s t : State}

theorem State.port_congr (hing : t.ing = s.ing) (hfuses : t.fuses = s.fuses) (p : Nat) : t.port p = s.port p := by
  simp [State.port, State.portInit, hing, hfuses]

theorem State.stream_congr (h : t.ing = s.ing) (n : Nat) : t.stream n = s.stream n := by simp [State.stream, h]

theorem State.decoder_congr (h : t.ing = s.ing) (k : Nat) : t.decoder k = s.decoder k := by simp [State.decoder, h]

theorem State.stream_setStream_other (n k : Nat) (x : Stream) (h : k ≠ n) : (s.setStream n x).stream k = s.stream k := by
  simp [State.stream, Tab.getD_put_other _ _ _ _ _ h]

theorem State.decoder_setDecoder_other (n k : Nat) (x : Decoder) (h : k ≠ n) : (s.setDecoder n x).decoder k = s.decoder k := by
  simp [State.decoder, Tab.getD_put_other _ _ _ _ _ h]

@[simp] theorem State.decoder_setStream (n k : Nat) (x : Stream) : (s.setStream n x).decoder k = s.decoder k := rfl

@[simp] theorem State.stream_setDecoder (k n : Nat) (x : Decoder) : (s.setDecoder k x).stream n = s.stream n := rfl

end

section
variable (s : State)

theorem setPort_keeps (p : Nat) (x : Port) : Keeps [.ing] s (s.setPort p x) := by
  intro q hq; cases q <;> simp_all [Part.same]

theorem setStream_keeps (n : Nat) (x : Stream) : Keeps [.ing] s (s.setStream n x) := by
  intro q hq; cases q <;> simp_all [Part.same]

theorem setDecoder_keeps (k : Nat) (x : Decoder) : Keeps [.ing] s (s.setDecoder k x) := by
  intro q hq; cases q <;> simp_all [Part.same]

theorem setIng_keeps (i : Ing) : Keeps [.ing] s { s with ing := i } := by
  intro q hq; cases q <;> simp_all [Part.same]

end

/-! ### Reports of the block (Table 13.10) -/

theorem ingCode_not_moduleFatal (n : Nat) : Err.cls ⟨.ing, n⟩ ≠ .moduleFatal := by
  simp only [Err.cls]
  split
  · decide
  · split <;> decide

/-- No E-ING code takes the module to HOLD: its report is the shared one. -/
theorem report_ingCode (s : State) (e : Ev) (hblk : e.blk = .ing) (hcls : e.cls = none) : s.report e = reportWith 3 e s := by
  have hclass : e.class ≠ .moduleFatal := by
    rw [Ev.class, hcls, Ev.err, hblk]
    exact ingCode_not_moduleFatal e.nn
  exact report_eq s e fun hfatal => absurd hfatal hclass

section
variable {s t : State} (h : Keeps [.ing] s t) (e : Ev)
include h

/-- A report after a change of the block's own state is the newest record. -/
theorem records_of_ing : Records s (reportWith 3 e t) e.err e.class e.unit e.detail :=
  records_of_before (reportWith_records 2 e t) (fun hr => (ringsAtHost_congr (h .fns (by decide))).trans hr)
    (h .erl (by decide))

theorem reported_keeps_of_ing : Keeps ([.ing] ++ reportParts) s (reportWith 3 e t) :=
  (h.mono (by simp)).trans' ((reportWith_keeps 3 e t).mono fun _ => List.mem_append_right _)

end

@[simp] theorem reportWith_port (e : Ev) (s : State) (p : Nat) : (reportWith 3 e s).port p = s.port p :=
  State.port_congr (reportWith_ing _ _ _) (reportWith_fuses _ _ _) p

/-! ### The exception ring (R451) -/

section
variable (s : State) (p why : Nat) (f : List Byte)

/-- A port with one more frame dropped at a full exception ring. -/
def State.excDropped : State := s.setPort p { s.port p with excDrops := (s.port p).excDrops + 1 }

theorem excDropped_port : ((s.excDropped p).port p).excDrops = (s.port p).excDrops + 1 := by
  rw [State.excDropped, State.port_setPort]

theorem toException_of_full (hfull : (s.ing.excHead.toNat + 1) % s.excSize = s.ing.excTail.toNat) :
    s.toException p why f = reportWith 3 { blk := .ing, nn := 8, quarter := some (1 + p), unit := .gate p } (s.excDropped p) := by
  simp only [State.toException, if_pos hfull]
  exact report_ingCode _ _ rfl rfl

variable (hroom : (s.ing.excHead.toNat + 1) % s.excSize ≠ s.ing.excTail.toNat)
include hroom

theorem toException_of_room_ing : (s.toException p why f).ing =
    { s.ing with excHead := BitVec.ofNat 16 ((s.ing.excHead.toNat + 1) % s.excSize) } := by
  simp only [State.toException, if_neg hroom]
  simp only [State.excSize, State.hostWrite_ing, State.takeFree_ing]

theorem toException_of_room_keeps : Keeps [.ing, .out, .freeCount] s (s.toException p why f) := by
  simp only [State.toException, if_neg hroom]
  exact (((takeFree_keeps s).mono (by simp)).trans' ((hostWrite_keeps _ _ _ _).mono (by simp))).trans'
    ((setIng_keeps _ _).mono (by simp))

end

/-! ### A frame at an enabled port whose link is up (R448) -/

/-- A frame's length and check sequence are right. -/
def wellFramed (b : List Byte) : Prop :=
  64 ≤ b.length ∧ b.length ≤ 9216 ∧ b.drop (b.length - 4) = ethFcs (b.take (b.length - 4))

/-- What the filter of a port makes of a frame without its check sequence. -/
def Port.accept (q : Port) (f : List Byte) : Option (Nat × List Byte) := acceptFrame q.mac.toNat q.vlanEn q.vid.toNat f

theorem not_wellFramed_iff (b : List Byte) :
    ¬wellFramed b ↔ b.length < 64 ∨ 9216 < b.length ∨ b.drop (b.length - 4) ≠ ethFcs (b.take (b.length - 4)) := by
  rw [wellFramed, Decidable.not_and_iff_or_not, Decidable.not_and_iff_or_not, Nat.not_le, Nat.not_le]

theorem filtered_port (s : State) (p : Nat) : (s.filtered p).port p = { s.port p with filtered := (s.port p).filtered + 1 } :=
  State.port_setPort _ _ _

theorem filtered_keeps (s : State) (p : Nat) : Keeps [.ing] s (s.filtered p) := setPort_keeps s p _

section
variable {s : State} {p : Nat} {b : List Byte} (hp : p < 2) (halive : s.alive = true) (hen : (s.port p).en = true)
  (hlink : (s.port p).link = true)
include hp halive hen hlink

theorem portGuard : ¬(!s.alive || decide (2 ≤ p) || !(s.port p).en || !(s.port p).link) = true := by
  simp [halive, hen, hlink, hp]

theorem exec_gateFrameReceive_malformed (hbad : ¬wellFramed b) :
    exec (.gateFrameReceive p b) s = .next (s.filtered p) := by
  simp only [exec, execGateFrameReceive]
  rw [if_neg (portGuard hp halive hen hlink), if_pos ((not_wellFramed_iff b).mp hbad)]

variable (hframe : wellFramed b)
include hframe

theorem exec_gateFrameReceive_macControl (hmac : macControl (b.take (b.length - 4)) = true) :
    exec (.gateFrameReceive p b) s = .next s := by
  simp only [exec, execGateFrameReceive]
  rw [if_neg (portGuard hp halive hen hlink), if_neg (fun h => (not_wellFramed_iff b).mpr h hframe), if_pos hmac]

variable (hmac : macControl (b.take (b.length - 4)) = false)
include hmac

theorem exec_gateFrameReceive_notAccepted (haccept : (s.port p).accept (b.take (b.length - 4)) = none) :
    exec (.gateFrameReceive p b) s = .next (s.filtered p) := by
  unfold Port.accept at haccept
  simp only [exec, execGateFrameReceive]
  rw [if_neg (portGuard hp halive hen hlink), if_neg (fun h => (not_wellFramed_iff b).mpr h hframe), hmac,
    if_neg Bool.false_ne_true, haccept]

variable {ty : Nat} {d : List Byte} (haccept : (s.port p).accept (b.take (b.length - 4)) = some (ty, d))
include haccept

theorem exec_gateFrameReceive_exception {why : Nat} (hoffer : offer ty d = .exception why) :
    exec (.gateFrameReceive p b) s = .next (s.toException p why (b.take (b.length - 4))) := by
  unfold Port.accept at haccept
  simp only [exec, execGateFrameReceive]
  rw [if_neg (portGuard hp halive hen hlink), if_neg (fun h => (not_wellFramed_iff b).mpr h hframe), hmac,
    if_neg Bool.false_ne_true, haccept]
  simp only [hoffer]

theorem exec_gateFrameReceive_packet {v6 : Bool} {dst udp n : Nat} {e : List Byte} {rest : List Nat} {r : Rtp}
    (hoffer : offer ty d = .udp v6 dst udp e)
    (hmatch : Tab.keysWhere (fun _ y => y.accepts p v6 dst udp e) s.ing.streams = n :: rest) (hrtp : readRtp e = some r) :
    exec (.gateFrameReceive p b) s = .next (s.packetIn n r) := by
  unfold Port.accept at haccept
  simp only [exec, execGateFrameReceive]
  rw [if_neg (portGuard hp halive hen hlink), if_neg (fun h => (not_wellFramed_iff b).mpr h hframe), hmac,
    if_neg Bool.false_ne_true, haccept]
  simp only [hoffer, hmatch, hrtp]

end

/-! ### Ports and the consumer index -/

section
variable {s : State} {p : Nat}

theorem portEnableGuard (hp : p < 2) (hreach : s.hostReach 0 = true) :
    ¬(!s.hostReach 0 || (0 : Nat) != 0 || decide (2 ≤ p)) = true := by
  rw [hreach, decide_eq_false (Nat.not_le.mpr hp)]
  decide

theorem exec_portEnable_down (hp : p < 2) (v : Word) (hreach : s.hostReach 0 = true) (hoff : (s.port p).en = false) :
    exec (.portEnable 0 p v) s = .next (s.setPort p { (s.port p).withCtrl v.toNat with en := true }) := by
  simp only [exec, execPortEnable]
  rw [if_neg (portEnableGuard hp hreach), hoff, if_neg Bool.false_ne_true]

/-- A port whose status shows a locked write. -/
def State.portMarked (s : State) (p : Nat) : State := s.setPort p { s.port p with fieldLocked := true }

theorem portMarked_port (s : State) (p : Nat) : (s.portMarked p).port p = { s.port p with fieldLocked := true } :=
  State.port_setPort _ _ _

theorem portLocked_eq (s : State) (fn p off value : Nat) : s.portLocked fn p off value =
    reportWith 3 { blk := .ing, nn := 3, func := some fn, detail := [off, value % 2 ^ 32] } (s.portMarked p) := by
  unfold State.portLocked State.lockedRecord
  exact report_ingCode _ _ rfl rfl

theorem exec_portEnable_up (hp : p < 2) (v : Word) (hreach : s.hostReach 0 = true) (hon : (s.port p).en = true) :
    exec (.portEnable 0 p v) s = .next (s.portLocked 0 p (0x1000000 + 0x40 * p) v.toNat) := by
  simp only [exec, execPortEnable]
  rw [if_neg (portEnableGuard hp hreach), hon, if_pos rfl]

theorem exec_gateLinkUp (hp : p < 2) (halive : s.alive = true) (hon : (s.port p).en = true) :
    exec (.gateLinkUp p) s = .next (s.setPort p { s.port p with link := true }) := by
  simp [exec, execGateLinkUp, halive, hon, hp]

theorem exec_gateLinkDown (hp : p < 2) (halive : s.alive = true) (hlink : (s.port p).link = true) :
    exec (.gateLinkDown p) s = .next (reportWith 3 { blk := .ing, nn := 7, quarter := some (1 + p), unit := .gate p }
      (s.setPort p { s.port p with link := false })) := by
  simp only [exec, execGateLinkDown, halive, hlink, hp, decide_true, Bool.and_self, if_true]
  rw [report_ingCode _ _ rfl rfl]

theorem exec_excTailWrite_ok (v : Word) (hreach : s.hostReach 0 = true)
    (hok : consumerOk s.excSize s.ing.excTail.toNat (v.toNat % 65536) s.ing.excHead.toNat = true) :
    exec (.excTailWrite 0 v) s = .next { s with ing := { s.ing with excTail := BitVec.ofNat 16 (v.toNat % 65536) } } := by
  simp [exec, execExcTailWrite, hreach, hok]

theorem exec_excTailWrite_bad (v : Word) (hreach : s.hostReach 0 = true)
    (hbad : consumerOk s.excSize s.ing.excTail.toNat (v.toNat % 65536) s.ing.excHead.toNat = false) :
    exec (.excTailWrite 0 v) s = .next (s.accessError 0) := by
  simp [exec, execExcTailWrite, hreach, hbad]

end

/-- Settles O32: each frame's fate is its case's equation of GATE_FRAME_RECEIVE, and the commands of a port and of the ring's
consumer index change the block's own state, with one report at most. -/
theorem gatePortsFilterFrames : Obligations.GatePortsFilterFrames := by
  intro s p hp
  refine ⟨?_, fun v hreach hoff => ?_, fun v hreach hon => ?_, fun halive hon => ?_, fun halive hlink => ?_,
    fun v hreach => ?_⟩
  · rintro b f halive hen hlink rfl
    refine ⟨fun hdrop => ?_, fun hmin hmax hfcs hmac => ?_, fun ty d why hmin hmax hfcs hmac haccept hoffer => ?_⟩
    · refine ⟨s.filtered p, ?_, filtered_port s p, filtered_keeps s p⟩
      by_cases hframe : wellFramed b
      · obtain ⟨hmin, hmax, hfcs⟩ := hframe
        obtain hlen | hlen | hne | ⟨hmac, haccept⟩ := hdrop
        · omega
        · omega
        · exact absurd hfcs hne
        · exact exec_gateFrameReceive_notAccepted hp halive hen hlink ⟨hmin, hmax, hfcs⟩ hmac haccept
      · exact exec_gateFrameReceive_malformed hp halive hen hlink hframe
    · exact exec_gateFrameReceive_macControl hp halive hen hlink ⟨hmin, hmax, hfcs⟩ hmac
    · have hexec := exec_gateFrameReceive_exception hp halive hen hlink ⟨hmin, hmax, hfcs⟩ hmac haccept hoffer
      refine ⟨fun hroom => ?_, fun hfull => ?_⟩
      · exact ⟨_, hexec, toException_of_room_ing s p why _ hroom, toException_of_room_keeps s p why _ hroom⟩
      · rw [toException_of_full s p why _ hfull] at hexec
        have hkeeps : Keeps [.ing] s (s.excDropped p) := setPort_keeps s p _
        exact ⟨_, hexec, by rw [reportWith_port, excDropped_port], records_of_ing hkeeps _, reported_keeps_of_ing hkeeps _⟩
  · refine ⟨_, exec_portEnable_down hp v hreach hoff, ?_, ?_, setPort_keeps _ _ _⟩ <;> rw [State.port_setPort]
    rfl
  · have hkeeps : Keeps [.ing] s (s.portMarked p) := setPort_keeps s p _
    have hrecords := records_of_ing hkeeps
      { blk := .ing, nn := 3, func := some 0, detail := [0x1000000 + 0x40 * p, v.toNat % 2 ^ 32] }
    rw [Nat.mod_eq_of_lt v.isLt] at hrecords
    refine ⟨_, exec_portEnable_up hp v hreach hon, ?_⟩
    rw [portLocked_eq, Nat.mod_eq_of_lt v.isLt, reportWith_port, portMarked_port]
    exact ⟨rfl, hrecords, reported_keeps_of_ing hkeeps _⟩
  · exact ⟨_, exec_gateLinkUp hp halive hon, State.port_setPort _ _ _, setPort_keeps _ _ _⟩
  · have hkeeps : Keeps [.ing] s (s.setPort p { s.port p with link := false }) := setPort_keeps s p _
    refine ⟨_, exec_gateLinkDown hp halive hlink, ?_, records_of_ing hkeeps _, reported_keeps_of_ing hkeeps _⟩
    rw [reportWith_port, State.port_setPort]
  · exact ⟨fun hok => ⟨_, exec_excTailWrite_ok v hreach hok, rfl, setIng_keeps _ _⟩,
      fun hbad => ⟨_, exec_excTailWrite_bad v hreach hbad, accessError_records s 0, accessError_keeps s 0⟩⟩

end Sys2Proof.Machine
end

section
/-!
Access units (R452 to R456, R467): what a packet's sequence number and timestamp do to its stream, how an access unit closes, is
numbered and leaves for its decoder, and how the decoder takes it up.
-/
namespace Sys2Proof.Machine
open Sys2Proof

/-! ### A datagram is no MAC control frame (Table 13.1) -/

/-- The EtherTypes of the datagrams that a port offers to streams. -/
theorem offer_udp_type {ty : Nat} {d e : List Byte} {v6 : Bool} {dst udp : Nat} (h : offer ty d = .udp v6 dst udp e) :
    ty = 0x0800 ∨ ty = 0x86DD := by
  unfold offer at h
  split at h
  · exact .inl ‹_›
  · split at h
    · exact .inr ‹_›
    · cases h

/-- An accepted frame is tagged, or its type stands where an untagged frame has it. -/
theorem acceptFrame_type {mac vid ty : Nat} {vlan : Bool} {f d : List Byte} (h : acceptFrame mac vlan vid f = some (ty, d)) :
    beAt f 12 2 = 0x8100 ∨ beAt f 12 2 = ty := by
  unfold acceptFrame at h
  dsimp only at h
  split at h
  · cases h
  · split at h
    · split at h
      · simp_all
      · cases h
    · split at h
      · cases h
      · simp only [Option.some.injEq, Prod.mk.injEq] at h
        exact .inr h.1

theorem macControl_of_udp {q : Port} {ty : Nat} {f d e : List Byte} {v6 : Bool} {dst udp : Nat}
    (haccept : q.accept f = some (ty, d)) (hoffer : offer ty d = .udp v6 dst udp e) : macControl f = false := by
  have hty := offer_udp_type hoffer
  rw [macControl, beq_eq_false_iff_ne]
  obtain h | h := acceptFrame_type haccept <;> omega

/-! ### The sequence number of a packet (R452) -/

section
variable {x : Stream} {h : Nat} (hhigh : x.highest = some h)
include hhigh

theorem Stream.judge_highest : x.judge h = (.dup, x) := by
  have hzero : (h + 65536 - h) % 65536 = 0 := by omega
  simp only [Stream.judge, hhigh, hzero, if_true]

/-- The successor of the highest sequence number is the highest, and the window of those seen moves on. -/
theorem Stream.judge_next (hlt : h < 65536) : ∃ y l, x.judge ((h + 1) % 65536) = (.place, y) ∧
    y = { x with highest := some ((h + 1) % 65536), seen := l } := by
  have hone : ((h + 1) % 65536 + 65536 - h) % 65536 = 1 := by omega
  refine ⟨_, (h + 1) % 65536 :: x.seen.filter fun y => ((h + 1) % 65536 + 65536 - y) % 65536 ≤ 64, ?_, rfl⟩
  simp only [Stream.judge, hhigh, hone, Nat.one_ne_zero, if_false, (by decide : 1 < 32768), if_true]

end

/-! ### A packet that joins its access unit (R453, R454) -/

/-- A packet's payload, under its sequence number. -/
def Rtp.packet (r : Rtp) : Packet := ⟨r.seq, r.payload⟩

theorem Stream.placeVideo_of_open (x : Stream) (at_ : DWord) (ts : Nat) (q : Packet) (h : x.hasAu ts = true) :
    x.placeVideo at_ ts false ⟨some q, false⟩ = x.modAu ts fun u => u.add q := by
  simp [Stream.placeVideo, h]

/-- Where its SSRC is part of the match, only a jump of half the numbers is a new source (R456). -/
theorem Stream.sameSource {x : Stream} {h : Nat} {r : Rtp} (hssrc : x.ssrcEn = true) (hhigh : x.highest = some h)
    (hnear : (r.seq + 65536 - h) % 65536 ≠ 32768) :
    ((!x.ssrcEn && x.lastSsrc.isSome && x.lastSsrc != some r.ssrc) ||
      x.highest.any fun h => (r.seq + 65536 - h) % 65536 == 32768) = false := by
  simp [hssrc, hhigh, hnear]

section
variable {s : State} {n h : Nat} {x : Stream} {r : Rtp} (hx : s.stream n = x) (haudio : x.isAudio = false)
  (hssrc : x.ssrcEn = true) (hhigh : x.highest = some h)
include hx haudio hssrc hhigh

theorem packetIn_of_highest (hseq : r.seq = h) : s.packetIn n r =
    s.setStream n { x with lastSsrc := some r.ssrc, dup := satInc x.dup } := by
  have hsame := Stream.sameSource (r := r) hssrc hhigh (by omega)
  have haudio' : ({ x with lastSsrc := some r.ssrc } : Stream).isAudio = false := haudio
  have hjudge := Stream.judge_highest (x := { x with lastSsrc := some r.ssrc }) hhigh
  rw [← hseq] at hjudge
  simp only [State.packetIn, hx, hsame, haudio', hjudge, Bool.false_and, Bool.false_eq_true, if_false]

theorem packetIn_of_next (hlt : h < 65536) (hseq : r.seq = (h + 1) % 65536) (hopen : x.hasAu r.ts = true)
    (hmarker : r.marker = false) (hroom : x.heldBytes + r.payload.length ≤ x.jitMib.toNat * 2 ^ 20)
    (hgrant : s.cadDenied 0x20 x.jitterArea.1 x.jitterArea.2 true = none) :
    ∃ l, s.packetIn n r = s.takeFree.setStream n (Stream.modAu
      { x with lastSsrc := some r.ssrc, highest := some r.seq, seen := l } r.ts fun u => u.add r.packet) := by
  have hsame := Stream.sameSource (r := r) hssrc hhigh (by omega)
  obtain ⟨y, l, hjudge, hy⟩ := Stream.judge_next (x := { x with lastSsrc := some r.ssrc }) hhigh hlt
  rw [← hseq] at hjudge hy
  have haudio' : ({ x with lastSsrc := some r.ssrc } : Stream).isAudio = false := haudio
  have hvideo : y.isAudio = false := by rw [hy]; exact haudio
  have hroom' : ¬y.jitMib.toNat * 2 ^ 20 < y.heldBytes + r.payload.length := by rw [hy]; exact Nat.not_lt.mpr hroom
  have hgrant' : s.jitterDenied y = none := by rw [State.jitterDenied, hy]; exact congrArg (Option.filter _) hgrant
  have hopen' : y.hasAu r.ts = true := by rw [hy]; exact hopen
  refine ⟨l, ?_⟩
  rw [← hy]
  simp only [State.packetIn, hx, hsame, haudio', hjudge, Bool.false_and, hvideo, hroom', hgrant', Option.isSome_none,
    hmarker, Bool.false_eq_true, if_false]
  rw [Stream.placeVideo_of_open y _ _ _ hopen', Rtp.packet]

end

/-! ### Closing (R454) -/

/-- The oldest open access unit closes. -/
theorem Stream.close_oldest {x : Stream} {u : AccessUnit} {rest : List AccessUnit} (h : x.opens = u :: rest) (at_ : DWord) :
    x.close at_ u.key = { x with opens := x.opens.filter fun y => y.key != u.key
                                 closed := insertAu { u with closedAt := at_ } x.closed } := by
  have hfind : x.opens.find? (fun y => y.key == u.key) = some u := by rw [h]; simp
  simp only [Stream.close, hfind]

theorem exec_auCloseTimeout {s : State} {n : Nat} {u : AccessUnit} {rest : List AccessUnit} (halive : s.alive = true)
    (h : (s.stream n).opens = u :: rest) :
    exec (.auCloseTimeout n) s = .next (s.setStream n ((s.stream n).close s.epoch u.key)) := by
  simp [exec, execAuCloseTimeout, h, halive]

/-! ### Release (R453, R455, R456) -/

/-- What an access unit's packets hold, where it does not hold NAL units already. -/
def AccessUnit.payloads (u : AccessUnit) (codec : Nat) : Depack := depacketise codec (u.packets.map fun p => (p.seq, p.payload))

/-- An access unit with whole NAL units in hand. -/
def AccessUnit.assembled (u : AccessUnit) (codec : Nat) : AccessUnit :=
  if u.nals.isEmpty then
    { u with nals := (u.payloads codec).nals, loss := u.loss || (u.payloads codec).loss || gapIn u.packets }
  else u

theorem AccessUnit.assembled_no (u : AccessUnit) (codec : Nat) : (u.assembled codec).no = u.no := by
  unfold AccessUnit.assembled; split <;> rfl

theorem AccessUnit.assembled_ts (u : AccessUnit) (codec : Nat) : (u.assembled codec).ts = u.ts := by
  unfold AccessUnit.assembled; split <;> rfl

/-- A stream whose oldest closed access unit has its number and waits for its decoder. -/
def Stream.passOn (x : Stream) (u : AccessUnit) (rest : List AccessUnit) : Stream :=
  { (x.number u).2 with
    closed := rest
    ready := x.ready ++ [(x.number u).1.assembled x.codec.toNat]
    malformed := satAdd x.malformed ((x.number u).1.payloads x.codec.toNat).malformed }

/-- A decoder with one more access unit of a stream waiting. -/
def Decoder.queued (d : Decoder) (n : Nat) : Decoder := { d with queue := d.queue ++ [n] }

/-- The next free number is the one after the access unit's own. -/
theorem Stream.number_nextNo (x : Stream) (u : AccessUnit) : (x.number u).2.nextNo = (x.number u).1.no + 1 := rfl

theorem exec_auRelease_video {s : State} {n : Nat} {x : Stream} {u : AccessUnit} {rest : List AccessUnit}
    (hx : s.stream n = x) (halive : s.alive = true) (hclosed : x.closed = u :: rest)
    (hfirst : x.opens.any (fun y => u.isLater y) = false) (haudio : x.isAudio = false) :
    exec (.auRelease n) s = .next ((s.setStream n (x.passOn u rest)).setDecoder x.decUsed.toNat
      ((s.decoder x.decUsed.toNat).queued n)) := by
  have hfirst' : (x.number u).2.opens.any (fun y => (x.number u).1.isLater y) = false := hfirst
  have haudio' : (x.number u).2.isAudio = false := haudio
  simp only [exec, execAuRelease, hx, hclosed, halive, hfirst', haudio', Bool.not_true, Bool.or_self, Bool.false_eq_true,
    if_false]
  rfl

/-! ### A decoder takes up an access unit (R460, R467) -/

theorem exec_pictureDecodeStart {s : State} {n k : Nat} {u : AccessUnit} {rest : List Nat} {more : List AccessUnit}
    {ue : UeList} (halive : s.alive = true) (hqueue : (s.decoder k).queue = n :: rest)
    (hup : (s.decoder k).disabled = false) (hidle : (s.decoder k).busy = none) (hready : (s.stream n).ready = u :: more)
    (hgood : s.badReference (s.stream n) ue = none) :
    exec (.pictureDecodeStart ⟨k, ue⟩) s = .next ((s.setStream n { s.stream n with ready := more }).setDecoder k
      { s.decoder k with queue := rest, busy := some (n, u) }) := by
  simp [exec, execPictureDecodeStart, hqueue, halive, hup, hidle, hready, hgood]

theorem packetsFormAccessUnits : PacketsFormAccessUnits := by
  rintro s n x rfl halive
  refine ⟨?_, fun u rest hopens => ?_, fun u rest hclosed hfirst haudio => ?_, ?_⟩
  · rintro p b f d ty h e v6 dst udp rest r hp hen hlink rfl hmin hmax hfcs haccept hoffer hmatch hrtp haudio hssrc hhigh hlt
    have hexec := exec_gateFrameReceive_packet hp halive hen hlink ⟨hmin, hmax, hfcs⟩ (macControl_of_udp haccept hoffer)
      haccept hoffer hmatch hrtp
    refine ⟨fun hseq => ?_, fun hseq hopen hmarker hroom hgrant => ?_⟩
    · rw [packetIn_of_highest rfl haudio hssrc hhigh hseq] at hexec
      refine ⟨_, hexec, ?_, ?_, ?_, setStream_keeps _ _ _⟩ <;> rw [State.stream_setStream]
    · obtain ⟨l, hin⟩ := packetIn_of_next rfl haudio hssrc hhigh hlt hseq hopen hmarker hroom hgrant
      rw [hin] at hexec
      refine ⟨_, hexec, ?_, ?_, ?_, ((takeFree_keeps s).mono (by simp)).trans' ((setStream_keeps _ _ _).mono (by simp))⟩ <;>
        rw [State.stream_setStream] <;> rfl
  · refine ⟨_, exec_auCloseTimeout halive hopens, ?_⟩
    rw [Stream.close_oldest hopens, State.stream_setStream]
    exact ⟨rfl, rfl, fun k hk => State.stream_setStream_other _ _ _ hk, setStream_keeps _ _ _⟩
  · refine ⟨_, ((s.stream n).number u).1.assembled (s.stream n).codec.toNat,
      exec_auRelease_video rfl halive hclosed hfirst haudio, ?_⟩
    rw [State.stream_setDecoder, State.stream_setStream, State.decoder_setDecoder, AccessUnit.assembled_no,
      AccessUnit.assembled_ts]
    exact ⟨rfl, rfl, rfl, rfl, Stream.number_nextNo _ _, rfl, rfl,
      (setStream_keeps _ _ _).trans' (setDecoder_keeps _ _ _)⟩
  · intro k u rest more ue hqueue hup hidle hready hgood
    refine ⟨_, exec_pictureDecodeStart halive hqueue hup hidle hready hgood, State.decoder_setDecoder _ _ _, ?_,
      (setStream_keeps _ _ _).trans' (setDecoder_keeps _ _ _)⟩
    rw [State.stream_setDecoder, State.stream_setStream]

end Sys2Proof.Machine
end

section
/-!
Lost frames of ingest (R463, R475): the record and the marker of a lost frame leave the ingest block, the count of lost frames and
the frames on their way as they were; an event that tells a loss marks its stream's code and hands the loss to the Herder.
-/
namespace Sys2Proof.Machine
open Sys2Proof

/-- The ingest block, the count of lost frames and the frames on their way to the Herder are as before. -/
structure SupplyStands (s t : State) : Prop where
  ing : t.ing = s.ing
  lostCount : t.hrd.lostCount = s.hrd.lostCount
  arriving : ∀ c, (t.ctx c).arriving = (s.ctx c).arriving

namespace SupplyStands
variable {s t u : State}

theorem rfl' (s : State) : SupplyStands s s := ⟨rfl, rfl, fun _ => rfl⟩

theorem trans (h : SupplyStands s t) (k : SupplyStands t u) : SupplyStands s u :=
  ⟨k.ing.trans h.ing, k.lostCount.trans h.lostCount, fun c => (k.arriving c).trans (h.arriving c)⟩

theorem foldl {α : Type} (g : State → α → State) (h : ∀ s a, SupplyStands s (g s a)) (xs : List α) (s : State) :
    SupplyStands s (xs.foldl g s) :=
  List.foldlRecOn (motive := SupplyStands s) _ _ (rfl' s) fun t ht a _ => ht.trans (h t a)

/-- A change made or not. -/
theorem ite {p : Prop} [Decidable p] (h : SupplyStands s t) : SupplyStands s (if p then t else s) := by
  split
  · exact h
  · exact rfl' s

theorem of_tables (hing : t.ing = s.ing) (hhrd : t.hrd = s.hrd) : SupplyStands s t :=
  ⟨hing, congrArg Hrd.lostCount hhrd, fun c => by rw [State.ctx_congr (congrArg Hrd.ctxs hhrd)]⟩

theorem of_keeps {l : List Part} (h : Keeps l s t) (hl : ∀ p ∈ [Part.ing, .hrd], p ∉ l) : SupplyStands s t :=
  of_tables (h .ing (hl _ (by simp))) (h .hrd (hl _ (by simp)))

theorem modCtx {c : Nat} {g : Ctx → Ctx} (h : ∀ x, (g x).arriving = x.arriving) : SupplyStands s (s.modCtx c g) := by
  refine ⟨rfl, rfl, fun k => ?_⟩
  by_cases hk : k = c
  · subst hk
    rw [State.modCtx_eq, State.ctx_setCtx, h]
  · rw [State.modCtx_eq, State.ctx_setCtx_other _ _ _ _ hk]

theorem dropLines {p : Nat → Bool} : SupplyStands s (s.dropLines p) :=
  ⟨rfl, rfl, fun c => by rw [State.ctx_dropLines]; rfl⟩

theorem modChan {n : Nat} {g : Chan → Chan} : SupplyStands s (s.modChan n g) := of_tables rfl rfl

theorem setFn {f : Nat} {x : Fn} : SupplyStands s (s.setFn f x) := of_tables rfl rfl

theorem setOq {f r : Nat} {x : Oq} : SupplyStands s (s.setOq f r x) := setFn

/-! ### Reports and denials -/

theorem of_report (h : Keeps reportParts s t) : SupplyStands s t := of_keeps h (by decide)

theorem report {e : Ev} (h : e.class ≠ .moduleFatal) : SupplyStands s (s.report e) := by
  rw [report_eq s e fun hfatal => absurd hfatal h]
  exact of_report (reportWith_keeps 3 e s)

theorem deny {cls page : Nat} {write : Bool} {f ctx frame : Option Nat} :
    SupplyStands s (s.deny cls page write .reportOnly f ctx frame) := by
  have hcount : SupplyStands s (s.countDenial cls page write).2 := of_keeps (countDenial_keeps s cls page write) (by decide)
  unfold State.deny
  dsimp only
  split
  · exact hcount.trans (report (by simp [denialEv, Ev.class]))
  · exact hcount

theorem memError {nn g source : Nat} {newly : Bool} {e : Ev} (h : e.cls.getD (Err.cls ⟨.mem, nn⟩) ≠ .moduleFatal) :
    SupplyStands s (s.memError nn g source newly e) := by
  have hcount : SupplyStands s (if newly then s.countUe (homeQuarter g) else s) :=
    .ite (of_keeps (countUe_keeps s _) (by decide))
  unfold State.memError
  refine .trans ?_ (report h)
  exact hcount.trans (.of_tables rfl rfl)

/-! ### Output rings (R494, R495) -/

theorem ringWrite {f : Nat} {host : Bool} {a : Nat} {d : List Byte} : SupplyStands s (s.ringWrite f host a d) := by
  have hwrite : SupplyStands s (s.writeDev a d) := of_tables rfl rfl
  unfold State.ringWrite State.invalidate
  split
  · exact of_keeps (hostWrite_keeps s f a d) (by decide)
  · split
    · exact hwrite
    · exact hwrite.trans dropLines

theorem copyPublished {copy : Option (Nat × Nat)} : SupplyStands s (s.copyPublished copy) := by
  unfold State.copyPublished
  split
  · exact rfl' s
  · exact modChan

theorem copyFails {copy : Option (Nat × Nat)} : SupplyStands s (s.copyFails copy) := by
  unfold State.copyFails
  split
  · exact rfl' s
  · exact modChan

theorem oqPlace {f r : Nat} {e : OqEntry} : SupplyStands s (s.oqPlace f r e) := by
  unfold State.oqPlace
  dsimp only
  split
  · exact ((setOq.trans deny).trans (report (by simp [Ev.class, Ev.err, Err.cls]))).trans copyPublished
  · have hwrites := foldl (fun t p => t.ringWrite f (s.oq f r).host ((s.oq f r).addr.toNat * 64 + 64 * p.1) p.2)
      (fun t p => ringWrite) ((s.oq f r).plan e).1 s
    split
    · exact (hwrites.trans (memError (by simp [Err.cls]))).trans copyFails
    · refine .trans (t := State.copyPublished _ _) ?_ (.ite (setOq.trans (of_keeps (msix_keeps _ _ _) (by decide))))
      refine .trans ?_ copyPublished
      split
      · exact ((hwrites.trans (setOq.trans setOq)).trans deny).trans (report (by simp [Ev.class, Ev.err, Err.cls]))
      · exact (hwrites.trans setOq).trans ringWrite

theorem oqPush {f r : Nat} {lossy : Bool} {e : OqEntry} : SupplyStands s (s.oqPush f r lossy e) := by
  unfold State.oqPush
  dsimp only
  split
  · exact copyPublished
  · split
    · exact oqPlace
    · split
      · exact ((setOq.trans setFn).trans copyPublished).trans (report (by simp [Ev.class, Ev.err, Err.cls]))
      · exact setOq

theorem putRecord {c : Nat} {f : Frame} {k flags code : Nat} : SupplyStands s (s.putRecord c f k flags code) := by
  have hshown : ∀ g n h, SupplyStands s ((s.modCtx c fun x => { x with lastFrame := some f.no }).modStat g n h) := by
    intro g n h
    refine .trans ?_ setFn
    exact modCtx fun _ => rfl
  unfold State.putRecord
  dsimp only
  split
  · split
    · exact hshown _ _ _
    · exact (hshown _ _ _).trans oqPush
  · exact hshown _ _ _

/-! ### Markers (R404) -/

theorem putMarker {c : Nat} {m : Nat × Nat × DWord} : SupplyStands s (s.putMarker c m) := by
  unfold State.putMarker
  split
  · refine .trans ?_ (of_keeps (emit_keeps _ _) (by decide))
    exact modCtx fun _ => rfl
  · exact rfl' s

theorem flushMarkers {c : Nat} {all : Bool} : SupplyStands s (s.flushMarkers c all) := by
  unfold State.flushMarkers
  dsimp only
  split
  · exact rfl' s
  · refine .trans ?_ (foldl _ (fun t m => putMarker) _ _)
    exact modCtx fun _ => rfl

theorem loseUnit {c : Nat} {f : Frame} {code : Nat} : SupplyStands s (s.loseUnit c f code) := by
  unfold State.loseUnit
  split
  · exact rfl' s
  · refine .trans ?_ flushMarkers
    exact modCtx fun _ => rfl

end SupplyStands

/-! ### A source tells a loss (R463) -/

section
variable {s : State} {c : Nat} {f : Frame} {code : Nat}

/-- What the loss of a frame that was never held leaves, once it is counted. -/
theorem loseUnheld_stands : SupplyStands s.lostCounted (s.loseUnheld c f code) := SupplyStands.loseUnit.trans .putRecord

theorem supplyLost_ing : (s.supplyLost c f code).ing = s.ing := by
  unfold State.supplyLost
  split
  · exact loseUnheld_stands.ing
  · rfl

/-- With no frame on its way, the loss is counted at once. -/
theorem supplyLost_of_none (h : (s.ctx c).arriving = []) :
    (s.supplyLost c f code).hrd.lostCount = satInc s.hrd.lostCount ∧ ((s.supplyLost c f code).ctx c).arriving = [] := by
  have heq : s.supplyLost c f code = s.loseUnheld c f code := if_pos (by rw [h]; rfl)
  rw [heq]
  exact ⟨loseUnheld_stands.lostCount, (loseUnheld_stands.arriving c).trans h⟩

/-- Behind frames on their way, the loss waits for its turn. -/
theorem supplyLost_of_some (h : (s.ctx c).arriving ≠ []) :
    ((s.supplyLost c f code).ctx c).arriving = (s.ctx c).arriving ++ [{ frame := f, lost := some code }] := by
  rw [State.supplyLost, if_neg (by simpa using h), State.modCtx_eq, State.ctx_setCtx]

end

/-! ### The reports and events of a stream -/

/-- A stream whose status shows a code. -/
def State.codeShown (s : State) (n nn : Nat) : State := s.setStream n { s.stream n with code := BitVec.ofNat 8 nn }

section
variable (s : State) (n nn : Nat)

theorem codeShown_keeps : Keeps [.ing] s (s.codeShown n nn) := setStream_keeps _ _ _

theorem ingReport_eq (frame : Option Nat) : s.ingReport n nn frame =
    reportWith 3 { blk := .ing, nn := nn, func := some (s.ctx (s.stream n).ctx.toNat).func, unit := .stream n,
                   ctx := some (s.stream n).ctx.toNat, frame := frame } (s.codeShown n nn) :=
  report_ingCode _ _ rfl rfl

theorem ingReport_ing (frame : Option Nat) : (s.ingReport n nn frame).ing = (s.codeShown n nn).ing := by
  rw [ingReport_eq, reportWith_ing]

@[simp] theorem ingReport_stream (frame : Option Nat) :
    (s.ingReport n nn frame).stream n = { s.stream n with code := BitVec.ofNat 8 nn } := by
  rw [State.stream_congr (ingReport_ing s n nn frame), State.codeShown, State.stream_setStream]

@[simp] theorem ingReport_decoder (frame : Option Nat) (k : Nat) : (s.ingReport n nn frame).decoder k = s.decoder k := by
  rw [State.decoder_congr (ingReport_ing s n nn frame)]
  rfl

@[simp] theorem ingReport_hrd (frame : Option Nat) : (s.ingReport n nn frame).hrd = s.hrd := by
  rw [ingReport_eq, reportWith_hrd]
  rfl

theorem ingReport_records (frame : Option Nat) :
    Records s (s.ingReport n nn frame) ⟨.ing, nn⟩ (Err.cls ⟨.ing, nn⟩) (.stream n) [] := by
  rw [ingReport_eq]
  exact records_of_ing (codeShown_keeps s n nn) _

theorem ingReport_keeps (frame : Option Nat) : Keeps ([.ing] ++ reportParts) s (s.ingReport n nn frame) := by
  rw [ingReport_eq]
  exact reported_keeps_of_ing (codeShown_keeps s n nn) _

end

section
variable {s : State} {n : Nat} {u : AccessUnit} {root : Err}

/-- The frame that an event of ingest calls lost. -/
def State.lostFrame (s : State) (c no : Nat) (closedAt : DWord) : Frame :=
  Frame.fresh no closedAt (s.deadlineFor c closedAt) 0 0 true false

theorem gapEvents_of_none (s : State) (n : Nat) (h : u.lostBefore = 0) : s.gapEvents n u = s := by
  simp [State.gapEvents, h]

/-- A lost event that no gap tells: a report, and the loss handed to the Herder. -/
theorem lostEvent_of_not_gap (no : Nat) {nn : Nat} (closedAt : DWord) (h : nn ≠ 4) :
    s.lostEvent n no nn closedAt root = (s.ingReport n nn (some no)).supplyLost (s.stream n).ctx.toNat
      ((s.ingReport n nn (some no)).lostFrame (s.stream n).ctx.toNat no closedAt) root.lossCode := by
  simp only [State.lostEvent, if_neg h]
  rfl

theorem loseAu_of_feeds {nn : Nat} (hfeeds : s.feeds n = true) (hgap : u.lostBefore = 0) (hnn : nn ≠ 4) :
    s.loseAu n u nn root = (s.ingReport n nn (some u.no)).supplyLost (s.stream n).ctx.toNat
      ((s.ingReport n nn (some u.no)).lostFrame (s.stream n).ctx.toNat u.no u.closedAt) root.lossCode := by
  rw [State.loseAu, if_pos hfeeds, gapEvents_of_none s n hgap, lostEvent_of_not_gap _ _ hnn]

/-- Decoders are as they were after a lost event. -/
theorem lostEvent_decoder (no nn : Nat) (closedAt : DWord) (k : Nat) :
    (s.lostEvent n no nn closedAt root).decoder k = s.decoder k := by
  unfold State.lostEvent
  dsimp only
  rw [State.decoder_congr supplyLost_ing]
  split
  · rw [State.modStream_eq, State.decoder_setStream, ingReport_decoder]
  · exact ingReport_decoder _ _ _ _ _

theorem loseAu_decoder (nn k : Nat) : (s.loseAu n u nn root).decoder k = s.decoder k := by
  unfold State.loseAu
  split
  · rw [lostEvent_decoder]
    exact List.foldlRecOn (motive := fun t : State => t.decoder k = s.decoder k) _ _ rfl
      fun t ht i _ => (lostEvent_decoder _ _ _ _).trans ht
  · rfl

end

end Sys2Proof.Machine
end

section
/-!
Pictures (R459 to R463): what a picture's pieces leave of the memory they land in and of the contexts, and how an access unit that
decodes reaches the input slot of its frame, while one that does not is a lost frame.
-/
namespace Sys2Proof.Machine
open Sys2Proof

/-! ### Pieces that land in device memory -/

/-- Pieces written to device memory. -/
def State.written (s : State) (ws : List (Nat × List Byte)) : State := ws.foldl (fun t w => t.writeDev w.1 w.2) s

/-- Pieces written to device memory, whose pages every read cache then drops. -/
def State.land (s : State) (ws : List (Nat × List Byte)) : State :=
  (s.written ws).invalidate ((ws.flatMap fun w => pages w.1 w.2.length).foldl (fun l p => insertNat p l) [])

section
variable (s : State) (ws : List (Nat × List Byte))

theorem written_keeps : Keeps [.mem] s (s.written ws) :=
  Keeps.foldl (α := Nat × List Byte) _ _ (fun t w => writeDev_keeps t w.1 w.2) ws s

theorem land_keeps : Keeps [.hrd, .mem, .ec] s (s.land ws) :=
  ((written_keeps s ws).mono (by simp)).trans' (invalidate_keeps _ _)

theorem invalidate_bytes (ps : List Nat) : (s.invalidate ps).mem.bytes = s.mem.bytes := by
  unfold State.invalidate; split <;> rfl

theorem invalidate_poison (ps : List Nat) : (s.invalidate ps).mem.poison = s.mem.poison := by
  unfold State.invalidate; split <;> rfl

theorem land_poison (h : s.mem.poison = []) : (s.land ws).mem.poison = [] := by
  rw [State.land, invalidate_poison]
  exact List.foldlRecOn (motive := fun t : State => t.mem.poison = []) _ _ h fun t ht w _ => by simp [State.writeDev, ht]

/-- A byte outside every piece stays. -/
theorem land_readByte {a : Nat} (h : ∀ w ∈ ws, a < w.1 ∨ w.1 + w.2.length ≤ a) :
    readByte (s.land ws).mem.bytes a = readByte s.mem.bytes a := by
  rw [State.land, invalidate_bytes]
  exact List.foldlRecOn (motive := fun t : State => readByte t.mem.bytes a = readByte s.mem.bytes a) _ _ rfl
    fun t ht w hw => (readByte_writeBytes_other _ _ (h w hw)).trans ht

/-- What does not turn on a context's line fills in flight stands. -/
theorem land_ctx_map {α : Type} (π : Ctx → α) (hπ : ∀ x p, π (x.dropFills p) = π x) (c : Nat) :
    π ((s.land ws).ctx c) = π (s.ctx c) := by
  have hctx : (s.written ws).ctx c = s.ctx c := State.ctx_congr (congrArg Hrd.ctxs (written_keeps s ws .hrd (by decide))) c
  rw [State.land, ← hctx]
  unfold State.invalidate
  split
  · rfl
  · rw [State.ctx_dropLines, hπ]

end

theorem cadDenied_congr {s t : State} (h : t.cad = s.cad) (cls a n : Nat) (write : Bool) :
    t.cadDenied cls a n write = s.cadDenied cls a n write := by
  simp only [State.cadDenied, h]

/-! ### A context that takes a stream's frames (R465, R476) -/

/-- A context in use takes its frames from a stream. -/
def Ctx.takes (x : Ctx) (n : Nat) : Bool := (x.st == .admitted || x.st == .suspended) && x.source == 1 && x.feed.toNat == n

theorem feeds_eq (s : State) (n : Nat) : s.feeds n = (s.ctx (s.stream n).ctx.toNat).takes n := rfl

theorem Ctx.slotHeld_dropFills (x : Ctx) (p : Nat → Bool) (no : Nat) : (x.dropFills p).slotHeld no = x.slotHeld no := by
  simp [Ctx.slotHeld, Ctx.dropFills, List.any_map, Function.comp_def]

/-! ### A picture's way to its input slot (R461, R462) -/

/-- The rows of a picture in the input slot of its frame number, and its record behind the slots (Table 13.4). -/
def Stream.pieces (x : Stream) (base no : Nat) (rows : List (Nat × List Byte)) (record : List Byte) : List (Nat × List Byte) :=
  (rows.map fun r => (base + no % 8 * x.slotSize + r.1, r.2)) ++ [(base + 8 * x.slotSize + 64 * (no % 8), record)]

/-- The frame of a picture in its slot. -/
def Stream.frameOf (x : Stream) (u : AccessUnit) (deadline : DWord) (flags : Nat) : Frame :=
  Frame.fresh u.no u.closedAt deadline (x.inputOff.toNat * 4096 + u.no % 8 * x.slotSize) x.slotSize (flags % 8 != 0)
    (flags.testBit 1)

section
variable {x : Stream} {base no : Nat} {rows : List (Nat × List Byte)} {record : List Byte}
  (hrows : ∀ r ∈ rows, r.1 + r.2.length ≤ x.slotSize) (hrecord : record.length = 64)
include hrows hrecord

/-- Every piece lies in the slot of its frame number or in that slot's record. -/
theorem Stream.mem_pieces {w : Nat × List Byte} (h : w ∈ x.pieces base no rows record) :
    (base + no % 8 * x.slotSize ≤ w.1 ∧ w.1 + w.2.length ≤ base + (no % 8 + 1) * x.slotSize) ∨
      (w.1 = base + 8 * x.slotSize + 64 * (no % 8) ∧ w.2.length = 64) := by
  simp only [Stream.pieces, List.mem_append, List.mem_map, List.mem_singleton] at h
  obtain ⟨r, hr, rfl⟩ | rfl := h
  · have hfit := hrows r hr
    refine .inl ⟨Nat.le_add_right _ _, ?_⟩
    rw [Nat.succ_mul]
    dsimp only
    omega
  · exact .inr ⟨rfl, hrecord⟩

theorem Stream.pieces_inDev (htop : base + 8 * x.slotSize + 512 ≤ devTop) {w : Nat × List Byte}
    (h : w ∈ x.pieces base no rows record) : w.1 + w.2.length ≤ devTop := by
  have hslot : (no % 8 + 1) * x.slotSize ≤ 8 * x.slotSize := Nat.mul_le_mul_right _ (by omega)
  obtain ⟨-, hw⟩ | ⟨hw, hlen⟩ := Stream.mem_pieces hrows hrecord h <;> omega

end

theorem deliver_of_granted {s : State} {n : Nat} {x : Stream} {u : AccessUnit} {rows : List (Nat × List Byte)}
    {record : List Byte} {flags base : Nat} (hx : s.stream n = x) (hfeeds : s.feeds n = true)
    (hfree : (s.ctx x.ctx.toNat).slotHeld u.no = false) (hbase : base = (s.ctx x.ctx.toNat).base + x.inputOff.toNat * 4096)
    (hgrant : ∀ w ∈ x.pieces base u.no rows record, s.cadDenied 0x20 w.1 w.2.length true = none)
    (hdev : ∀ w ∈ x.pieces base u.no rows record, w.1 + w.2.length ≤ devTop) (hclean : s.mem.poison = [])
    (hgap : u.lostBefore = 0) :
    s.deliver n u rows record flags = (s.land (x.pieces base u.no rows record)).supply x.ctx.toNat
      (x.frameOf u ((s.land (x.pieces base u.no rows record)).deadlineFor x.ctx.toNat u.closedAt) flags) := by
  subst hbase
  have hgrant' := List.findSome?_eq_none_iff.mpr hgrant
  have hdev' : ((x.pieces ((s.ctx x.ctx.toNat).base + x.inputOff.toNat * 4096) u.no rows record).any
      fun w => !inDev w.1 w.2.length) = false := by
    simpa [inDev] using hdev
  have hclean' : ((x.pieces ((s.ctx x.ctx.toNat).base + x.inputOff.toNat * 4096) u.no rows record).findSome?
      fun w => s.badGranule [] (partGranules w.1 w.2.length)) = none :=
    List.findSome?_eq_none_iff.mpr fun _ _ => badGranule_of_clean hclean _
  unfold Stream.pieces at hgrant' hdev' hclean'
  simp only [State.deliver, hx, hfeeds, hfree, hgrant', hdev', hclean', Bool.not_true, Bool.false_eq_true, if_false]
  rw [gapEvents_of_none _ _ hgap]
  rfl

/-! ### A picture kept for reference (R460) -/

/-- The rows of a picture in one of the stream's reference slots, which a free value chooses. -/
def Stream.refPieces (x : Stream) (free : Nat) (p : Picture) : List (Nat × List Byte) :=
  (x.rowsOf p).map fun r => (x.refArea.1 + Config.freeNat free % max 1 x.refSlots.toNat * x.slotSize + r.1, r.2)

/-- Every row lies in the stream's reference slots. -/
theorem Stream.mem_refPieces {x : Stream} {free : Nat} {p : Picture} (hslots : 1 ≤ x.refSlots.toNat)
    (hrows : ∀ r ∈ x.rowsOf p, r.1 + r.2.length ≤ x.slotSize) {w : Nat × List Byte} (h : w ∈ x.refPieces free p) :
    x.refArea.1 ≤ w.1 ∧ w.1 + w.2.length ≤ x.refArea.1 + x.refArea.2 := by
  obtain ⟨r, hr, rfl⟩ := List.mem_map.mp h
  have hfit := hrows r hr
  have hlt : Config.freeNat free % max 1 x.refSlots.toNat + 1 ≤ x.refSlots.toNat := by
    have := Nat.mod_lt (Config.freeNat free) (show 0 < max 1 x.refSlots.toNat by omega)
    omega
  have hslot := Nat.mul_le_mul_right x.slotSize hlt
  rw [Nat.succ_mul] at hslot
  have harea : x.refArea.2 = x.refSlots.toNat * x.slotSize := rfl
  dsimp only
  omega

/-- A picture kept for reference, or not. -/
def State.pictureKept (s : State) (n : Nat) (kept : Bool) (p : Picture) : State :=
  if kept then s.takeFree.land ((s.stream n).refPieces s.freeCount p) else s

section
variable {s : State} {n : Nat} {kept : Bool} {p : Picture}

theorem keepReference_of_granted
    (hgrant : ∀ w ∈ (s.stream n).refPieces s.freeCount p, s.cadDenied 0x20 w.1 w.2.length true = none) :
    (if kept then s.keepReference n p else (none, s)) = (none, s.pictureKept n kept p) := by
  have hgrant' := List.findSome?_eq_none_iff.mpr hgrant
  unfold Stream.refPieces at hgrant'
  cases kept
  · rfl
  · simp only [State.keepReference, hgrant', if_true]
    rfl

theorem pictureKept_keeps : Keeps [.hrd, .mem, .ec, .freeCount] s (s.pictureKept n kept p) := by
  cases kept
  · exact Keeps.rfl' _ _
  · exact ((takeFree_keeps s).mono (by simp)).trans' ((land_keeps _ _).mono (by simp))

theorem pictureKept_poison (h : s.mem.poison = []) : (s.pictureKept n kept p).mem.poison = [] := by
  cases kept
  · exact h
  · exact land_poison s.takeFree _ h

theorem pictureKept_ctx_map {α : Type} (π : Ctx → α) (hπ : ∀ x f, π (x.dropFills f) = π x) (c : Nat) :
    π ((s.pictureKept n kept p).ctx c) = π (s.ctx c) := by
  cases kept
  · rfl
  · exact land_ctx_map s.takeFree _ π hπ c

theorem pictureKept_readByte {a : Nat} (hslots : 1 ≤ (s.stream n).refSlots.toNat)
    (hrows : ∀ r ∈ (s.stream n).rowsOf p, r.1 + r.2.length ≤ (s.stream n).slotSize)
    (h : kept = false ∨ a < (s.stream n).refArea.1 ∨ (s.stream n).refArea.1 + (s.stream n).refArea.2 ≤ a) :
    readByte (s.pictureKept n kept p).mem.bytes a = readByte s.mem.bytes a := by
  cases kept with
  | false => rfl
  | true =>
    refine land_readByte s.takeFree _ fun w hw => ?_
    obtain ⟨hlow, hhigh⟩ := Stream.mem_refPieces hslots hrows hw
    obtain hfalse | ha | ha := h
    · cases hfalse
    · exact .inl (by omega)
    · exact .inr (by omega)

end

/-! ### What a decode shows (R459, R460) -/

/-- A stream that has one more access unit behind it. -/
def State.unitDecoded (s : State) (n : Nat) (u : AccessUnit) : State :=
  s.setStream n { s.stream n with history := (s.stream n).history ++ [u.nals] }

/-- A stream after a picture that decoded. -/
def State.pictureShown (s : State) (n : Nat) (u : AccessUnit) (p : Picture) (damaged : Bool) : State :=
  (s.unitDecoded n u).modStream n fun y => { y with lastPic := some p, damaged := damaged, waitIrap := none }

/-- A decode leaves samples to be concealed (R459). -/
def concealed (d : Config.Decoded) : Bool := (d.y ++ d.cb ++ d.cr).any fun v => v.isNone

/-- FLAGS of a random access picture. -/
def Stream.irapFlags (x : Stream) (u : AccessUnit) (d : Config.Decoded) : Nat :=
  pictureFlags u.loss (concealed d) (x.damaged && concealed d) u.discont true

/-- Whether a stream shows damage after a random access picture. -/
def Stream.irapDamage (x : Stream) (d : Config.Decoded) : Bool := concealed d || (x.damaged && concealed d)

section
variable {s : State} {n : Nat} {u : AccessUnit}

theorem unitDecoded_stream :
    (s.unitDecoded n u).stream n = { s.stream n with history := (s.stream n).history ++ [u.nals] } :=
  State.stream_setStream _ _ _

theorem unitDecoded_keeps : Keeps [.ing] s (s.unitDecoded n u) := setStream_keeps _ _ _

theorem unitDecoded_feeds : (s.unitDecoded n u).feeds n = s.feeds n := by
  rw [feeds_eq, unitDecoded_stream]
  rfl

theorem pictureShown_stream (p : Picture) (damaged : Bool) : (s.pictureShown n u p damaged).stream n =
    { s.stream n with history := (s.stream n).history ++ [u.nals], lastPic := some p, damaged := damaged, waitIrap := none } := by
  rw [State.pictureShown, State.modStream_eq, State.stream_setStream, unitDecoded_stream]

theorem pictureShown_keeps (p : Picture) (damaged : Bool) : Keeps [.ing] s (s.pictureShown n u p damaged) :=
  unitDecoded_keeps.trans' (setStream_keeps _ _ _)

variable {x : Stream} (hx : s.stream n = x) (hread : u.unreadable = false)
include hx hread

theorem decodeAu_of_noParams (hparams : activeParams x.codec.toNat x.history u.nals = none) :
    s.decodeAu n u = (s.unitDecoded n u).loseAu n u 5 ⟨.ing, 5⟩ := by
  subst hx
  simp only [State.decodeAu, hread, hparams, Bool.false_eq_true, if_false]
  rfl

theorem decodeAu_of_randomAccess {q : SeqParams} {d : Config.Decoded} {p : Picture}
    (hparams : activeParams x.codec.toNat x.history u.nals = some q) (hfits : x.fits q = true)
    (hrefs : q.refs ≤ x.refSlots.toNat) (hirap : u.nals.any (isRandomAccess x.codec.toNat) = true)
    (hdec : Config.decodeVideo x.codec.toNat x.history u.nals = some d) (hp : p = pictureOf q true d x.lastPic)
    (hgrant : ∀ w ∈ x.refPieces s.freeCount p, s.cadDenied 0x20 w.1 w.2.length true = none) :
    s.decodeAu n u = ((s.pictureShown n u p (x.irapDamage d)).pictureKept n d.kept p).deliver n u
      (x.rowsOf p) (pictureRecord u q.width q.height q.depth (x.irapFlags u d)) (x.irapFlags u d) := by
  subst hx hp
  have hkept := keepReference_of_granted (s := s.pictureShown n u (pictureOf q true d (s.stream n).lastPic)
    ((s.stream n).irapDamage d)) (n := n) (kept := d.kept) (by rw [pictureShown_stream]; exact hgrant)
  simp only [State.pictureShown, State.unitDecoded, Stream.irapDamage, concealed] at hkept
  simp only [State.decodeAu, hread, hparams, hfits, Nat.not_lt.mpr hrefs, hirap, hdec, Bool.not_true, Bool.false_eq_true,
    if_false, if_true, Bool.true_and, Bool.not_not, hkept]
  rfl

end

end Sys2Proof.Machine
end

section
/-!
PICTURE_WRITTEN (R459 to R463): the decoder is free again, and its access unit is one lost frame, or a picture in its input slot
with its record and a frame on its way.
-/
namespace Sys2Proof.Machine
open Sys2Proof

/-- A decoder that decodes nothing. -/
def State.decoderFreed (s : State) (k : Nat) : State := s.setDecoder k { s.decoder k with busy := none }

section
variable {s : State} {k n : Nat} {u : AccessUnit}

theorem decoderFreed_busy (s : State) (k : Nat) : ((s.decoderFreed k).decoder k).busy = none := by
  rw [State.decoderFreed, State.decoder_setDecoder]

theorem decoderFreed_keeps (s : State) (k : Nat) : Keeps [.ing] s (s.decoderFreed k) := setDecoder_keeps _ _ _

theorem exec_pictureWritten (halive : s.alive = true) (hbusy : (s.decoder k).busy = some (n, u)) :
    exec (.pictureWritten k) s = .next ((s.decoderFreed k).decodeAu n u) := by
  simp only [exec, execPictureWritten, hbusy, halive, Bool.not_true, Bool.false_eq_true, if_false]
  rfl

end

/-! ### An access unit that does not decode (R463) -/

section
variable {s : State} {k n : Nat} {u : AccessUnit} {x : Stream} (hx : s.stream n = x) (hfeeds : s.feeds n = true)
  (hgap : u.lostBefore = 0)
include hx hfeeds hgap

/-- The loss of an access unit that the decoder could not decode is told to the Herder, behind a report of E-ING-05. -/
theorem undecoded_lost : ∃ v f, ((s.decoderFreed k).unitDecoded n u).loseAu n u 5 ⟨.ing, 5⟩ =
    State.supplyLost v x.ctx.toNat f (Err.lossCode ⟨.ing, 5⟩) ∧ (v.stream n).code = 5 ∧ v.hrd = s.hrd ∧ f.no = u.no := by
  have hfeeds' : ((s.decoderFreed k).unitDecoded n u).feeds n = true := by
    rw [unitDecoded_feeds, feeds_eq]
    exact hfeeds
  have hctx : (((s.decoderFreed k).unitDecoded n u).stream n).ctx = x.ctx := by
    rw [unitDecoded_stream, ← hx]
    rfl
  rw [loseAu_of_feeds hfeeds' hgap (by decide), hctx]
  exact ⟨_, _, rfl, by rw [ingReport_stream]; rfl, ingReport_hrd _ _ _ _, rfl⟩

theorem pictureWritten_loses (halive : s.alive = true) (hbusy : (s.decoder k).busy = some (n, u))
    (hread : u.unreadable = false) (hparams : activeParams x.codec.toNat x.history u.nals = none) :
    ∃ t, exec (.pictureWritten k) s = .next t ∧ (t.decoder k).busy = none ∧ (t.stream n).code = 5 ∧
      ((s.ctx x.ctx.toNat).arriving = [] →
        t.hrd.lostCount = satInc s.hrd.lostCount ∧ (t.ctx x.ctx.toNat).arriving = []) ∧
      ((s.ctx x.ctx.toNat).arriving ≠ [] → ∃ g, (t.ctx x.ctx.toNat).arriving = (s.ctx x.ctx.toNat).arriving ++ [g] ∧
        g.frame.no = u.no ∧ g.lost = some (Err.lossCode ⟨.ing, 5⟩)) := by
  obtain ⟨v, f, hlost, hcode, hhrd, hno⟩ := undecoded_lost (k := k) hx hfeeds hgap
  have hctx : v.ctx x.ctx.toNat = s.ctx x.ctx.toNat := State.ctx_congr (congrArg Hrd.ctxs hhrd) _
  refine ⟨_, exec_pictureWritten halive hbusy, ?_⟩
  rw [decodeAu_of_noParams (s := s.decoderFreed k) hx hread hparams]
  refine ⟨?_, ?_⟩
  · rw [loseAu_decoder, State.unitDecoded, State.decoder_setStream, decoderFreed_busy]
  rw [hlost, ← hctx, ← hhrd]
  refine ⟨?_, supplyLost_of_none, fun hsome => ⟨_, supplyLost_of_some hsome, hno, rfl⟩⟩
  rw [State.stream_congr supplyLost_ing, hcode]

end

/-! ### A picture in its slot (R461, R462) -/

theorem pictureRecord_length (u : AccessUnit) (w h depth flags : Nat) : (pictureRecord u w h depth flags).length = 64 := by
  simp [pictureRecord]

/-- The state in which a decoded picture is delivered: its decoder free, its stream showing it, and a reference picture kept. -/
def State.pictureReady (s : State) (k n : Nat) (u : AccessUnit) (d : Config.Decoded) (p : Picture) : State :=
  ((s.decoderFreed k).pictureShown n u p ((s.stream n).irapDamage d)).pictureKept n d.kept p

section
variable (s : State) (k n : Nat) (u : AccessUnit) (d : Config.Decoded) (p : Picture)

theorem pictureReady_keeps : Keeps [.ing, .hrd, .mem, .ec, .freeCount] s (s.pictureReady k n u d p) :=
  (((decoderFreed_keeps s k).mono (by simp)).trans' ((pictureShown_keeps _ _).mono (by simp))).trans'
    (pictureKept_keeps.mono (by simp))

theorem pictureReady_ing :
    (s.pictureReady k n u d p).ing = ((s.decoderFreed k).pictureShown n u p ((s.stream n).irapDamage d)).ing :=
  pictureKept_keeps .ing (by decide)

theorem pictureReady_decoder : ((s.pictureReady k n u d p).decoder k).busy = none := by
  rw [State.decoder_congr (pictureReady_ing s k n u d p)]
  exact decoderFreed_busy s k

theorem pictureReady_stream : (s.pictureReady k n u d p).stream n =
    { s.stream n with history := (s.stream n).history ++ [u.nals], lastPic := some p, damaged := (s.stream n).irapDamage d
                      waitIrap := none } := by
  rw [State.stream_congr (pictureReady_ing s k n u d p), pictureShown_stream]
  rfl

theorem pictureReady_ctx_map {α : Type} (π : Ctx → α) (hπ : ∀ x f, π (x.dropFills f) = π x) (c : Nat) :
    π ((s.pictureReady k n u d p).ctx c) = π (s.ctx c) := pictureKept_ctx_map π hπ c

theorem pictureReady_feeds : (s.pictureReady k n u d p).feeds n = s.feeds n := by
  rw [feeds_eq, pictureReady_stream, feeds_eq]
  exact pictureReady_ctx_map s k n u d p (fun x => x.takes n) (fun _ _ => rfl) _

theorem pictureReady_poison (h : s.mem.poison = []) : (s.pictureReady k n u d p).mem.poison = [] := pictureKept_poison h

theorem pictureReady_cadDenied (a m : Nat) :
    (s.pictureReady k n u d p).cadDenied 0x20 a m true = s.cadDenied 0x20 a m true :=
  cadDenied_congr (pictureReady_keeps s k n u d p .cad (by decide)) _ _ _ _

theorem pictureReady_readByte {a : Nat} (hslots : 1 ≤ (s.stream n).refSlots.toNat)
    (hrows : ∀ r ∈ (s.stream n).rowsOf p, r.1 + r.2.length ≤ (s.stream n).slotSize)
    (h : d.kept = false ∨ a < (s.stream n).refArea.1 ∨ (s.stream n).refArea.1 + (s.stream n).refArea.2 ≤ a) :
    readByte (s.pictureReady k n u d p).mem.bytes a = readByte s.mem.bytes a := by
  have hstream := pictureShown_stream (s := s.decoderFreed k) (n := n) (u := u) p ((s.stream n).irapDamage d)
  exact pictureKept_readByte (by rw [hstream]; exact hslots) (by rw [hstream]; exact hrows) (by rw [hstream]; exact h)

end

section
variable {s : State} {k n : Nat} {u : AccessUnit} {x : Stream} {q : SeqParams} {d : Config.Decoded} {p : Picture} {base : Nat}
  (hx : s.stream n = x) (hp : p = pictureOf q true d x.lastPic)
  (hbase : base = (s.ctx x.ctx.toNat).base + x.inputOff.toNat * 4096)
  (hgrant : ∀ a m, a + m ≤ devTop → s.cadDenied 0x20 a m true = none)
  (hrows : ∀ r ∈ x.rowsOf p, r.1 + r.2.length ≤ x.slotSize)
include hx hp hgrant hrows

theorem decodeAu_delivers (hread : u.unreadable = false) (hslots : 1 ≤ x.refSlots.toNat)
    (hparams : activeParams x.codec.toNat x.history u.nals = some q) (hfits : x.fits q = true)
    (hrefs : q.refs ≤ x.refSlots.toNat) (hirap : u.nals.any (isRandomAccess x.codec.toNat) = true)
    (hdec : Config.decodeVideo x.codec.toNat x.history u.nals = some d) (harea : x.refArea.1 + x.refArea.2 ≤ devTop) :
    (s.decoderFreed k).decodeAu n u = (s.pictureReady k n u d p).deliver n u (x.rowsOf p)
      (pictureRecord u q.width q.height q.depth (x.irapFlags u d)) (x.irapFlags u d) := by
  subst hx
  refine decodeAu_of_randomAccess (s := s.decoderFreed k) rfl hread hparams hfits hrefs hirap hdec hp fun w hw => ?_
  exact hgrant _ _ (Nat.le_trans (Stream.mem_refPieces hslots hrows hw).2 harea)

include hbase

theorem deliver_arrives (hfeeds : s.feeds n = true) (hfree : (s.ctx x.ctx.toNat).slotHeld u.no = false)
    (hgap : u.lostBefore = 0) (hclean : s.mem.poison = []) (htop : base + 8 * x.slotSize + 512 ≤ devTop)
    {record : List Byte} (hrecord : record.length = 64) (flags : Nat) : ∃ g,
    (s.pictureReady k n u d p).deliver n u (x.rowsOf p) record flags =
      ((s.pictureReady k n u d p).land (x.pieces base u.no (x.rowsOf p) record)).supply x.ctx.toNat g ∧
    g.no = u.no ∧ g.arrival = u.closedAt ∧ g.input = x.inputOff.toNat * 4096 + u.no % 8 * x.slotSize := by
  subst hx
  have hctx := fun {α : Type} (π : Ctx → α) hπ => pictureReady_ctx_map s k n u d p π hπ (s.stream n).ctx.toNat
  have hstream := pictureReady_stream s k n u d p
  have hdev := fun w hw => Stream.pieces_inDev (base := base) (no := u.no) hrows hrecord htop (w := w) hw
  generalize hy : (s.pictureReady k n u d p).stream n = y at hstream
  have hdeliver := deliver_of_granted (rows := (s.stream n).rowsOf p) (record := record) (flags := flags) (base := base) (u := u)
    hy (by rw [pictureReady_feeds]; exact hfeeds)
    (by
      rw [hstream]
      exact (hctx (fun x => x.slotHeld u.no) fun _ _ => Ctx.slotHeld_dropFills _ _ _).trans hfree)
    (by
      rw [hstream]
      exact hbase.trans (congrArg (· + _) (hctx Ctx.base fun _ _ => rfl).symm))
    (by
      rw [hstream]
      exact fun w hw => (pictureReady_cadDenied _ _ _ _ _ _ _ _).trans (hgrant _ _ (hdev w hw)))
    (by rw [hstream]; exact hdev) (pictureReady_poison _ _ _ _ _ _ hclean) hgap
  rw [hdeliver, hstream]
  exact ⟨_, rfl, rfl, rfl, rfl⟩

end

theorem supply_arriving (s : State) (c : Nat) (g : Frame) :
    ((s.supply c g).ctx c).arriving = (s.ctx c).arriving ++ [{ frame := g, lost := none }] := by
  rw [State.supply, State.modCtx_eq, State.ctx_setCtx]

theorem supply_keeps (s : State) (c : Nat) (g : Frame) : Keeps [.hrd] s (s.supply c g) := modCtx_keeps _ _ _

theorem picturesReachTheirFrames : PicturesReachTheirFrames := by
  intro s k n u x halive hx hbusy hread hgap hfeeds
  refine ⟨pictureWritten_loses hx hfeeds hgap halive hbusy hread, ?_⟩
  intro q d base hparams hfits hrefs hslots hirap hdec hfree hbase hgrant hclean htop harea hrows
  have hrecord := pictureRecord_length u q.width q.height q.depth (x.irapFlags u d)
  obtain ⟨g, hdeliver, hno, harrival, hinput⟩ := deliver_arrives (k := k) hx rfl hbase hgrant hrows hfeeds hfree hgap hclean
    htop hrecord (x.irapFlags u d)
  generalize hrec : pictureRecord u q.width q.height q.depth (x.irapFlags u d) = record at hrecord hdeliver
  have hexec := exec_pictureWritten halive hbusy
  rw [decodeAu_delivers hx rfl hgrant hrows hread hslots hparams hfits hrefs hirap hdec harea, hrec, hdeliver] at hexec
  have hlanded := land_keeps (s.pictureReady k n u d (pictureOf q true d x.lastPic))
    (x.pieces base u.no (x.rowsOf (pictureOf q true d x.lastPic)) record)
  refine ⟨_, g, hexec, ?_, ?_, hno, harrival, hinput, fun a hslot hrec' hkept => ?_, ?_⟩
  · have hing := (supply_keeps _ x.ctx.toNat g .ing (by decide)).trans (hlanded .ing (by decide))
    rw [State.decoder_congr hing, pictureReady_decoder]
  · rw [supply_arriving, land_ctx_map _ _ Ctx.arriving (fun _ _ => rfl),
      pictureReady_ctx_map _ _ _ _ _ _ Ctx.arriving (fun _ _ => rfl)]
  · subst hx
    have hout : ∀ w ∈ (s.stream n).pieces base u.no ((s.stream n).rowsOf (pictureOf q true d (s.stream n).lastPic)) record,
        a < w.1 ∨ w.1 + w.2.length ≤ a := by
      intro w hw
      obtain ⟨hlow, hhigh⟩ | ⟨hat, hlen⟩ := Stream.mem_pieces hrows hrecord hw <;> omega
    exact (land_readByte _ _ hout).trans (pictureReady_readByte _ _ _ _ _ _ hslots hrows hkept)
  · exact ((pictureReady_keeps _ _ _ _ _ _).trans' (hlanded.mono (by simp))).trans' ((supply_keeps _ _ _).mono (by simp))

/-- Settles O33: a packet's way into its access unit and the access unit's way to its decoder are one equation a step; a decoded
picture lands in its frame's slot and record alone, and an undecoded one is told lost behind the frames on their way. -/
theorem accessUnitsBecomeFrames : Obligations.AccessUnitsBecomeFrames := ⟨packetsFormAccessUnits, picturesReachTheirFrames⟩

end Sys2Proof.Machine
end

section
/-!
Streams and decoders (R450, R466, R476, R477): how ING_STRM_CTRL enables and disables a stream, and what a decoder's fatal error
does to the decoder and to its streams.
-/
namespace Sys2Proof.Machine
open Sys2Proof

/-! ### ENABLE (R466) -/

section
variable {s : State} {fn n : Nat} {v : Word} (hn : (s.fn fn).strmSel.toNat = n) (hmay : s.mayControl fn n v.toNat = true)
include hn hmay

section
variable {y : Stream} (hy : y = (s.stream n).withCtrl v.toNat) (hoff : (s.stream n).enable = false)
include hy hoff

theorem exec_streamEnable_refused {nn : Nat} (hrefuse : s.enableRefusal fn n y = some nn) :
    exec (.streamEnable fn v) s = .next ((s.setStream n y).ingReport n nn none) := by
  subst hn hy
  simp only [exec, execStreamEnable, hmay, hoff, hrefuse, Bool.not_true, Bool.false_eq_true, if_false]

theorem exec_streamEnable_accepted {d : Nat} (haccept : s.enableRefusal fn n y = none) (hd : s.assignDecoder y = some d) :
    exec (.streamEnable fn v) s = .next (s.setStream n (y.fresh fn d)) := by
  subst hn hy
  simp only [exec, execStreamEnable, hmay, hoff, haccept, hd, Bool.not_true, Bool.false_eq_true, if_false, Option.getD_some]

end

theorem exec_streamDisable_running (hon : (s.stream n).enable = true) :
    exec (.streamDisable fn v) s = .next ((s.streamLocked fn n strmCtrlOff v.toNat).stopStream n) := by
  subst hn
  simp only [exec, execStreamDisable, hmay, hon, Bool.not_true, Bool.false_eq_true, if_false, if_true]

end

section
variable {s : State} {fn n : Nat} {y : Stream}

/-- A stream that passes its checks has a decoder. -/
theorem assignDecoder_of_accepted (h : s.enableRefusal fn n y = none) : ∃ d, s.assignDecoder y = some d := by
  cases hd : s.assignDecoder y with
  | some d => exact ⟨d, rfl⟩
  | none =>
    simp only [State.enableRefusal, hd, Option.isNone_none, if_true] at h
    split at h <;> cases h

/-- An enable is refused with E-ING-01 or E-ING-02. -/
theorem enableRefusal_code {nn : Nat} (h : s.enableRefusal fn n y = some nn) : nn = 2 ∨ nn = 1 := by
  simp only [State.enableRefusal] at h
  split at h
  · exact .inl (Option.some.inj h).symm
  · split at h
    · exact .inr (Option.some.inj h).symm
    · cases h

end

/-! ### DISABLE (R476) -/

/-- A stream whose status shows a locked write. -/
def State.streamMarked (s : State) (n : Nat) : State := s.modStream n fun x => { x with fieldLocked := true }

section
variable (s : State) (fn n off value : Nat)

theorem streamLocked_eq : s.streamLocked fn n off value =
    reportWith 3 { blk := .ing, nn := 3, func := some fn, detail := [off, value % 2 ^ 32] } (s.streamMarked n) := by
  unfold State.streamLocked State.lockedRecord
  exact report_ingCode _ _ rfl rfl

theorem streamLocked_keeps : Keeps ([.ing] ++ reportParts) s (s.streamLocked fn n off value) := by
  rw [streamLocked_eq]
  exact reported_keeps_of_ing (setStream_keeps s n _) _

theorem streamLocked_stream_other {k : Nat} (h : k ≠ n) : (s.streamLocked fn n off value).stream k = s.stream k := by
  rw [streamLocked_eq, State.stream_congr (reportWith_ing _ _ _)]
  exact State.stream_setStream_other _ _ _ h

/-- A stream that runs no more and holds nothing. -/
def Stream.stopped (x : Stream) : Stream := { x with enable := false, opens := [], closed := [], ready := [] }

/-- A decoder that neither holds nor awaits an access unit of a stream. -/
def Decoder.without (d : Decoder) (n : Nat) : Decoder :=
  { d with queue := d.queue.filter fun k => k != n, busy := d.busy.filter fun b => b.1 != n }

theorem stopStream_stream : (s.stopStream n).stream n = (s.stream n).stopped := State.stream_setStream s n _

theorem stopStream_stream_other {k : Nat} (h : k ≠ n) : (s.stopStream n).stream k = s.stream k :=
  State.stream_setStream_other _ _ _ h

theorem stopStream_keeps : Keeps [.ing] s (s.stopStream n) :=
  (setStream_keeps s n _).trans' (setIng_keeps _ _)

theorem stopStream_disabled (k : Nat) : ((s.stopStream n).decoder k).disabled = (s.decoder k).disabled :=
  Tab.getD_mapVal_map Decoder.disabled (g := fun _ d => d.without n) (fun _ _ => rfl) s.ing.decoders k _

end

/-! ### A decoder's fatal error (R477) -/

/-- A decoder as its fatal error leaves it, before the report. -/
def State.decoderDown (s : State) (k : Nat) : State := s.setDecoder k { disabled := true, busy := none, queue := [] }

/-- A decoder disabled and reported: E-ING-11. -/
def State.decoderFailed (s : State) (k : Nat) : State :=
  reportWith 3 { blk := .ing, nn := 11, quarter := some k, unit := .decoder k } (s.decoderDown k)

/-- The access unit that a decoder held is lost. -/
def State.loseBusy (s : State) (b : Option (Nat × AccessUnit)) : State :=
  match b with
  | some (n, u) => s.loseAu n u 5 ⟨.ing, 5⟩
  | none => s

/-- The enabled video streams of a decoder. -/
def State.streamsOf (s : State) (k : Nat) : List Nat :=
  Tab.keysWhere (fun _ x => x.enable && x.decUsed.toNat == k && !x.isAudio) s.ing.streams

/-- A stream leaves a decoder that failed, for another, with the access units that it had queued, or is disabled with E-ING-01. -/
def State.moveStream (queue : List Nat) (s : State) (n : Nat) : State :=
  let u := s.setStream n { s.stream n with enable := false, waitIrap := some ⟨.ing, 5⟩ }
  match u.assignDecoder (s.stream n) with
  | some k =>
    (u.setDecoder k { u.decoder k with queue := (u.decoder k).queue ++ queue.filter fun m => m == n }).modStream n fun x =>
      { x with enable := true, decUsed := BitVec.ofNat 2 k }
  | none => (u.stopStream n).ingReport n 1 none

section
variable (s : State) (k : Nat)

theorem decoderDown_keeps : Keeps [.ing] s (s.decoderDown k) := setDecoder_keeps _ _ _

theorem decoderFailed_decoder : (s.decoderFailed k).decoder k = { disabled := true, busy := none, queue := [] } := by
  rw [State.decoderFailed, State.decoder_congr (reportWith_ing _ _ _), State.decoderDown, State.decoder_setDecoder]

theorem decoderFailed_streamsOf : (s.decoderFailed k).streamsOf k = s.streamsOf k := by
  rw [State.streamsOf, State.decoderFailed, reportWith_ing]
  rfl

theorem decoderFailed_records : Records s (s.decoderFailed k) ⟨.ing, 11⟩ .unitFatal (.decoder k) [] :=
  records_of_ing (decoderDown_keeps s k) _

theorem decoderFailed_keeps : Keeps ([.ing] ++ reportParts) s (s.decoderFailed k) :=
  reported_keeps_of_ing (decoderDown_keeps s k) _

theorem loseBusy_decoder (b : Option (Nat × AccessUnit)) : (s.loseBusy b).decoder k = s.decoder k := by
  cases b with
  | none => rfl
  | some p => exact loseAu_decoder 5 k

/-- A stream that moves takes no decoder back in use and disables none. -/
theorem moveStream_disabled (queue : List Nat) (n : Nat) :
    ((State.moveStream queue s n).decoder k).disabled = (s.decoder k).disabled := by
  unfold State.moveStream
  dsimp only
  split
  · rename_i j _
    rw [State.modStream_eq, State.decoder_setStream]
    by_cases hk : k = j
    · subst hk
      rw [State.decoder_setDecoder, State.decoder_setStream]
    · rw [State.decoder_setDecoder_other _ _ _ hk, State.decoder_setStream]
  · rw [ingReport_decoder, stopStream_disabled, State.decoder_setStream]

/-- Where no stream is enabled, a decoder has none. -/
theorem streamsOf_of_none_enabled (h : (s.ing.streams.all fun y => !y.2.enable) = true) : s.streamsOf k = [] := by
  simp only [List.all_eq_true, Bool.not_eq_true'] at h
  simp only [State.streamsOf, Tab.keysWhere, List.map_eq_nil_iff, List.filter_eq_nil_iff]
  intro y hy
  simp [h y hy]

variable {s k}

theorem exec_decoderFatalError (halive : s.alive = true) (hrange : k < 4) (hup : (s.decoder k).disabled = false) :
    exec (.decoderFatalError k) s = .next
      ((((s.decoderFailed k).loseBusy (s.decoder k).busy).streamsOf k).foldl (State.moveStream (s.decoder k).queue)
        ((s.decoderFailed k).loseBusy (s.decoder k).busy)) := by
  simp only [exec, execDecoderFatalError]
  rw [if_neg (fatalGuard halive hrange hup), report_ingCode _ _ rfl rfl]
  rfl

theorem decoderFatalError_disables (halive : s.alive = true) (hrange : k < 4) (hup : (s.decoder k).disabled = false) :
    ∃ t, exec (.decoderFatalError k) s = .next t ∧ (t.decoder k).disabled = true ∧
      ((s.decoder k).busy = none → (s.ing.streams.all fun y => !y.2.enable) = true →
        Records s t ⟨.ing, 11⟩ .unitFatal (.decoder k) [] ∧ Keeps ([.ing] ++ reportParts) s t) := by
  refine ⟨_, exec_decoderFatalError halive hrange hup, ?_, fun hidle hnone => ?_⟩
  · refine List.foldlRecOn (motive := fun t : State => (t.decoder k).disabled = true) _ _ ?_
      fun t ht n _ => (moveStream_disabled t k _ n).trans ht
    rw [loseBusy_decoder, decoderFailed_decoder]
  · rw [hidle, State.loseBusy, decoderFailed_streamsOf, streamsOf_of_none_enabled s k hnone]
    exact ⟨decoderFailed_records s k, decoderFailed_keeps s k⟩

end

end Sys2Proof.Machine
end

section
/-!
Host feeds (R469, R470, R496): a doorbell moves the tail of a function's feed, and the descriptor at its head is taken, then refused
or given to its stream.
-/
namespace Sys2Proof.Machine
open Sys2Proof

/-! ### The feed of a function -/

theorem SameSettings.feed {s t : State} (h : SameSettings s t) (f : Nat) : (t.fn f).feed = (s.fn f).feed :=
  congrArg (fun g => g.feed) (h f)

/-- A host feed whose tail a doorbell has moved, the descriptors between closing at an instant. -/
def HostFeed.rung (h : HostFeed) (v : Nat) (at_ : DWord) : HostFeed :=
  { h with
    tail := BitVec.ofNat 16 v
    bells := h.bells ++ (ringRange h.size h.size h.tail.toNat v).map fun i => (i, at_) }

/-- A host feed that has read the descriptor at its head. -/
def HostFeed.taken (h : HostFeed) : HostFeed :=
  { h with
    head := BitVec.ofNat 16 ((h.head.toNat + 1) % h.size)
    bells := h.bells.filter fun b => b.1 != h.head.toNat }

/-- A function with another host feed. -/
def State.setFeed (s : State) (fn : Nat) (h : HostFeed) : State := s.setFn fn { s.fn fn with feed := h }

section
variable (s : State) (fn : Nat)

@[simp] theorem setFeed_feed (h : HostFeed) : ((s.setFeed fn h).fn fn).feed = h := by simp [State.setFeed]

theorem setFeed_keeps (h : HostFeed) : Keeps [.fns] s (s.setFeed fn h) := setFn_keeps s fn _

theorem accessError_feed : ((s.accessError fn).fn fn).feed = (s.fn fn).feed := by
  rw [accessError_eq, (reportWith_sameSettings _ _ _).feed]
  simp [State.accessCounted]

variable {s fn}

theorem exec_hostFeedDoorbell_ok {v : Word} {h : HostFeed} (hreach : s.hostReach fn = true) (hh : h = (s.fn fn).feed)
    (hok : producerOk h.size h.tail.toNat (v.toNat % 65536) h.head.toNat = true) :
    exec (.hostFeedDoorbell fn v) s = .next (s.setFeed fn (h.rung (v.toNat % 65536) s.epoch)) := by
  subst hh
  simp only [exec, execHostFeedDoorbell, hreach, hok, Bool.not_true, Bool.false_eq_true, if_false, if_true]
  rfl

theorem exec_hostFeedDoorbell_bad {v : Word} {h : HostFeed} (hreach : s.hostReach fn = true) (hh : h = (s.fn fn).feed)
    (hbad : producerOk h.size h.tail.toNat (v.toNat % 65536) h.head.toNat = false) :
    exec (.hostFeedDoorbell fn v) s = .next (s.accessError fn) := by
  subst hh
  simp only [exec, execHostFeedDoorbell, hreach, hbad, Bool.not_true, Bool.false_eq_true, if_false]

end

/-! ### A descriptor at the head of a host feed (R470) -/

theorem fillFree_of_full (s : State) {n : Nat} {b : List Byte} (h : b.length = n) : s.fillFree n b = b := by
  rw [State.fillFree, List.take_of_length_le (Nat.le_of_eq h), h, Nat.sub_self]
  exact List.append_nil b

theorem insertAu_length (u : AccessUnit) (l : List AccessUnit) : (insertAu u l).length = l.length + 1 := by
  induction l with
  | nil => rfl
  | cons y r ih =>
    unfold insertAu
    split
    · rfl
    · simp [ih]

/-- A descriptor of a timestamp that has no access unit forms one, closed. -/
theorem Stream.feedIn_forms {x : Stream} {ts : Nat} (haudio : x.isAudio = false) (hnew : x.isNew ts = true)
    (hnone : x.hasAu ts = false) (at_ : DWord) (loss : Bool) (data : Option (List Byte)) (len : Nat) :
    (x.feedIn at_ ts loss data len).closed.length = x.closed.length + 1 := by
  have heq : ¬(!x.isNew ts || x.hasAu ts) = true := by simp [hnew, hnone]
  simp only [Stream.feedIn, haudio, Bool.false_eq_true, if_false, if_neg heq]
  exact insertAu_length _ _

/-- The state in which a descriptor is checked: its bytes are read, and its feed's head is past it. -/
def State.feedTaken (s : State) (fn : Nat) : State := s.takeFree.setFeed fn (s.fn fn).feed.taken

section
variable (s : State) (fn : Nat)

theorem feedTaken_keeps : Keeps [.fns, .freeCount] s (s.feedTaken fn) :=
  ((takeFree_keeps s).mono (by simp)).trans' ((setFeed_keeps _ _ _).mono (by simp))

theorem feedTaken_atHost (h : ringsAtHost s = true) : ringsAtHost (s.feedTaken fn) = true :=
  ringsAtHost_setFn s.takeFree h fn _ (ringsAtHost_fn s h fn)

/-- A bad descriptor reported: E-ING-12, to its function alone. -/
def State.feedRefused (b : List Byte) : State :=
  reportWith 3 { blk := .ing, nn := 12, func := some fn, unit := .stream (leAt b 0 2), ownOnly := true } (s.feedTaken fn)

theorem feedRefused_feed (b : List Byte) : ((s.feedRefused fn b).fn fn).feed = (s.fn fn).feed.taken := by
  rw [State.feedRefused, (reportWith_sameSettings _ _ _).feed, State.feedTaken, setFeed_feed]

theorem feedRefused_records (b : List Byte) :
    Records s (s.feedRefused fn b) ⟨.ing, 12⟩ .reportOnly (.stream (leAt b 0 2)) [] :=
  records_of_before (reportWith_records 2 _ _) (feedTaken_atHost s fn) rfl

theorem feedRefused_keeps (b : List Byte) : Keeps ([.freeCount] ++ reportParts) s (s.feedRefused fn b) :=
  ((feedTaken_keeps s fn).mono (by simp [reportParts])).trans'
    ((reportWith_keeps _ _ _).mono fun _ => List.mem_append_right _)

end

/-- The bytes of an access unit that lies in host memory, as its descriptor is taken. -/
def State.feedData (s : State) (fn : Nat) (b p : List Byte) : List Byte := (s.feedTaken fn).fillFree (leAt b 4 4) p

/-- The instant at which the descriptor at the head closes: that of the doorbell that submitted it. -/
def State.feedInstant (s : State) (fn : Nat) : DWord :=
  (Tab.find? (s.fn fn).feed.bells (s.fn fn).feed.head.toNat).getD s.epoch

/-- A descriptor of host memory whose access unit has formed in its stream. -/
def State.feedFormed (s : State) (fn : Nat) (b p : List Byte) : State :=
  (s.feedTaken fn).takeFree.modStream (leAt b 0 2) fun x =>
    x.feedIn (s.feedInstant fn) (leAt b 0x10 4) ((leAt b 2 1).testBit 2) (some (s.feedData fn b p)) (leAt b 4 4)

section
variable (s : State) (fn : Nat) (b p : List Byte)

theorem feedFormed_feed : ((s.feedFormed fn b p).fn fn).feed = (s.fn fn).feed.taken := setFeed_feed _ _ _

theorem feedFormed_keeps : Keeps [.ing, .fns, .freeCount] s (s.feedFormed fn b p) :=
  (((feedTaken_keeps s fn).mono (by simp)).trans' ((takeFree_keeps _).mono (by simp))).trans'
    ((setStream_keeps _ _ _).mono (by simp))

theorem feedFormed_stream : (s.feedFormed fn b p).stream (leAt b 0 2) = (s.stream (leAt b 0 2)).feedIn (s.feedInstant fn)
    (leAt b 0x10 4) ((leAt b 2 1).testBit 2) (some (s.feedData fn b p)) (leAt b 4 4) :=
  State.stream_setStream _ _ _

/-- Bytes that the host serves need no access to device memory. -/
theorem feedBytes_of_host (hhost : (leAt b 2 1).testBit 0 = true) (hlink : s.hst.linkUp = true) :
    s.feedBytes fn b p true = (some (s.fillFree (leAt b 4 4) p), s.takeFree) := by
  simp only [State.feedBytes, hhost, hlink, Bool.and_self, if_true]

end

section
variable {s : State} {fn : Nat} {b : List Byte} {h : HostFeed} (halive : s.alive = true) (hfn : s.fnExists fn = true)
  (hh : h = (s.fn fn).feed) (hup : h.disabled = false) (hsome : h.head ≠ h.tail) (hhost : h.host = true)
  (hlink : s.hst.linkUp = true) (hlen : b.length = 32)
include halive hfn hh hup hsome hhost hlink hlen

/-- A descriptor read from host memory is taken, then refused or given to its stream. -/
theorem exec_hostFeedDescriptor (p : List Byte) : exec (.hostFeedDescriptor fn b p true true) s =
    .next (if s.feedOk fn b = false then s.feedRefused fn b else
      ((s.feedTaken fn).feedBytes fn b p true).2.modStream (leAt b 0 2) fun x =>
        x.feedIn (s.feedInstant fn) (leAt b 0x10 4) ((leAt b 2 1).testBit 2) ((s.feedTaken fn).feedBytes fn b p true).1
          (leAt b 4 4)) := by
  subst hh
  have hguard : ¬(!s.alive || !s.fnExists fn || (s.fn fn).feed.disabled || (s.fn fn).feed.head == (s.fn fn).feed.tail) =
      true := by
    simp [halive, hfn, hup, hsome]
  simp only [exec, execHostFeedDescriptor]
  rw [if_neg hguard, if_pos hhost]
  dsimp only
  rw [if_neg (by simp [hlink]), if_neg (by simp [hhost]), if_pos hhost, fillFree_of_full s hlen]
  by_cases hok : s.feedOk fn b = false
  · rw [if_pos hok]
    refine (if_pos ?_).trans (congrArg Host.Outcome.next (report_ingCode _ _ rfl rfl))
    exact congrArg not hok
  · rw [if_neg hok]
    refine if_neg ?_
    rw [Bool.not_eq_false] at hok
    exact fun htrue => Bool.false_ne_true ((congrArg not hok).symm.trans htrue)

theorem hostFeedDescriptor_refused (p : List Byte) (hbad : s.feedOk fn b = false) :
    ∃ t, exec (.hostFeedDescriptor fn b p true true) s = .next t ∧
      (t.fn fn).feed.head = BitVec.ofNat 16 ((h.head.toNat + 1) % h.size) ∧ t.ing = s.ing ∧
      Records s t ⟨.ing, 12⟩ .reportOnly (.stream (leAt b 0 2)) [] ∧ Keeps ([.freeCount] ++ reportParts) s t := by
  have hexec := exec_hostFeedDescriptor halive hfn hh hup hsome hhost hlink hlen p
  rw [if_pos hbad] at hexec
  have hkeeps := feedRefused_keeps s fn b
  refine ⟨_, hexec, ?_, hkeeps .ing (by decide), feedRefused_records s fn b, hkeeps⟩
  rw [feedRefused_feed, ← hh]
  rfl

theorem hostFeedDescriptor_forms (p : List Byte) (hok : s.feedOk fn b = true) (hinline : (leAt b 2 1).testBit 0 = true)
    (haudio : (s.stream (leAt b 0 2)).isAudio = false) (hnew : (s.stream (leAt b 0 2)).isNew (leAt b 0x10 4) = true)
    (hnone : (s.stream (leAt b 0 2)).hasAu (leAt b 0x10 4) = false) :
    ∃ t, exec (.hostFeedDescriptor fn b p true true) s = .next t ∧
      (t.fn fn).feed.head = BitVec.ofNat 16 ((h.head.toNat + 1) % h.size) ∧
      (t.stream (leAt b 0 2)).closed.length = (s.stream (leAt b 0 2)).closed.length + 1 ∧
      Keeps [.ing, .fns, .freeCount] s t := by
  have hexec := exec_hostFeedDescriptor halive hfn hh hup hsome hhost hlink hlen p
  rw [if_neg (by simp [hok]), feedBytes_of_host (s.feedTaken fn) fn b p hinline hlink] at hexec
  have hstate : exec (.hostFeedDescriptor fn b p true true) s = .next (s.feedFormed fn b p) := hexec
  refine ⟨_, hstate, ?_, ?_, feedFormed_keeps s fn b p⟩
  · rw [feedFormed_feed, ← hh]
    rfl
  · rw [feedFormed_stream, Stream.feedIn_forms haudio hnew hnone]

end

/-! ### The obligation, clause by clause -/

section
variable {s : State} {fn n : Nat} {v : Word} (hn : (s.fn fn).strmSel.toNat = n) (hmay : s.mayControl fn n v.toNat = true)
include hn hmay

theorem streamEnable_starts (hoff : (s.stream n).enable = false) (y : Stream) (hy : y = (s.stream n).withCtrl v.toNat)
    (haccept : s.enableRefusal fn n y = none) :
    ∃ t d, exec (.streamEnable fn v) s = .next t ∧ s.assignDecoder y = some d ∧ t.stream n = y.fresh fn d ∧
      (t.stream n).enable = true ∧ Keeps [.ing] s t := by
  obtain ⟨d, hd⟩ := assignDecoder_of_accepted haccept
  refine ⟨_, d, exec_streamEnable_accepted hn hmay hy hoff haccept hd, hd, ?_⟩
  rw [State.stream_setStream]
  exact ⟨rfl, rfl, setStream_keeps _ _ _⟩

theorem streamEnable_fails (hoff : (s.stream n).enable = false) (y : Stream) (nn : Nat)
    (hy : y = (s.stream n).withCtrl v.toNat) (hrefuse : s.enableRefusal fn n y = some nn) :
    ∃ t, exec (.streamEnable fn v) s = .next t ∧ (t.stream n).enable = false ∧ (t.stream n).code = BitVec.ofNat 8 nn ∧
      Records s t ⟨.ing, nn⟩ .reportOnly (.stream n) [] ∧ Keeps ([.ing] ++ reportParts) s t := by
  have hcls : Err.cls ⟨.ing, nn⟩ = .reportOnly := by
    obtain rfl | rfl := enableRefusal_code hrefuse <;> rfl
  have hset : Keeps [.ing] s (s.setStream n y) := setStream_keeps s n y
  have hrecords := ingReport_records (s.setStream n y) n nn none
  rw [hcls] at hrecords
  have hyoff : y.enable = false := by rw [hy]; exact hoff
  refine ⟨_, exec_streamEnable_refused hn hmay hy hoff hrefuse, ?_⟩
  rw [ingReport_stream, State.stream_setStream]
  exact ⟨hyoff, rfl, records_of_before hrecords (fun h => h) (hset .erl (by decide)),
    (hset.mono (by simp)).trans' (ingReport_keeps _ _ _ _)⟩

theorem streamDisable_stops (hon : (s.stream n).enable = true) :
    ∃ t, exec (.streamDisable fn v) s = .next t ∧ (t.stream n).enable = false ∧ (t.stream n).opens = [] ∧
      (t.stream n).closed = [] ∧ (t.stream n).ready = [] ∧ (∀ k, k ≠ n → t.stream k = s.stream k) ∧
      Keeps ([.ing] ++ reportParts) s t := by
  refine ⟨_, exec_streamDisable_running hn hmay hon, ?_⟩
  generalize strmCtrlOff = off
  have hkeeps := (streamLocked_keeps s fn n off v.toNat).trans' ((stopStream_keeps _ n).mono (by simp))
  rw [stopStream_stream]
  refine ⟨rfl, rfl, rfl, rfl, fun k hk => ?_, hkeeps⟩
  rw [stopStream_stream_other _ _ hk, streamLocked_stream_other _ _ _ _ _ hk]

end

theorem hostFeedDoorbell_rings {s : State} {fn : Nat} {v : Word} (hreach : s.hostReach fn = true) (h : HostFeed)
    (hh : h = (s.fn fn).feed) :
    (producerOk h.size h.tail.toNat (v.toNat % 65536) h.head.toNat = true →
      ∃ t, exec (.hostFeedDoorbell fn v) s = .next t ∧ (t.fn fn).feed.tail = BitVec.ofNat 16 (v.toNat % 65536) ∧
        (t.fn fn).feed.head = h.head ∧ Keeps [.fns] s t) ∧
    (producerOk h.size h.tail.toNat (v.toNat % 65536) h.head.toNat = false →
      ∃ t, exec (.hostFeedDoorbell fn v) s = .next t ∧ (t.fn fn).feed = h ∧
        Records s t ⟨.hst, 1⟩ .reportOnly .none [] ∧ Keeps reportParts s t) := by
  refine ⟨fun hok => ⟨_, exec_hostFeedDoorbell_ok hreach hh hok, ?_⟩, fun hbad => ?_⟩
  · rw [setFeed_feed]
    exact ⟨rfl, rfl, setFeed_keeps _ _ _⟩
  · exact ⟨_, exec_hostFeedDoorbell_bad hreach hh hbad, (accessError_feed s fn).trans hh.symm, accessError_records s fn,
      accessError_keeps s fn⟩

/-- Settles O34: a stream's enable and disable, a decoder's fatal error and a host feed's doorbell and descriptor are each one
equation; whatever streams a failed decoder's fatal error moves or disables, no decoder comes back in use. -/
theorem streamsAndHostFeeds : Obligations.StreamsAndHostFeeds := by
  intro s fn n v hn
  refine ⟨fun hmay hoff => ⟨streamEnable_starts hn hmay hoff, streamEnable_fails hn hmay hoff⟩, streamDisable_stops hn,
    fun k => decoderFatalError_disables, hostFeedDoorbell_rings, fun halive hfn h b p hh hup hsome hhost hlink hlen => ?_⟩
  exact ⟨hostFeedDescriptor_refused halive hfn hh hup hsome hhost hlink hlen p,
    hostFeedDescriptor_forms halive hfn hh hup hsome hhost hlink hlen p⟩

end Sys2Proof.Machine
end

section
/-!
BAR2 (R484, R485, R623): what a read and a write of device memory do where the Cadastre grants them, and what a denied write
leaves: where every enabled log ring lies in host memory, the report of the denial touches neither memory nor the counts of denials.
-/
namespace Sys2Proof.Machine
open Sys2Proof

/-! ### Reports where every enabled ring lies in host memory -/

theorem ringStep_atHost (rep : Ev → State → State) (r : Rec) (s : State) (f : Nat) (h : ringsAtHost s = true) :
    ringStep rep r s f = s.ringPut f r := by
  unfold ringStep
  split
  · rename_i p hp
    exact absurd hp (ringTry_atHost s h f p)
  · rfl

theorem foldl_ringStep_keeps_atHost (rep : Ev → State → State) (r : Rec) (l : List Nat) (s : State)
    (h : ringsAtHost s = true) : Keeps [.fns, .out, .mem] s (l.foldl (ringStep rep r) s) := by
  induction l generalizing s with
  | nil => exact Keeps.rfl' _ _
  | cons f l ih =>
    obtain ⟨hrings, -, -⟩ := ringPut_atHost s h f r
    rw [List.foldl_cons, ringStep_atHost rep r s f h]
    exact (ringPut_keeps s f r).trans' (ih _ hrings)

/-- The Field book's share of a record and its platform event. -/
theorem recordShare_keeps (t : State) (e : Ev) (r : Rec) : Keeps [.fb, .hnd, .out] t
    (if e.class = .unitFatal ∨ e.class = .moduleFatal then
      (t.fieldBookPut e.class r).platformEvent 0xF0 (r.bytes false) else t.fieldBookPut e.class r) := by
  have hbook : Keeps [.fb, .hnd, .out] t (t.fieldBookPut e.class r) := (fieldBookPut_keeps t _ r).mono (by simp)
  split
  · exact hbook.trans' ((platformEvent_keeps _ _ _).mono (by simp))
  · exact hbook

/-- No ring being denied by the Cadastre, a report leaves its counts. -/
theorem reportWith_cad_atHost (n : Nat) (e : Ev) (s : State) (h : ringsAtHost s = true) :
    (reportWith n e s).cad = s.cad := by
  cases n with
  | zero => rfl
  | succ n =>
    have hraise := raiseFor_keeps s e
    unfold reportWith
    dsimp only
    split
    · exact hraise .cad (by decide)
    · refine Eq.trans (foldl_ringStep_keeps_atHost _ _ _ _ ?_ .cad (by decide)) ?_
      · refine (ringsAtHost_congr (s := s) ?_).trans h
        exact (recordShare_keeps _ e _ .fns (by decide)).trans (hraise .fns (by decide))
      · exact (recordShare_keeps _ e _ .cad (by decide)).trans (hraise .cad (by decide))

/-- A denial that stops no unit's frame is counted, whether it is due a record or not, and its record writes no memory. -/
theorem deny_atHost (s : State) (cls page : Nat) (write : Bool) (f ctx frame : Option Nat) (h : ringsAtHost s = true) :
    (s.deny cls page write .reportOnly f ctx frame).mem = s.mem ∧
      (s.deny cls page write .reportOnly f ctx frame).cad = (s.countDenial cls page write).2.cad := by
  have hcounted : ringsAtHost (s.countDenial cls page write).2 = true := h
  unfold State.deny
  dsimp only
  split
  · rw [report_eq _ _ (by intro hfatal; cases hfatal)]
    exact ⟨(reportWith_atHost 3 _ _ hcounted).1, reportWith_cad_atHost 3 _ _ hcounted⟩
  · exact ⟨rfl, rfl⟩

/-! ### The accesses -/

section
variable {s : State} {fn off : Nat} (hreach : s.hostReach fn = true)
include hreach

theorem bar2Reach_of_le {len : Nat} (hsize : off + len ≤ s.bar2Size fn) : s.bar2Reach fn off len = true := by
  simp [State.bar2Reach, hreach, hsize]

theorem exec_bar2Read_granted {len : Nat} (ue : UeList) (hsize : off + len ≤ s.bar2Size fn)
    (hdev : inDev (s.bar2Addr fn off) len = true) (hgrant : s.cadDenied fn (s.bar2Addr fn off) len false = none)
    (hgood : s.badGranule ue (granules (s.bar2Addr fn off) len) = none) :
    exec (.bar2Read fn off len ue) s = .next (s.emit (.readData fn (s.peek (s.bar2Addr fn off) len) false)) := by
  have hserved : ¬(!inDev (s.bar2Addr fn off) len && !s.bar2Tile (s.bar2Addr fn off) len) = true := by simp [hdev]
  change execBar2Read fn off len ue s = _
  rw [execBar2Read, if_neg (by simp [bar2Reach_of_le hreach hsize]), if_neg hserved, if_pos hdev, hgrant, hgood]

theorem exec_bar2Write_granted {data : List Byte} (ue : UeList) (hsize : off + data.length ≤ s.bar2Size fn)
    (hdev : inDev (s.bar2Addr fn off) data.length = true)
    (hgrant : s.cadDenied fn (s.bar2Addr fn off) data.length true = none)
    (hgood : s.badGranule ue (partGranules (s.bar2Addr fn off) data.length) = none) :
    exec (.bar2Write fn off data ue) s =
      .next ((s.writeDev (s.bar2Addr fn off) data).invalidate (pages (s.bar2Addr fn off) data.length)) := by
  simp [exec, execBar2Write, bar2Reach_of_le hreach hsize, hdev, hgrant, hgood]

theorem exec_bar2Write_denied {data : List Byte} (ue : UeList) {page : Nat} (hsize : off + data.length ≤ s.bar2Size fn)
    (hdev : inDev (s.bar2Addr fn off) data.length = true)
    (hdeny : s.cadDenied fn (s.bar2Addr fn off) data.length true = some page) :
    exec (.bar2Write fn off data ue) s = .next (s.deny fn page true .reportOnly (some fn) none none) := by
  simp [exec, execBar2Write, bar2Reach_of_le hreach hsize, hdev, hdeny]

theorem exec_bar2BaseWrite (v : DWord) : exec (.bar2BaseWrite fn v) s =
    .next (s.modFn fn fun g => { g with hst := { g.hst with bar2Base := v.extractLsb' 30 34 } }) := by
  simp [exec, execBar2BaseWrite, hreach, fld]

end

theorem invalidate_tile (s : State) (ps : List Nat) : (s.invalidate ps).mem.tile = s.mem.tile := by
  unfold State.invalidate; split <;> rfl

/-- A fresh write of device memory puts its bytes, and no other byte of device or tile memory changes. -/
theorem writeDev_invalidate_effect (s : State) (a : Nat) (d : List Byte) (ps : List Nat) (t : State)
    (ht : t = (s.writeDev a d).invalidate ps) :
    (s.mem.wf = true → readBytes t.mem.bytes a d.length = d) ∧
      (∀ b, b < a ∨ a + d.length ≤ b → readByte t.mem.bytes b = readByte s.mem.bytes b) ∧
      t.mem.tile = s.mem.tile ∧ Keeps [.mem, .hrd, .ec] s t := by
  have hbytes : t.mem.bytes = writeBytes s.mem.bytes a d := by rw [ht, invalidate_bytes]; rfl
  refine ⟨fun hwf => ?_, fun b hb => ?_, ?_, ?_⟩
  · rw [hbytes, readBytes_writeBytes_same _ _ _ ((Mem.wf_iff _).mp hwf).1]
  · rw [hbytes, readByte_writeBytes_other _ _ hb]
  · rw [ht, invalidate_tile]; rfl
  · rw [ht]
    exact ((writeDev_keeps s a d).mono (by simp)).trans' ((invalidate_keeps _ _).mono (by simp))

/-- Settles O9: each access is one equation by what the Cadastre says of it, and with the log rings in host memory the report of
a denial leaves memory and the denial's counts. -/
theorem bar2ReadsAndWritesMemory : Obligations.Bar2ReadsAndWritesMemory := by
  intro s fn off hreach
  have hdev : ∀ {len : Nat}, s.bar2Addr fn off + len ≤ 0x17E0000000 → inDev (s.bar2Addr fn off) len = true :=
    fun hle => decide_eq_true hle
  refine ⟨fun len ue hsize hle hgrant hgood => ?_, fun data ue hsize hle hgrant hgood => ?_,
    fun data ue page hsize hle hdeny hrings => ?_, fun v => ?_⟩
  · exact ⟨_, exec_bar2Read_granted hreach ue hsize (hdev hle) hgrant hgood, rfl, emit_keeps _ _⟩
  · exact ⟨_, exec_bar2Write_granted hreach ue hsize (hdev hle) hgrant hgood, writeDev_invalidate_effect s _ data _ _ rfl⟩
  · obtain ⟨hmem, hcad⟩ := deny_atHost s fn page true (some fn) none none hrings
    refine ⟨_, exec_bar2Write_denied hreach ue hsize (hdev hle) hdeny, hmem, ?_⟩
    rw [hcad]
    exact ⟨rfl, rfl, rfl⟩
  · refine ⟨_, exec_bar2BaseWrite hreach v, ?_, setFn_keeps s fn _⟩
    rw [State.modFn_eq, State.fn_setFn]

end Sys2Proof.Machine
end

section
/-!
The submission and output rings of a function, read back after a change, and what a report and an access error leave of them.
-/
namespace Sys2Proof.Machine
open Sys2Proof

section
variable (s : State) (f r : Nat)

@[simp] theorem State.sq_setSq (x : Sq) : (s.setSq f r x).sq f r = x := by simp [State.sq, State.setSq]

@[simp] theorem State.oq_setOq (x : Oq) : (s.setOq f r x).oq f r = x := by simp [State.oq, State.setOq]

theorem setSq_keeps (x : Sq) : Keeps [.fns] s (s.setSq f r x) := setFn_keeps s f _

theorem setOq_keeps (x : Oq) : Keeps [.fns] s (s.setOq f r x) := setFn_keeps s f _

theorem setSq_atHost (x : Sq) (h : ringsAtHost s = true) : ringsAtHost (s.setSq f r x) = true :=
  ringsAtHost_setFn s h f _ (ringsAtHost_fn s h f)

theorem setOq_atHost (x : Oq) (h : ringsAtHost s = true) : ringsAtHost (s.setOq f r x) = true :=
  ringsAtHost_setFn s h f _ (ringsAtHost_fn s h f)

theorem setSq_accErr (x : Sq) : ((s.setSq f r x).fn f).hst.accErr = (s.fn f).hst.accErr := by simp [State.setSq]

theorem setOq_accErr (x : Oq) : ((s.setOq f r x).fn f).hst.accErr = (s.fn f).hst.accErr := by simp [State.setOq]

end

section
variable {s t : State}

theorem State.sq_congr (h : t.fns = s.fns) (f r : Nat) : t.sq f r = s.sq f r := by rw [State.sq, State.fn_congr h, State.sq]

theorem State.oq_congr (h : t.fns = s.fns) (f r : Nat) : t.oq f r = s.oq f r := by rw [State.oq, State.fn_congr h, State.oq]

theorem SameSettings.sqs (h : SameSettings s t) (f : Nat) : (t.fn f).hst.sqs = (s.fn f).hst.sqs :=
  congrArg (fun g => g.hst.sqs) (h f)

theorem SameSettings.oqs (h : SameSettings s t) (f : Nat) : (t.fn f).hst.oqs = (s.fn f).hst.oqs :=
  congrArg (fun g => g.hst.oqs) (h f)

theorem SameSettings.sq (h : SameSettings s t) (f r : Nat) : t.sq f r = s.sq f r := by rw [State.sq, h.sqs, State.sq]

theorem SameSettings.oq (h : SameSettings s t) (f r : Nat) : t.oq f r = s.oq f r := by rw [State.oq, h.oqs, State.oq]

end

section
variable (s : State) (fn r : Nat)

theorem accessError_sq : (s.accessError fn).sq fn r = s.sq fn r := by
  rw [accessError_eq, (reportWith_sameSettings _ _ _).sq]
  simp [State.accessCounted, State.sq]

theorem accessError_oq : (s.accessError fn).oq fn r = s.oq fn r := by
  rw [accessError_eq, (reportWith_sameSettings _ _ _).oq]
  simp [State.accessCounted, State.oq]

end

end Sys2Proof.Machine
end

section
/-!
Submission rings, written by their driver (R487, R488, R491, R496): a ring is bound, rung, resumed and dropped.
-/
namespace Sys2Proof.Machine
open Sys2Proof

/-- A submission ring whose tail a doorbell has moved, the entries between submitted at an instant. -/
def Sq.rung (q : Sq) (v : Nat) (at_ : DWord) : Sq :=
  { q with
    tail := BitVec.ofNat 16 v
    bells := q.bells ++ (ringRange q.size q.size q.tail.toNat v).map fun i => (i, at_) }

theorem Sq.pass_head (q : Sq) : q.pass.head.toNat = (q.head.toNat + 1) % q.size % 65536 := BitVec.toNat_ofNat _ _

section
variable {s : State} {fn ring : Nat} (hreach : s.hostReach fn = true) (hring : ring < 32)
include hreach hring

/-- The guard of a driver's write to a ring that exists. -/
theorem sqGuard : ¬(!s.hostReach fn || decide (32 ≤ ring)) = true := by simp [hreach, hring]

theorem exec_sqBind (v : Word) (hrest : (s.sq fn ring).head = (s.sq fn ring).tail)
    (hfree : ((s.sq fn ring).withCfg v.toNat).kind = .command →
      s.ownsChan fn ((s.sq fn ring).withCfg v.toNat).channel.toNat = true ∧
        s.channelBound fn ring ((s.sq fn ring).withCfg v.toNat).channel.toNat = false) :
    exec (.sqBind fn ring v) s = .next (s.setSq fn ring ((s.sq fn ring).withCfg v.toNat)) := by
  have hruns : (s.sq fn ring).runs = false := by simp [Sq.runs, hrest]
  have haccepted : ¬(((s.sq fn ring).withCfg v.toNat).kind == .command &&
      (!s.ownsChan fn ((s.sq fn ring).withCfg v.toNat).channel.toNat ||
        s.channelBound fn ring ((s.sq fn ring).withCfg v.toNat).channel.toNat)) = true := by
    simp only [Bool.and_eq_true, beq_iff_eq, Bool.or_eq_true, Bool.not_eq_true']
    rintro ⟨hkind, hnot⟩
    obtain ⟨howns, hunbound⟩ := hfree hkind
    simp [howns, hunbound] at hnot
  simp only [exec, execSqBind, if_neg (sqGuard hreach hring), hruns, if_neg haccepted, Bool.false_eq_true, if_false]

theorem exec_sqDoorbell_ok {v : Word}
    (hok : producerOk (s.sq fn ring).size (s.sq fn ring).tail.toNat (v.toNat % 65536) (s.sq fn ring).head.toNat = true) :
    exec (.sqDoorbell fn ring v) s = .next (s.setSq fn ring ((s.sq fn ring).rung (v.toNat % 65536) s.epoch)) := by
  simp only [exec, execSqDoorbell, if_neg (sqGuard hreach hring), hok, if_true]
  rfl

theorem exec_sqDoorbell_bad {v : Word}
    (hbad : producerOk (s.sq fn ring).size (s.sq fn ring).tail.toNat (v.toNat % 65536) (s.sq fn ring).head.toNat = false) :
    exec (.sqDoorbell fn ring v) s = .next (s.accessError fn) := by
  simp only [exec, execSqDoorbell, if_neg (sqGuard hreach hring), hbad, Bool.false_eq_true, if_false]

theorem exec_sqResume (hhalt : (s.sq fn ring).halted = true) :
    exec (.sqResume fn ring) s = .next (s.setSq fn ring { s.sq fn ring with halted := false }) := by
  simp [exec, execSqResume, hreach, hring, hhalt]

theorem exec_sqDrop (hhalt : (s.sq fn ring).halted = true) :
    exec (.sqDrop fn ring) s = .next (s.setSq fn ring { (s.sq fn ring).pass with halted := false }) := by
  simp [exec, execSqDrop, hreach, hring, hhalt]

end

/-- Settles O10: each write of a ring's registers is one equation, which sets the ring named or counts an access error. -/
theorem submissionRingsBindRingAndResume : Obligations.SubmissionRingsBindRingAndResume := by
  intro s fn ring hreach hring
  have hset : ∀ {i : Instr} {x : Sq}, exec i s = .next (s.setSq fn ring x) →
      ∃ t, exec i s = .next t ∧ t.sq fn ring = x ∧ Keeps [.fns] s t :=
    fun hexec => ⟨_, hexec, State.sq_setSq _ _ _ _, setSq_keeps _ _ _ _⟩
  refine ⟨fun v hrest hkind => hset (exec_sqBind hreach hring v hrest fun h => absurd h hkind),
    fun v hrest _ howns hunbound => hset (exec_sqBind hreach hring v hrest fun _ => ⟨howns, hunbound⟩),
    fun v hok => ?_, fun v hbad => ?_, fun hhalt => hset (exec_sqResume hreach hring hhalt), fun hhalt => ?_⟩
  · refine ⟨_, exec_sqDoorbell_ok hreach hring hok, ?_, ?_, setSq_keeps _ _ _ _⟩ <;> rw [State.sq_setSq]
    · exact BitVec.eq_of_toNat_eq (by simp [Sq.rung])
    · rfl
  · exact ⟨_, exec_sqDoorbell_bad hreach hring hbad, congrArg Sq.tail (accessError_sq s fn ring), accessError_accErr s fn⟩
  · refine ⟨_, exec_sqDrop hreach hring hhalt, ?_, ?_, setSq_keeps _ _ _ _⟩ <;> rw [State.sq_setSq]
    exact Sq.pass_head _

end Sys2Proof.Machine
end

section
/-!
Entries of submission rings (R487 to R490): the entry at the head of a ring in host memory is queued on its channel, or numbered
and supplied as a frame, or halts the ring. Losing the frames of a gap leaves the submission rings and every context's numbering.
-/
namespace Sys2Proof.Machine
open Sys2Proof

/-- E-HST-11 is the endpoint's one module-fatal code (R502). -/
theorem hstCode_not_moduleFatal {e : Ev} (hblk : e.blk = .hst) (hcls : e.cls = none) (h : e.nn ≠ 11) :
    e.class ≠ .moduleFatal := by
  rw [Ev.class, hcls, Option.getD_none, Ev.err, hblk, Err.cls]
  dsimp only
  rw [if_neg h]
  split <;> simp

/-! ### What a lost frame leaves (R490) -/

/-- Whether a context's source has submitted a frame, and the number of its next one (R490). -/
def Ctx.numbering (x : Ctx) : Bool × Nat := (x.submitted, x.nextNo)

/-- Every submission ring and every context's numbering are as before. -/
structure SubmissionsStand (s t : State) : Prop where
  sqs : ∀ f, (t.fn f).hst.sqs = (s.fn f).hst.sqs
  numbering : ∀ c, (t.ctx c).numbering = (s.ctx c).numbering

namespace SubmissionsStand
variable {s t u : State}

theorem sq (h : SubmissionsStand s t) (f r : Nat) : t.sq f r = s.sq f r := by
  rw [State.sq, h.sqs, State.sq]

theorem rfl' (s : State) : SubmissionsStand s s := ⟨fun _ => rfl, fun _ => rfl⟩

theorem trans (h : SubmissionsStand s t) (k : SubmissionsStand t u) : SubmissionsStand s u :=
  ⟨fun f => (k.sqs f).trans (h.sqs f), fun c => (k.numbering c).trans (h.numbering c)⟩

theorem foldl {α : Type} (g : State → α → State) (h : ∀ s a, SubmissionsStand s (g s a)) (xs : List α) (s : State) :
    SubmissionsStand s (xs.foldl g s) :=
  List.foldlRecOn (motive := SubmissionsStand s) _ _ (rfl' s) fun t ht a _ => ht.trans (h t a)

/-- A change made or not. -/
theorem ite {p : Prop} [Decidable p] (h : SubmissionsStand s t) : SubmissionsStand s (if p then t else s) := by
  split
  · exact h
  · exact rfl' s

theorem of_settings (h : SameSettings s t) (hhrd : t.hrd = s.hrd) : SubmissionsStand s t :=
  ⟨h.sqs, fun c => by rw [State.ctx_congr (congrArg Hrd.ctxs hhrd)]⟩

theorem of_keeps {l : List Part} (h : Keeps l s t) (hl : ∀ p ∈ [Part.fns, .hrd], p ∉ l) : SubmissionsStand s t :=
  of_settings (.of_fns (h .fns (hl _ (by simp)))) (h .hrd (hl _ (by simp)))

theorem modCtx {c : Nat} {g : Ctx → Ctx} (h : ∀ x, (g x).numbering = x.numbering) : SubmissionsStand s (s.modCtx c g) := by
  refine ⟨fun _ => rfl, fun k => ?_⟩
  by_cases hk : k = c
  · subst hk
    rw [State.modCtx_eq, State.ctx_setCtx, h]
  · rw [State.modCtx_eq, State.ctx_setCtx_other _ _ _ _ hk]

theorem dropLines {p : Nat → Bool} : SubmissionsStand s (s.dropLines p) :=
  ⟨fun _ => rfl, fun c => by rw [State.ctx_dropLines]; rfl⟩

theorem setFn {f : Nat} {x : Fn} (h : x.hst.sqs = (s.fn f).hst.sqs) : SubmissionsStand s (s.setFn f x) := by
  refine ⟨fun k => ?_, fun _ => rfl⟩
  by_cases hk : k = f
  · subst hk
    rw [State.fn_setFn, h]
  · rw [State.fn_setFn_other _ _ _ _ hk]

theorem modFn {f : Nat} {g : Fn → Fn} (h : ∀ x, (g x).hst.sqs = x.hst.sqs) : SubmissionsStand s (s.modFn f g) := setFn (h _)

theorem setOq {f r : Nat} {x : Oq} : SubmissionsStand s (s.setOq f r x) := modFn fun _ => rfl

theorem report {e : Ev} (h : e.class ≠ .moduleFatal) : SubmissionsStand s (s.report e) := by
  rw [report_eq s e fun hfatal => absurd hfatal h]
  exact of_settings (reportWith_sameSettings 3 e s) (reportWith_hrd 3 e s)

theorem deny {cls page : Nat} {write : Bool} {f ctx frame : Option Nat} :
    SubmissionsStand s (s.deny cls page write .reportOnly f ctx frame) := by
  have hcount : SubmissionsStand s (s.countDenial cls page write).2 := of_keeps (countDenial_keeps s cls page write) (by decide)
  unfold State.deny
  dsimp only
  split
  · exact hcount.trans (report (by simp [denialEv, Ev.class]))
  · exact hcount

theorem memError {nn g source : Nat} {newly : Bool} {e : Ev} (h : e.cls.getD (Err.cls ⟨.mem, nn⟩) ≠ .moduleFatal) :
    SubmissionsStand s (s.memError nn g source newly e) := by
  have hcount : SubmissionsStand s (if newly then s.countUe (homeQuarter g) else s) :=
    .ite (of_keeps (countUe_keeps s _) (by decide))
  unfold State.memError
  refine .trans ?_ (report h)
  exact hcount.trans (.of_settings (.of_fns rfl) rfl)

theorem ringWrite {f : Nat} {host : Bool} {a : Nat} {d : List Byte} : SubmissionsStand s (s.ringWrite f host a d) := by
  have hwrite : SubmissionsStand s (s.writeDev a d) := of_keeps (writeDev_keeps s a d) (by decide)
  unfold State.ringWrite State.invalidate
  split
  · exact of_keeps (hostWrite_keeps s f a d) (by decide)
  · split
    · exact hwrite
    · exact hwrite.trans dropLines

theorem copyPublished {copy : Option (Nat × Nat)} : SubmissionsStand s (s.copyPublished copy) := by
  unfold State.copyPublished
  split
  · exact rfl' s
  · exact of_keeps (setChan_keeps _ _ _) (by decide)

theorem copyFails {copy : Option (Nat × Nat)} : SubmissionsStand s (s.copyFails copy) := by
  unfold State.copyFails
  split
  · exact rfl' s
  · exact of_keeps (setChan_keeps _ _ _) (by decide)

theorem oqInterrupt {f r : Nat} : SubmissionsStand s (s.oqInterrupt f r) :=
  setOq.trans (of_settings (msix_sameSettings _ _ _) (State.msix_hrd _ _ _))

theorem oqPlace {f r : Nat} {e : OqEntry} : SubmissionsStand s (s.oqPlace f r e) := by
  unfold State.oqPlace
  dsimp only
  split
  · exact ((setOq.trans deny).trans (report (by simp [Ev.class, Ev.err, Err.cls]))).trans copyPublished
  · have hwrites := foldl (fun t p => t.ringWrite f (s.oq f r).host ((s.oq f r).addr.toNat * 64 + 64 * p.1) p.2)
      (fun t p => ringWrite) ((s.oq f r).plan e).1 s
    split
    · exact (hwrites.trans (memError (by simp [Err.cls]))).trans copyFails
    · refine .trans (t := State.copyPublished _ _) ?_ (.ite oqInterrupt)
      refine .trans ?_ copyPublished
      split
      · exact ((hwrites.trans (setOq.trans setOq)).trans deny).trans (report (by simp [Ev.class, Ev.err, Err.cls]))
      · exact (hwrites.trans setOq).trans ringWrite

theorem oqPush {f r : Nat} {lossy : Bool} {e : OqEntry} : SubmissionsStand s (s.oqPush f r lossy e) := by
  unfold State.oqPush
  dsimp only
  split
  · exact copyPublished
  · split
    · exact oqPlace
    · split
      · refine .trans ?_ (report (by simp [Ev.class, Ev.err, Err.cls]))
        refine .trans ?_ copyPublished
        exact setOq.trans (modFn fun _ => rfl)
      · exact setOq

theorem modStat {fn c : Nat} {g : CtxStat → CtxStat} : SubmissionsStand s (s.modStat fn c g) := modFn fun _ => rfl

theorem putRecord {c : Nat} {f : Frame} {k flags code : Nat} : SubmissionsStand s (s.putRecord c f k flags code) := by
  have hshown : ∀ g n h, SubmissionsStand s ((s.modCtx c fun x => { x with lastFrame := some f.no }).modStat g n h) := by
    intro g n h
    refine .trans ?_ modStat
    exact modCtx fun _ => rfl
  unfold State.putRecord
  dsimp only
  split
  · split
    · exact hshown _ _ _
    · exact (hshown _ _ _).trans oqPush
  · exact hshown _ _ _

theorem loseUnit {c : Nat} {f : Frame} {code : Nat} : SubmissionsStand s (s.loseUnit c f code) := by
  refine ⟨fun k => ?_, fun k => ?_⟩
  · rw [State.fn_congr (loseUnit_keeps s c f code .fns (by decide))]
  · unfold State.loseUnit
    split
    · rfl
    · rw [flushMarkers_ctx_map Ctx.numbering fun _ _ => rfl]
      exact modStream_ctx_map Ctx.numbering (fun _ _ => rfl) s c
        (fun y => { y with waiting := insertMarker (f.no, code, f.arrival) y.waiting }) k

theorem lostCounted : SubmissionsStand s s.lostCounted := ⟨fun _ => rfl, fun _ => rfl⟩

/-- A host frame marked lost is reported, and its record and marker follow. -/
theorem hostLost {fn c no nn : Nat} {arrival : DWord} (h : nn ≠ 11) : SubmissionsStand s (s.hostLost fn c no nn arrival) := by
  refine .trans (t := s.report { blk := .hst, nn := nn, func := some fn, ctx := some c, frame := some no }) ?_ ?_
  · exact report (hstCode_not_moduleFatal rfl rfl h)
  · exact lostCounted.trans (loseUnit.trans putRecord)

end SubmissionsStand

/-! ### A frame submission reaches the Herder (R490) -/

/-- The number of the first frame that a submission may name, and that of its own frame after the gap it declares. -/
def Ctx.firstNo (x : Ctx) : Nat := if x.submitted then x.nextNo else 0
def Ctx.frameNo (x : Ctx) (gap : Nat) : Nat := if x.submitted then x.nextNo + gap else 0

/-- The frames of a declared gap are lost, each in its turn. -/
def State.gapLost (s : State) (fn c first n : Nat) (at_ : DWord) : State :=
  (List.range n).foldl (fun t i => t.hostLost fn c (first + i) 9 at_) s

/-- A context whose frame has a number, the next one following it. -/
def Ctx.numbered (x : Ctx) (no : Nat) : Ctx := { x with submitted := true, nextNo := no + 1 }

section
variable (s : State) (fn : Nat) (x : Submission) (at_ : DWord)

/-- A submission's context once the gap is lost and the frame numbered. -/
def State.frameNumbered : State :=
  (s.gapLost fn x.ctx (s.ctx x.ctx).firstNo ((s.ctx x.ctx).frameNo x.gap - (s.ctx x.ctx).firstNo) at_).modCtx x.ctx
    fun y => y.numbered ((s.ctx x.ctx).frameNo x.gap)

theorem submit_stands : SubmissionsStand (s.frameNumbered fn x at_) (s.submit fn x at_) := by
  have heq : s.submit fn x at_ =
      if x.lost then (s.frameNumbered fn x at_).hostLost fn x.ctx ((s.ctx x.ctx).frameNo x.gap) 10 at_
      else (s.frameNumbered fn x at_).supply x.ctx (Frame.fresh ((s.ctx x.ctx).frameNo x.gap) at_
        ((s.frameNumbered fn x at_).deadlineFor x.ctx at_) x.input x.len x.inputLoss false) := by
    unfold State.submit State.frameNumbered State.gapLost Ctx.firstNo Ctx.frameNo
    cases (s.ctx x.ctx).submitted <;> rfl
  rw [heq]
  split
  · exact .hostLost (by decide)
  · exact .modCtx fun _ => rfl

/-- A submission takes the number after its gap, and no ring moves. -/
theorem submit_effect : (∀ f r, (s.submit fn x at_).sq f r = s.sq f r) ∧
    ((s.submit fn x at_).ctx x.ctx).numbering = (true, (s.ctx x.ctx).frameNo x.gap + 1) := by
  have hstands := submit_stands s fn x at_
  have hgap : SubmissionsStand s (s.gapLost fn x.ctx (s.ctx x.ctx).firstNo
      ((s.ctx x.ctx).frameNo x.gap - (s.ctx x.ctx).firstNo) at_) := .foldl _ (fun t i => .hostLost (by decide)) _ _
  refine ⟨fun f r => (hstands.sq f r).trans (hgap.sq f r), (hstands.numbering x.ctx).trans ?_⟩
  rw [State.frameNumbered, State.modCtx_eq, State.ctx_setCtx]
  rfl

end

/-! ### The entry at the head -/

section
variable {s : State} {fn ring : Nat} {bytes : List Byte}

theorem sqReads_of {k : SqKind} (halive : s.alive = true) (hfn : s.fnExists fn = true) (hring : ring < 32)
    (hkind : (s.sq fn ring).kind = k) (hrun : (s.sq fn ring).halted = false)
    (hsome : (s.sq fn ring).head ≠ (s.sq fn ring).tail) : s.sqReads fn ring k = true := by
  simp [State.sqReads, Sq.runs, halive, hfn, hring, hkind, hrun, hsome]

theorem sqEntry_of_host (hhost : (s.sq fn ring).host = true) (hlink : s.hst.linkUp = true) (hlen : bytes.length = 64) :
    s.sqEntry fn ring bytes true = (some bytes, s.takeFree) := by
  simp [State.sqEntry, hhost, hlink, fillFree_of_full s hlen]

/-- A ring that has halted at its entry, before the report. -/
def State.sqHalted (s : State) (fn ring nn : Nat) : State :=
  s.setSq fn ring { s.sq fn ring with halted := true, code := BitVec.ofNat 8 nn }

theorem sqHalt_eq (nn : Nat) (h : nn ≠ 11) : s.sqHalt fn ring nn =
    reportWith 3 { blk := .hst, nn := nn, func := some fn, unit := .ring ring } (s.sqHalted fn ring nn) := by
  exact report_eq _ _ fun hfatal => absurd hfatal (hstCode_not_moduleFatal rfl rfl h)

theorem sqHalt_effect (s : State) (fn ring : Nat) : (s.sqHalt fn ring 2).sq fn ring = { s.sq fn ring with halted := true, code := 2 } ∧
    Records s (s.sqHalt fn ring 2) ⟨.hst, 2⟩ .reportOnly (.ring ring) [] ∧ Keeps reportParts s (s.sqHalt fn ring 2) := by
  rw [sqHalt_eq 2 (by decide)]
  refine ⟨?_, records_of_before (reportWith_records 2 _ _) (setSq_atHost _ _ _ _) rfl,
    ((setSq_keeps _ _ _ _).mono (by simp [reportParts])).trans' (reportWith_keeps _ _ _)⟩
  rw [(reportWith_sameSettings _ _ _).sq, State.sqHalted, State.sq_setSq]
  rfl

/-- A descriptor read from a command ring: the ring passes it, and its channel queues it. -/
def State.entryQueued (s : State) (fn ring : Nat) (bytes : List Byte) : State :=
  (s.takeFree.setSq fn ring (s.sq fn ring).pass).modChan (s.sq fn ring).channel.toNat
    fun x => { x with driverQ := x.driverQ ++ [Desc.read bytes] }

section
variable (hlink : s.hst.linkUp = true) (hhost : (s.sq fn ring).host = true) (hlen : bytes.length = 64)
include hlink hhost hlen

theorem exec_sqEntryFetch (hreads : s.sqReads fn ring .command = true)
    (howns : s.ownsChan fn (s.sq fn ring).channel.toNat = true) :
    exec (.sqEntryFetch fn ring bytes true) s = .next (s.entryQueued fn ring bytes) := by
  have howns' : s.takeFree.ownsChan fn (s.takeFree.sq fn ring).channel.toNat = true := howns
  simp only [exec, execSqEntryFetch, hreads, sqEntry_of_host hhost hlink hlen, howns', Bool.not_true, Bool.false_eq_true,
    if_false]
  rfl

theorem exec_frameSubmission_ok (hreads : s.sqReads fn ring .frame = true) (hok : s.submissionOk fn bytes = true) :
    ∃ at_, exec (.frameSubmission fn ring bytes true) s =
      .next ((s.takeFree.setSq fn ring (s.sq fn ring).pass).submit fn (Submission.read bytes) at_) := by
  have hok' : s.takeFree.submissionOk fn bytes = true := hok
  simp only [exec, execFrameSubmission, hreads, sqEntry_of_host hhost hlink hlen, hok', Bool.not_true, Bool.false_eq_true,
    if_false]
  exact ⟨_, rfl⟩

theorem exec_frameSubmission_bad (hreads : s.sqReads fn ring .frame = true) (hbad : s.submissionOk fn bytes = false) :
    exec (.frameSubmission fn ring bytes true) s = .next (s.takeFree.sqHalt fn ring 2) := by
  have hbad' : s.takeFree.submissionOk fn bytes = false := hbad
  simp only [exec, execFrameSubmission, hreads, sqEntry_of_host hhost hlink hlen, hbad', Bool.not_true, Bool.not_false,
    Bool.false_eq_true, if_false, if_true]

end

end

theorem entryQueued_effect (s : State) (fn ring : Nat) (bytes : List Byte) :
    ((s.entryQueued fn ring bytes).chan (s.sq fn ring).channel.toNat).driverQ =
        (s.chan (s.sq fn ring).channel.toNat).driverQ ++ [Desc.read bytes] ∧
      (s.entryQueued fn ring bytes).sq fn ring = (s.sq fn ring).pass ∧
      Keeps [.fns, .rtv, .freeCount] s (s.entryQueued fn ring bytes) := by
  refine ⟨?_, State.sq_setSq _ _ _ _, ?_⟩
  · rw [State.entryQueued, State.modChan_eq, State.chan_setChan]
    rfl
  · exact (((takeFree_keeps s).mono (by simp)).trans' ((setSq_keeps _ _ _ _).mono (by simp))).trans'
      ((setChan_keeps _ _ _).mono (by simp))

/-- Settles O11: a ring in host memory with its link up reads its entry whole, so that each clause is one equation of the entry;
the frames of a gap are lost without a change of the rings or of the context's numbering. -/
theorem submissionEntriesAreTaken : Obligations.SubmissionEntriesAreTaken := by
  intro s fn ring bytes halive hfn hring hlink hhost hrun hsome hlen
  refine ⟨fun hkind howns => ?_, fun hkind hok => ?_, fun hkind hbad => ?_⟩ <;>
    have hreads := sqReads_of halive hfn hring hkind hrun hsome
  · exact ⟨_, exec_sqEntryFetch hlink hhost hlen hreads howns, entryQueued_effect s fn ring bytes⟩
  · obtain ⟨at_, hexec⟩ := exec_frameSubmission_ok hlink hhost hlen hreads hok
    obtain ⟨hsq, hnumber⟩ := submit_effect (s.takeFree.setSq fn ring (s.sq fn ring).pass) fn (Submission.read bytes) at_
    refine ⟨_, hexec, ?_, congrArg Prod.fst hnumber, congrArg Prod.snd hnumber⟩
    rw [hsq, State.sq_setSq]
  · obtain ⟨hsq, hrecord, hkeeps⟩ := sqHalt_effect s.takeFree fn ring
    refine ⟨_, exec_frameSubmission_bad hlink hhost hlen hreads hbad, ?_, ?_, ?_, records_of_before hrecord id rfl,
      ((takeFree_keeps s).mono (by simp)).trans' (hkeeps.mono (by simp_all))⟩ <;> rw [hsq]
    rfl

end Sys2Proof.Machine
end

section
/-!
Output rings (R494 to R499): a waiting entry is placed, the consumer's index is taken, and the coalescing time and the drain bound
expire.
-/
namespace Sys2Proof.Machine
open Sys2Proof

/-! ### Placing an entry of a ring in host memory (R494, R495) -/

/-- An output ring that has published an entry: its blocks are counted in PIDX and as not yet signalled. -/
def Oq.published (o : Oq) (e : OqEntry) : Oq :=
  { o with pidx := o.pidx + BitVec.ofNat 32 (o.plan e).2, notice := none, unsignalled := o.unsignalled + (o.plan e).2 }

section
variable (s : State) (f r : Nat) (e : OqEntry)

/-- The pieces of an entry written to host memory. -/
def State.oqWritten : State :=
  ((s.oq f r).plan e).1.foldl (fun t p => t.hostWrite f ((s.oq f r).addr.toNat * 64 + 64 * p.1) p.2) s

/-- An entry written and published, its producer index written back after it. -/
def State.oqPublished : State :=
  ((((s.oqWritten f r e).setOq f r ((s.oq f r).published e)).hostWrite f ((s.oq f r).wbAddr.toNat * 8)
    (natLe 4 ((s.oq f r).published e).pidx.toNat))).copyPublished e.copy

/-- The ring signals what it has published at once: no coalescing time, or its count reached (R499). -/
def Oq.signals (o : Oq) : Bool := o.en && (o.coalUs = 0 || o.count.toNat ≤ o.unsignalled)

theorem oqPlace_of_host (hhost : (s.oq f r).host = true) (hwb : (s.oq f r).wbHost = true) :
    s.oqPlace f r e = if ((s.oq f r).published e).signals then (s.oqPublished f r e).oqInterrupt f r
      else s.oqPublished f r e := by
  simp only [State.oqPlace, State.ringWrite, if_pos hhost, if_pos hwb, if_pos (Or.inl hwb)]
  rfl

theorem oqWritten_keeps : Keeps [.out] s (s.oqWritten f r e) :=
  Keeps.foldl (α := Nat × List Byte) _ _ (fun t p => hostWrite_keeps t f ((s.oq f r).addr.toNat * 64 + 64 * p.1) p.2) _ _

theorem copyPublished_keeps (copy : Option (Nat × Nat)) : Keeps [.rtv] s (s.copyPublished copy) := by
  unfold State.copyPublished
  split
  · exact Keeps.rfl' _ _
  · exact setChan_keeps _ _ _

theorem oqPublished_oq : (s.oqPublished f r e).oq f r = (s.oq f r).published e := by
  rw [State.oqPublished, State.oq_congr (copyPublished_keeps _ _ .fns (by decide)), State.oq_congr (State.hostWrite_fns _ _ _ _),
    State.oq_setOq]

theorem oqPublished_keeps : Keeps [.fns, .rtv, .out] s (s.oqPublished f r e) :=
  ((((oqWritten_keeps s f r e).mono (by simp)).trans' ((setOq_keeps _ _ _ _).mono (by simp))).trans'
    ((hostWrite_keeps _ _ _ _).mono (by simp))).trans' ((copyPublished_keeps _ _).mono (by simp))

theorem oqInterrupt_oq : (s.oqInterrupt f r).oq f r = { s.oq f r with unsignalled := 0 } := by
  rw [State.oqInterrupt, (msix_sameSettings _ _ _).oq, State.oq_setOq]

theorem oqInterrupt_keeps : Keeps [.fns, .out] s (s.oqInterrupt f r) :=
  ((setOq_keeps _ _ _ _).mono (by simp)).trans' (msix_keeps _ _ _)

/-- A placed entry is counted in PIDX, and those that wait behind it stand. -/
theorem oqPlace_of_host_effect (hhost : (s.oq f r).host = true) (hwb : (s.oq f r).wbHost = true) :
    ((s.oqPlace f r e).oq f r).waiting = (s.oq f r).waiting ∧
      ((s.oqPlace f r e).oq f r).pidx = (s.oq f r).pidx + BitVec.ofNat 32 ((s.oq f r).plan e).2 ∧
      Keeps [.fns, .rtv, .out] s (s.oqPlace f r e) := by
  rw [oqPlace_of_host s f r e hhost hwb]
  split
  · rw [oqInterrupt_oq, oqPublished_oq]
    exact ⟨rfl, rfl, (oqPublished_keeps s f r e).trans' ((oqInterrupt_keeps _ _ _).mono (by simp))⟩
  · rw [oqPublished_oq]
    exact ⟨rfl, rfl, oqPublished_keeps s f r e⟩

end

/-! ### The commands -/

@[simp] theorem Oq.settleLate_cidx (o : Oq) : o.settleLate.cidx = o.cidx := by
  unfold Oq.settleLate
  split
  · split <;> rfl
  · rfl

@[simp] theorem Oq.settleLate_pidx (o : Oq) : o.settleLate.pidx = o.pidx := by
  unfold Oq.settleLate
  split
  · split <;> rfl
  · rfl

section
variable {s : State} {fn ring : Nat}

/-- A ring with its oldest waiting entry taken off the wait. -/
def State.oqTaken (s : State) (fn ring : Nat) (rest : List OqEntry) : State :=
  s.setOq fn ring { s.oq fn ring with waiting := rest }

theorem exec_waitingEntryPlaced {e : OqEntry} {rest : List OqEntry} (halive : s.alive = true)
    (hon : (s.oq fn ring).disabled = false) (hwait : (s.oq fn ring).waiting = e :: rest)
    (hfits : (s.oq fn ring).fits e = true) :
    exec (.waitingEntryPlaced fn ring) s = .next ((s.oqTaken fn ring rest).oqPlace fn ring e) := by
  simp [exec, execWaitingEntryPlaced, State.oqDrain, halive, hon, hwait, hfits, State.oqTaken]

theorem exec_oqCidxWrite_ok {v : Word} (hreach : s.hostReach fn = true) (hring : ring < 64)
    (hok : (v - (s.oq fn ring).cidx).toNat ≤ ((s.oq fn ring).pidx - (s.oq fn ring).cidx).toNat) :
    exec (.oqCidxWrite fn ring v) s =
      .next (s.setOq fn ring (Oq.settleLate { s.oq fn ring with cidx := v })) := by
  have hguard : ¬(!s.hostReach fn || decide (64 ≤ ring)) = true := by simp [hreach, hring]
  simp only [exec, execOqCidxWrite, if_neg hguard, if_pos hok]

theorem exec_oqCidxWrite_bad {v : Word} (hreach : s.hostReach fn = true) (hring : ring < 64)
    (hbad : ((s.oq fn ring).pidx - (s.oq fn ring).cidx).toNat < (v - (s.oq fn ring).cidx).toNat) :
    exec (.oqCidxWrite fn ring v) s = .next (s.accessError fn) := by
  have hguard : ¬(!s.hostReach fn || decide (64 ≤ ring)) = true := by simp [hreach, hring]
  simp only [exec, execOqCidxWrite, if_neg hguard, if_neg (Nat.not_le.mpr hbad)]

theorem exec_oqIrqCoalesceExpiry (halive : s.alive = true) (hen : (s.oq fn ring).en = true)
    (hsome : (s.oq fn ring).unsignalled ≠ 0) : exec (.oqIrqCoalesceExpiry fn ring) s = .next (s.oqInterrupt fn ring) := by
  simp [exec, execOqIrqCoalesceExpiry, halive, hen, hsome]

/-- A ring late by its drain bound, its function's status showing it, before the report (R498). -/
def State.drainMarked (s : State) (fn ring : Nat) : State :=
  (s.setOq fn ring { s.oq fn ring with drainLate := true, lateTo := some (s.oq fn ring).pidx }).modFn fn
    fun g => { g with hst := { g.hst with drainLate := true } }

theorem exec_drainBoundExpiry (halive : s.alive = true) (hheld : (s.oq fn ring).pidx ≠ (s.oq fn ring).cidx)
    (honce : (s.oq fn ring).lateTo = none) (hstrict : s.boundStrict fn ring = true) :
    exec (.drainBoundExpiry fn ring) s = .next (reportWith 3 { blk := .hst, nn := 4, func := some fn, unit := .ring ring }
      (s.drainMarked fn ring)) := by
  have hguard : ¬(!s.alive || (s.oq fn ring).pidx == (s.oq fn ring).cidx || (s.oq fn ring).lateTo.isSome ||
      !s.boundStrict fn ring) = true := by simp [halive, hheld, honce, hstrict]
  simp only [exec, execDrainBoundExpiry, if_neg hguard]
  rw [report_eq _ _ (by intro hfatal; cases hfatal)]
  rfl

theorem drainMarked_oq (s : State) (fn ring : Nat) : (s.drainMarked fn ring).oq fn ring =
    { s.oq fn ring with drainLate := true, lateTo := some (s.oq fn ring).pidx } := by
  simp [State.drainMarked, State.setOq, State.oq]

theorem drainMarked_keeps (s : State) (fn ring : Nat) : Keeps [.fns] s (s.drainMarked fn ring) :=
  (setOq_keeps _ _ _ _).trans' (setFn_keeps _ _ _)

theorem drainMarked_atHost (h : ringsAtHost s = true) : ringsAtHost (s.drainMarked fn ring) = true := by
  have hset := setOq_atHost s fn ring { s.oq fn ring with drainLate := true, lateTo := some (s.oq fn ring).pidx } h
  exact ringsAtHost_setFn _ hset fn _ (ringsAtHost_fn _ hset fn)

end

/-- Settles O12: an entry of a ring in host memory is placed by posted writes alone, and each other command sets the ring's
indices and marks, with one message, report or access error at most. -/
theorem outputRingsPublishAndDrain : Obligations.OutputRingsPublishAndDrain := by
  intro s fn ring halive
  refine ⟨fun e rest hon hwait hfits hhost hwb => ?_, fun v hreach hring hok => ?_, fun v hreach hring hbad => ?_,
    fun hen hsome => ?_, fun hheld honce hstrict => ?_⟩
  · have htaken : (s.oqTaken fn ring rest).oq fn ring = { s.oq fn ring with waiting := rest } := State.oq_setOq _ _ _ _
    obtain ⟨hrest, hpidx, hkeeps⟩ := oqPlace_of_host_effect (s.oqTaken fn ring rest) fn ring e (by rw [htaken]; exact hhost)
      (by rw [htaken]; exact hwb)
    rw [htaken] at hrest hpidx
    exact ⟨_, exec_waitingEntryPlaced halive hon hwait hfits, hrest, hpidx, ((setOq_keeps _ _ _ _).mono (by simp)).trans' hkeeps⟩
  · refine ⟨_, exec_oqCidxWrite_ok hreach hring hok, ?_, ?_, setOq_keeps _ _ _ _⟩ <;> rw [State.oq_setOq] <;> simp
  · exact ⟨_, exec_oqCidxWrite_bad hreach hring hbad, congrArg Oq.cidx (accessError_oq s fn ring), accessError_accErr s fn⟩
  · refine ⟨_, exec_oqIrqCoalesceExpiry halive hen hsome, ?_, ?_, oqInterrupt_keeps _ _ _⟩ <;> rw [oqInterrupt_oq]
  · have hsame := reportWith_sameSettings 3 { blk := .hst, nn := 4, func := some fn, unit := .ring ring } (s.drainMarked fn ring)
    have hoq := (hsame.oq fn ring).trans (drainMarked_oq s fn ring)
    refine ⟨_, exec_drainBoundExpiry halive hheld honce hstrict, congrArg Oq.drainLate hoq, congrArg Oq.lateTo hoq, ?_,
      records_of_before (reportWith_records 2 _ _) drainMarked_atHost rfl,
      ((drainMarked_keeps s fn ring).mono (by simp [reportParts])).trans' (reportWith_keeps _ _ _)⟩
    refine (congrArg (fun g => g.hst.drainLate) (hsame fn)).trans ?_
    rw [State.drainMarked, State.modFn_eq, State.fn_setFn]
    rfl

end Sys2Proof.Machine
end

section
/-!
The indices that a driver writes (R496): a write either moves its one index, or is an access error, which leaves every ring.
-/
namespace Sys2Proof.Machine
open Sys2Proof

/-! ### A report leaves the tail of every log ring to its driver (R676) -/

/-- Every function's log ring has its tail where it was. -/
def SameTails (s t : State) : Prop := ∀ f, (t.fn f).ring.tail = (s.fn f).ring.tail

namespace SameTails
variable {s t u : State}

theorem of_fns (h : t.fns = s.fns) : SameTails s t := fun f => by rw [State.fn_congr h]

theorem trans (h : SameTails s t) (k : SameTails t u) : SameTails s u := fun f => (k f).trans (h f)

theorem foldl {α : Type} (g : State → α → State) (h : ∀ s a, SameTails s (g s a)) (xs : List α) (s : State) :
    SameTails s (xs.foldl g s) :=
  List.foldlRecOn (motive := SameTails s) _ _ (of_fns rfl) fun t ht a _ => ht.trans (h t a)

theorem setFn {f : Nat} {x : Fn} (h : x.ring.tail = (s.fn f).ring.tail) : SameTails s (s.setFn f x) := by
  intro k
  by_cases hk : k = f
  · subst hk
    rw [State.fn_setFn, h]
  · rw [State.fn_setFn_other _ _ _ _ hk]

theorem msix {f v : Nat} : SameTails s (s.msix f v) := by
  unfold State.msix
  dsimp only
  split
  · exact of_fns rfl
  · split
    · exact setFn rfl
    · exact of_fns rfl

theorem ringPut {f : Nat} {r : Rec} : SameTails s (s.ringPut f r) := by
  have hhead : ∀ (v : State) (y : LogRing), v.fns = s.fns → y.tail = (s.fn f).ring.tail →
      SameTails s (v.modFn f fun x => { x with ring := y }) :=
    fun v y hfns hy => (of_fns hfns).trans (setFn (hy.trans (by rw [State.fn_congr hfns])))
  have hmsix : ∀ (b : Bool) (v : State) (n : Nat), SameTails s v → SameTails s (if b then v.msix f n else v) := by
    intro b v n h
    cases b
    · exact h
    · exact h.trans msix
  unfold State.ringPut
  dsimp only
  split
  · exact of_fns rfl
  · exact setFn rfl
  · exact setFn rfl
  · refine hmsix _ _ _ (hhead _ _ ?_ rfl)
    split <;> simp

theorem ringStep {rep : Ev → State → State} (hrep : ∀ e s, SameTails s (rep e s)) {r : Rec} {f : Nat} :
    SameTails s (ringStep rep r s f) := by
  unfold Machine.ringStep
  split
  · rename_i p _
    have hdenied : SameTails s ((s.ringPut f r).countDenial f p true).2 := ringPut.trans (of_fns rfl)
    refine .trans ?_ (hrep _ _)
    split
    · exact hdenied.trans (hrep _ _)
    · exact hdenied
  · exact ringPut

theorem reportWith (n : Nat) : ∀ (e : Ev) (s : State), SameTails s (reportWith n e s) := by
  induction n with
  | zero => exact fun e s => of_fns rfl
  | succ n ih =>
    intro e s
    have hraise : (s.raiseFor e).fns = s.fns := raiseFor_keeps s e .fns (by decide)
    unfold Machine.reportWith
    dsimp only
    split
    · exact of_fns hraise
    · refine .trans (of_fns ?_) (foldl _ (fun t f => ringStep ih) _ _)
      exact (recordShare_keeps _ e _ .fns (by decide)).trans hraise

end SameTails

theorem accessError_ringTail (s : State) (fn : Nat) : ((s.accessError fn).fn fn).ring.tail = (s.fn fn).ring.tail := by
  rw [accessError_eq, SameTails.reportWith]
  simp [State.accessCounted]

/-! ### The two outcomes of a write -/

/-- A write of an index of function `fn` moves it to `new` and counts no error. -/
def IndexMoves (s : State) (fn : Nat) (i : Instr) (idx : State → Nat) (new : Nat) : Prop :=
  ∃ t, exec i s = .next t ∧ idx t = new ∧ (t.fn fn).hst.accErr = (s.fn fn).hst.accErr ∧ Keeps [.fns, .rtv, .ing] s t

/-- A write of an index of function `fn` is an access error, which leaves the index. -/
def IndexRefused (s : State) (fn : Nat) (i : Instr) (idx : State → Nat) : Prop :=
  exec i s = .next (s.accessError fn) ∧ idx (s.accessError fn) = idx s

section
variable {s : State} {fn : Nat} {i : Instr} {idx : State → Nat}

theorem IndexRefused.effect (h : IndexRefused s fn i idx) :
    ∃ t, exec i s = .next t ∧ idx t = idx s ∧ (t.fn fn).hst.accErr = satInc (s.fn fn).hst.accErr ∧
      (t.fn fn).feed = (s.fn fn).feed ∧ (∀ r, t.sq fn r = s.sq fn r ∧ t.oq fn r = s.oq fn r) ∧
      (t.fn fn).ring.tail = (s.fn fn).ring.tail ∧ Records s t ⟨.hst, 1⟩ .reportOnly .none [] ∧ Keeps reportParts s t := by
  obtain ⟨hexec, hidx⟩ := h
  exact ⟨_, hexec, hidx, accessError_accErr s fn, accessError_feed s fn, fun r => ⟨accessError_sq s fn r, accessError_oq s fn r⟩,
    accessError_ringTail s fn, accessError_records s fn, accessError_keeps s fn⟩

end

theorem toNat_index (v : Word) : (BitVec.ofNat 16 (v.toNat % 65536)).toNat = v.toNat % 65536 :=
  (BitVec.toNat_ofNat _ _).trans (Nat.mod_mod _ _)

/-! ### The six indices -/

section
variable {s : State} {fn : Nat} (v : Word) (hreach : s.hostReach fn = true)
include hreach

theorem crecTail_write {ch : Nat} (hown : s.ownsChan fn ch = true) {ok : Bool}
    (hok : ok = consumerOk (s.chan ch).recordSize (s.chan ch).tail.toNat (v.toNat % 65536) (s.chan ch).head.toNat) :
    (ok = true → IndexMoves s fn (.crecTailWrite fn ch v) (fun t => (t.chan ch).tail.toNat) (v.toNat % 65536)) ∧
      (ok = false → IndexRefused s fn (.crecTailWrite fn ch v) (fun t => (t.chan ch).tail.toNat)) := by
  have hexec := exec_crecTailWrite v hreach hown
  rw [← hok] at hexec
  refine ⟨?_, ?_⟩ <;> rintro rfl
  · refine ⟨_, hexec, ?_, rfl, (setChan_keeps _ _ _).mono (by simp)⟩
    rw [if_pos rfl]
    exact (congrArg (fun x : Chan => x.tail.toNat) (State.chan_setChan _ _ _)).trans (toNat_index v)
  · exact ⟨hexec, congrArg (fun x : Chan => x.tail.toNat) (accessError_chan s fn ch)⟩

theorem erlRingTail_write {ok : Bool} (hok : ok = consumerOk (2 ^ (s.fn fn).ring.log2.toNat) (s.fn fn).ring.tail.toNat
      (v.toNat % 65536) (s.fn fn).ring.head.toNat) :
    (ok = true → IndexMoves s fn (.erlRingTailWrite fn v) (fun t => (t.fn fn).ring.tail.toNat) (v.toNat % 65536)) ∧
      (ok = false → IndexRefused s fn (.erlRingTailWrite fn v) (fun t => (t.fn fn).ring.tail.toNat)) := by
  have hexec : exec (.erlRingTailWrite fn v) s = .next (if ok then
      s.modFn fn fun x => { x with ring := { (s.fn fn).ring with tail := BitVec.ofNat 16 (v.toNat % 65536) } }
      else s.accessError fn) := by
    simp only [exec, execErlRingTailWrite, hreach, ← hok, Bool.not_true, Bool.false_eq_true, if_false]
    split <;> rfl
  refine ⟨?_, ?_⟩ <;> rintro rfl
  · rw [if_pos rfl, State.modFn_eq] at hexec
    refine ⟨_, hexec, ?_, ?_, (setFn_keeps s fn _).mono (by simp)⟩
    · exact (congrArg (fun g : Fn => g.ring.tail.toNat) (State.fn_setFn _ _ _)).trans (toNat_index v)
    · rw [State.fn_setFn]
  · exact ⟨hexec, congrArg BitVec.toNat (accessError_ringTail s fn)⟩

theorem oqCidx_write {r : Nat} (hr : r < 64) {ok : Bool}
    (hok : ok = decide ((v - (s.oq fn r).cidx).toNat ≤ ((s.oq fn r).pidx - (s.oq fn r).cidx).toNat)) :
    (ok = true → IndexMoves s fn (.oqCidxWrite fn r v) (fun t => (t.oq fn r).cidx.toNat) v.toNat) ∧
      (ok = false → IndexRefused s fn (.oqCidxWrite fn r v) (fun t => (t.oq fn r).cidx.toNat)) := by
  refine ⟨?_, ?_⟩ <;> rintro rfl
  · refine ⟨_, exec_oqCidxWrite_ok hreach hr (of_decide_eq_true hok.symm), ?_, setOq_accErr _ _ _ _,
      (setOq_keeps _ _ _ _).mono (by simp)⟩
    exact congrArg (fun o : Oq => o.cidx.toNat) (State.oq_setOq _ _ _ _) |>.trans (congrArg BitVec.toNat (Oq.settleLate_cidx _))
  · exact ⟨exec_oqCidxWrite_bad hreach hr (Nat.not_le.mp (of_decide_eq_false hok.symm)),
      congrArg (fun o : Oq => o.cidx.toNat) (accessError_oq s fn r)⟩

theorem sqTail_write {r : Nat} (hr : r < 32) {ok : Bool}
    (hok : ok = producerOk (s.sq fn r).size (s.sq fn r).tail.toNat (v.toNat % 65536) (s.sq fn r).head.toNat) :
    (ok = true → IndexMoves s fn (.sqDoorbell fn r v) (fun t => (t.sq fn r).tail.toNat) (v.toNat % 65536)) ∧
      (ok = false → IndexRefused s fn (.sqDoorbell fn r v) (fun t => (t.sq fn r).tail.toNat)) := by
  refine ⟨?_, ?_⟩ <;> rintro rfl
  · refine ⟨_, exec_sqDoorbell_ok hreach hr hok.symm, ?_, setSq_accErr _ _ _ _, (setSq_keeps _ _ _ _).mono (by simp)⟩
    exact (congrArg (fun q : Sq => q.tail.toNat) (State.sq_setSq _ _ _ _)).trans (toNat_index v)
  · exact ⟨exec_sqDoorbell_bad hreach hr hok.symm, congrArg (fun q : Sq => q.tail.toNat) (accessError_sq s fn r)⟩

theorem feedTail_write {ok : Bool} (hok : ok = producerOk (s.fn fn).feed.size (s.fn fn).feed.tail.toNat (v.toNat % 65536)
      (s.fn fn).feed.head.toNat) :
    (ok = true → IndexMoves s fn (.hostFeedDoorbell fn v) (fun t => (t.fn fn).feed.tail.toNat) (v.toNat % 65536)) ∧
      (ok = false → IndexRefused s fn (.hostFeedDoorbell fn v) (fun t => (t.fn fn).feed.tail.toNat)) := by
  refine ⟨?_, ?_⟩ <;> rintro rfl
  · refine ⟨_, exec_hostFeedDoorbell_ok hreach rfl hok.symm, ?_, ?_, (setFeed_keeps _ _ _).mono (by simp)⟩
    · exact (congrArg (fun h : HostFeed => h.tail.toNat) (setFeed_feed _ _ _)).trans (toNat_index v)
    · rw [State.setFeed, State.fn_setFn]
  · exact ⟨exec_hostFeedDoorbell_bad hreach rfl hok.symm, congrArg (fun h : HostFeed => h.tail.toNat) (accessError_feed s fn)⟩

end

/-- The exception ring is the physical function's. -/
theorem excTail_write {s : State} (v : Word) (hreach : s.hostReach 0 = true) {ok : Bool}
    (hok : ok = consumerOk s.excSize s.ing.excTail.toNat (v.toNat % 65536) s.ing.excHead.toNat) :
    (ok = true → IndexMoves s 0 (.excTailWrite 0 v) (fun t => t.ing.excTail.toNat) (v.toNat % 65536)) ∧
      (ok = false → IndexRefused s 0 (.excTailWrite 0 v) (fun t => t.ing.excTail.toNat)) := by
  refine ⟨?_, ?_⟩ <;> rintro rfl
  · exact ⟨_, exec_excTailWrite_ok v hreach hok.symm, toNat_index v, rfl, (setIng_keeps s _).mono (by simp)⟩
  · exact ⟨exec_excTailWrite_bad v hreach hok.symm,
      congrArg (fun x : Ing => x.excTail.toNat) (accessError_keeps s 0 .ing (by decide))⟩

/-- A write of one of the six indices moves it where R496 allows the value, and is refused where not. -/
theorem indexWrite_moves_or_refused {s : State} {fn new : Nat} {v : Word} {i : Instr} {ok : Bool} {idx : State → Nat}
    (hreach : s.hostReach fn = true) (h : IndexWrite s fn v i ok idx new) :
    (ok = true → IndexMoves s fn i idx new) ∧ (ok = false → IndexRefused s fn i idx) := by
  rcases h with ⟨ch, rfl, hown, rfl, rfl, hok⟩ | ⟨rfl, rfl, rfl, hok⟩ | ⟨rfl, rfl, rfl, rfl, hok⟩ | ⟨r, hr, rfl, rfl, rfl, hok⟩ |
    ⟨r, hr, rfl, rfl, rfl, hok⟩ | ⟨rfl, rfl, rfl, hok⟩
  · exact crecTail_write v hreach hown hok
  · exact erlRingTail_write v hreach hok
  · exact excTail_write v hreach hok
  · exact oqCidx_write v hreach hr hok
  · exact sqTail_write v hreach hr hok
  · exact feedTail_write v hreach hok

/-- Settles O49: each of the six writes moves its index or is an access error, and an access error leaves every ring. -/
theorem ringIndicesMoveForwardOnly : Obligations.RingIndicesMoveForwardOnly := by
  intro s fn new v i ok idx hreach h
  obtain ⟨hmoves, hrefused⟩ := indexWrite_moves_or_refused hreach h
  exact ⟨hmoves, fun hbad => (hrefused hbad).effect⟩

end Sys2Proof.Machine
end

section
/-!
A reset of the physical function resets every other function after it (R504): what a virtual function's reset still sends in the
name of the physical one then reaches registers already reset.
-/
namespace Sys2Proof.Machine
open Sys2Proof

/-- A command of the physical function's driver, with MSIX set for vector 0. -/
def foreignCommand : Cmd :=
  { tag := 0, issuer := .driver 0
    desc := { opcode := 0, flags := 8, spaces := 0, res3 := 0, tally := 768, vector := 0, src := 0x1000, dst := 0x2000, len := 64
              tagId := 7, arg := List.replicate 24 0, waitTally := 0, peer := 0, waitValue := 0 }
    tally := 768, todo := [], pages := [], resultLen := 0, info := 0, status := 0, unpublished := false, heldRecord := false
    engine := none, ctxOut := none, fate := none, waitPeer := false }

/-- Virtual function 1 in being, its channel 0 with that command started. -/
def foreignStarted : State :=
  { State.reset with
    sup := { mstate := .run }
    hst := { linkUp := true, numVfs := 1, vfEnable := true }
    rtv := { chans := [(0, { mode := 2, func := 1, started := [foreignCommand] })] } }

theorem foreignStarted_exec : exec (.functionLevelReset 0) foreignStarted = .next foreignStarted.resetFunctions := by
  have hreach : foreignStarted.hostReach 0 = true := by decide
  simp [exec, execFunctionLevelReset, hreach]

theorem foreignStarted_pends :
    (Tab.find? (foreignStarted.resetFunctions.fn 0).hst.vectors 0).map Vector.pendingBit = some true := by
  decide +kernel

/-- Refutes O13: a function-level reset of the physical function resets its registers before it resets the virtual functions, whose
driver commands it cancels; one of them that the physical function's driver issued ends with that function's message, which leaves
a pending bit in its MSI-X table. (R285 keeps a channel's owner while it runs, so that no sequence of commands leads to the state;
the statement asks for every state.) -/
theorem not_linkResetsHoldAndWarmReset : ¬ Obligations.LinkResetsHoldAndWarmReset := by
  rintro ⟨hlink, -⟩
  obtain ⟨hreset, -⟩ := hlink foreignStarted
  obtain ⟨t, hexec, hfn, -⟩ := hreset 0 (by decide)
  have ht : foreignStarted.resetFunctions = t := Host.Outcome.next.inj (foreignStarted_exec.symm.trans hexec)
  have hpends := foreignStarted_pends
  rw [ht, hfn] at hpends
  exact absurd hpends (by decide)

end Sys2Proof.Machine
end

section
/-!
What stands under a command: the queue, the time, the fuses but for the SV floor, and the lock, the window and the entries of
the Cadastre. Each operation of the model leaves them, in the order of its modules; the commands of which that is not so (the
resets, and boot code while the window is open) are the subject of the section after this one.
-/
namespace Sys2Proof.Machine
open Sys2Proof

/-- What no command changes but a reset, and boot code while the window is open. -/
structure Standing where
  pending : List Instr
  now : Nat
  fuses : Fuses
  locked : Bool
  windowOpen : Bool
  entries : List CadEntry

def State.standing (s : State) : Standing :=
  ⟨s.pending, s.now, { s.fuses with svFloor := 0 }, s.cad.locked, s.cad.windowOpen, s.cad.entries⟩

/-- A change of any part that holds nothing of what stands. -/
theorem standing_update (e : State) (fc : Nat) (out : List Out) (pins : Pins) (sup : Sup) (erl : Erl) (fb : FieldBook)
    (hnd : Hnd) (mem : Mem) (fab : Fab) (svy : Svy) (hrd : Hrd) (rtv : Rtv) (sys : Sys) (ec : Ec) (dce : Dce) (ing : Ing)
    (hst : Hst) (pck : Pck) (thm : Thm) (fns : Tab Fn) :
    State.standing ⟨e.pending, e.now, fc, out, e.fuses, pins, sup, erl, fb, hnd, e.cad, mem, fab, svy, hrd, rtv, sys, ec, dce,
      ing, hst, pck, thm, fns⟩ = e.standing := rfl

/-- A field of the Cadastre other than the lock, the window and the entries is none of what stands. -/
theorem standing_cad_update (e : State) (c : Cad) (fc : Nat) (out : List Out) (pins : Pins) (sup : Sup) (erl : Erl)
    (fb : FieldBook) (hnd : Hnd) (mem : Mem) (fab : Fab) (svy : Svy) (hrd : Hrd) (rtv : Rtv) (sys : Sys) (ec : Ec) (dce : Dce)
    (ing : Ing) (hst : Hst) (pck : Pck) (thm : Thm) (fns : Tab Fn) (hl : c.locked = e.cad.locked)
    (hw : c.windowOpen = e.cad.windowOpen) (he : c.entries = e.cad.entries) :
    State.standing ⟨e.pending, e.now, fc, out, e.fuses, pins, sup, erl, fb, hnd, c, mem, fab, svy, hrd, rtv, sys, ec, dce, ing,
      hst, pck, thm, fns⟩ = e.standing := by
  simp only [State.standing, hl, hw, he]

@[simp] theorem standing_ite (c : Prop) [Decidable c] (a b : State) :
    (if c then a else b).standing = if c then a.standing else b.standing := apply_ite _ _ _ _

@[simp] theorem foldl_standing {α : Type} (g : State → α → State) (h : ∀ t a, (g t a).standing = t.standing) (l : List α)
    (s : State) : (l.foldl g s).standing = s.standing := by
  induction l generalizing s with
  | nil => rfl
  | cons a l ih => rw [List.foldl_cons, ih, h]

/-- A command ends in a next state, under which all of it stands. -/
def Goes (o : Host.Outcome State Fault Refusal) (s : State) : Prop := ∃ t, o = .next t ∧ t.standing = s.standing
@[simp] theorem goes_next (t s : State) : Goes (.next t) s ↔ t.standing = s.standing := by simp [Goes]

/-! ### Machine/Ops -/

@[simp] theorem setFn_standing (s : State) (f : Nat) (x : Fn) : (s.setFn f x).standing = s.standing := by rfl

@[simp] theorem modFn_standing (s : State) (f : Nat) (g : Fn → Fn) : (s.modFn f g).standing = s.standing := by rfl

@[simp] theorem setCtx_standing (s : State) (c : Nat) (x : Ctx) : (s.setCtx c x).standing = s.standing := by rfl

@[simp] theorem modCtx_standing (s : State) (c : Nat) (g : Ctx → Ctx) : (s.modCtx c g).standing = s.standing := by rfl

@[simp] theorem setCore_standing (s : State) (c : Nat) (x : Core) : (s.setCore c x).standing = s.standing := by rfl

@[simp] theorem modCore_standing (s : State) (c : Nat) (g : Core → Core) : (s.modCore c g).standing = s.standing := by rfl

@[simp] theorem setRoute_standing (s : State) (r : Nat) (x : Route) : (s.setRoute r x).standing = s.standing := by rfl

@[simp] theorem dropRoute_standing (s : State) (r : Nat) : (s.dropRoute r).standing = s.standing := by rfl

@[simp] theorem setQuarter_standing (s : State) (q : Nat) (x : Quarter) : (s.setQuarter q x).standing = s.standing := by rfl

@[simp] theorem modQuarter_standing (s : State) (q : Nat) (g : Quarter → Quarter) :
    (s.modQuarter q g).standing = s.standing := by rfl

@[simp] theorem setSlot_standing (s : State) (n : Nat) (x : Slot) : (s.setSlot n x).standing = s.standing := by rfl

@[simp] theorem setChan_standing (s : State) (n : Nat) (x : Chan) : (s.setChan n x).standing = s.standing := by rfl

@[simp] theorem modChan_standing (s : State) (n : Nat) (g : Chan → Chan) : (s.modChan n g).standing = s.standing := by rfl

@[simp] theorem setEcEngine_standing (s : State) (n : Nat) (x : EcEngine) : (s.setEcEngine n x).standing = s.standing :=
    by rfl

@[simp] theorem setDceEngine_standing (s : State) (n : Nat) (x : DceEngine) :
    (s.setDceEngine n x).standing = s.standing := by rfl

@[simp] theorem setPort_standing (s : State) (p : Nat) (x : Port) : (s.setPort p x).standing = s.standing := by rfl

@[simp] theorem setStream_standing (s : State) (n : Nat) (x : Stream) : (s.setStream n x).standing = s.standing := by rfl

@[simp] theorem modStream_standing (s : State) (n : Nat) (g : Stream → Stream) :
    (s.modStream n g).standing = s.standing := by rfl

@[simp] theorem setDecoder_standing (s : State) (n : Nat) (x : Decoder) : (s.setDecoder n x).standing = s.standing := by rfl

@[simp] theorem setLink_standing (s : State) (p : Nat) (x : PckPort) : (s.setLink p x).standing = s.standing := by rfl

@[simp] theorem modLink_standing (s : State) (p : Nat) (g : PckPort → PckPort) : (s.modLink p g).standing = s.standing :=
    by rfl

@[simp] theorem setJob_standing (s : State) (j : Nat) (x : Job) : (s.setJob j x).standing = s.standing := by rfl

@[simp] theorem modJob_standing (s : State) (j : Nat) (g : Job → Job) : (s.modJob j g).standing = s.standing := by rfl

@[simp] theorem setSq_standing (s : State) (f r : Nat) (x : Sq) : (s.setSq f r x).standing = s.standing := by rfl

@[simp] theorem setOq_standing (s : State) (f r : Nat) (x : Oq) : (s.setOq f r x).standing = s.standing := by rfl

@[simp] theorem setThmUnit_standing (s : State) (u : Nat) (x : ThmUnit) : (s.setThmUnit u x).standing = s.standing := by rfl

@[simp] theorem emit_standing (s : State) (o : Out) : (s.emit o).standing = s.standing := by rfl

@[simp] theorem emitIf_standing (s : State) (b : Bool) (o : Out) : (s.emitIf b o).standing = s.standing := by
  simp [State.emitIf]

@[simp] theorem takeFree_standing (s : State) : s.takeFree.standing = s.standing := by rfl

@[simp] theorem writeTile_standing (s : State) (a : Nat) (d : List Byte) : (s.writeTile a d).standing = s.standing := by rfl

@[simp] theorem writeDev_standing (s : State) (a : Nat) (d : List Byte) : (s.writeDev a d).standing = s.standing := by rfl

@[simp] theorem write_standing (s : State) (a : Nat) (d : List Byte) : (s.write a d).standing = s.standing := by
  simp [State.write]

@[simp] theorem dropLines_standing (s : State) (p : Nat → Bool) : (s.dropLines p).standing = s.standing := by rfl

@[simp] theorem invalidate_standing (s : State) (ps : List Nat) : (s.invalidate ps).standing = s.standing := by
  simp [State.invalidate]

@[simp] theorem dropCaches_standing (s : State) : s.dropCaches.standing = s.standing := by rfl

@[simp] theorem streamRead_standing (s : State) (q : Nat) (isVolatile : Bool) (a n : Nat) :
    (s.streamRead q isVolatile a n).2.standing = s.standing := by
  unfold State.streamRead; split <;> simp [↓standing_update]

@[simp] theorem setTally_standing (s : State) (k : Nat) (v : Word) : (s.setTally k v).standing = s.standing := by rfl

@[simp] theorem incTally_standing (s : State) (k : Nat) : (s.incTally k).standing = s.standing := by rfl

@[simp] theorem msix_standing (s : State) (f v : Nat) : (s.msix f v).standing = s.standing := by simp [State.msix]

@[simp] theorem hostWrite_standing (s : State) (f a : Nat) (d : List Byte) : (s.hostWrite f a d).standing = s.standing := by
  simp [State.hostWrite]

/-! ### Machine/Report -/

@[simp] theorem platformEvent_standing (s : State) (cls : Nat) (body : List Byte) :
    (s.platformEvent cls body).standing = s.standing := by
  unfold State.platformEvent; split <;> simp [↓standing_update]

@[simp] theorem raiseAlert_standing (s : State) (bits : Nat) : (s.raiseAlert bits).standing = s.standing := by
  simp [State.raiseAlert, ↓standing_update]

@[simp] theorem dropAlert_standing (s : State) (bits : Nat) : (s.dropAlert bits).standing = s.standing := by rfl

@[simp] theorem raiseReplace_standing (s : State) (bits : Nat) : (s.raiseReplace bits).standing = s.standing := by
  simp [State.raiseReplace, ↓standing_update]

@[simp] theorem ringPut_standing (s : State) (f : Nat) (r : Rec) : (s.ringPut f r).standing = s.standing := by
  unfold State.ringPut; split <;> simp

@[simp] theorem fieldBookPut_standing (s : State) (cls : ErrClass) (r : Rec) :
    (s.fieldBookPut cls r).standing = s.standing := by
  simp [State.fieldBookPut, ↓standing_update]

@[simp] theorem countDenial_standing (s : State) (cls page : Nat) (write : Bool) :
    (State.countDenial s cls page write).2.standing = s.standing := rfl

@[simp] theorem raiseFor_standing (s : State) (e : Ev) : (s.raiseFor e).standing = s.standing := by
  simp [State.raiseFor]

theorem ringStep_standing (rep : Ev → State → State) (hrep : ∀ e s, (rep e s).standing = s.standing) (r : Rec) (t : State)
    (f : Nat) :
    (ringStep rep r t f).standing = t.standing := by
  unfold ringStep; dsimp only; (repeat' split) <;> simp [hrep]

@[simp] theorem reportWith_standing (n : Nat) : ∀ (e : Ev) (s : State), (reportWith n e s).standing = s.standing := by
  induction n with
  | zero => exact fun _ _ => rfl
  | succ n ih =>
    intro e s
    have hrings : ∀ (r : Rec) (t : State), (e.rings.foldl (ringStep (reportWith n) r) t).standing = t.standing :=
      fun r t => foldl_standing _ (ringStep_standing _ ih r) _ t
    unfold reportWith
    dsimp only
    split <;> (try split) <;> simp [↓standing_update, hrings]

@[simp] theorem smbusSettled_standing (s old : State) : (s.smbusSettled old).standing = s.standing := by
  simp [State.smbusSettled]

@[simp] theorem toState_standing (s : State) (m : ModState) : (s.toState m).standing = s.standing := by
  simp [State.toState, ↓standing_update]

@[simp] theorem loseRails_standing (s : State) : s.loseRails.standing = s.standing := by rfl

@[simp] theorem enterHold_standing (s : State) (cause : Nat) : (s.enterHold cause).standing = s.standing := by
  simp [State.enterHold, ↓standing_update]

@[simp] theorem countFatal_standing (s : State) : s.countFatal.standing = s.standing := by
  simp [State.countFatal, ↓standing_update]

@[simp] theorem report_standing (s : State) (e : Ev) : (s.report e).standing = s.standing := by
  unfold State.report; dsimp only; (repeat' split) <;> simp [↓standing_update]

@[simp] theorem deny_standing (s : State) (cls page : Nat) (write : Bool) (c : ErrClass) (f ctx frame : Option Nat) :
    (s.deny cls page write c f ctx frame).standing = s.standing := by
  simp [State.deny]

@[simp] theorem lockedRecord_standing (s : State) (blk : Block) (nn f off value : Nat) :
    (s.lockedRecord blk nn f off value).standing = s.standing := by
  simp [State.lockedRecord]

@[simp] theorem accessError_standing (s : State) (f : Nat) : (s.accessError f).standing = s.standing := by
  simp [State.accessError]

@[simp] theorem countUe_standing (s : State) (quarter : Nat) : (s.countUe quarter).standing = s.standing := by rfl

@[simp] theorem memError_standing (s : State) (nn g source : Nat) (newly : Bool) (e : Ev) :
    (s.memError nn g source newly e).standing = s.standing := by
  simp [State.memError, ↓standing_update]

/-! ### Machine/PackBase -/

@[simp] theorem sendLink_standing (s : State) (port vc : Nat) (o : Out) : (s.sendLink port vc o).standing = s.standing := by
  simp [State.sendLink]

@[simp] theorem drainChan_standing (port : Nat) (s : State) (vc : Nat) :
    (State.drainChan port s vc).standing = s.standing := by
  simp [State.drainChan, ↓standing_update]

@[simp] theorem drainLink_standing (s : State) (port : Nat) : (s.drainLink port).standing = s.standing := by
  simp [State.drainLink]

@[simp] theorem returnCredits_standing (s : State) (port : Nat) : (s.returnCredits port).standing = s.standing := by
  simp [State.returnCredits]

@[simp] theorem sendControl_standing (s : State) (port : Nat) (m : LinkMsg) :
    (s.sendControl port m).standing = s.standing := by
  simp [State.sendControl]

@[simp] theorem sendMember_standing (s : State) (member : Nat) (returns : Bool) (o : Out) :
    (s.sendMember member returns o).standing = s.standing := by
  unfold State.sendMember; split <;> simp

@[simp] theorem toParent_standing (s : State) (m : LinkMsg) : (s.toParent m).standing = s.standing := by
  unfold State.toParent; split <;> simp

@[simp] theorem toChildren_standing (s : State) (m : LinkMsg) : (s.toChildren m).standing = s.standing := by
  simp [State.toChildren]

@[simp] theorem pckReport_standing (s : State) (nn : Nat) (u : UnitRef) (ctx frame : Option Nat) :
    (s.pckReport nn u ctx frame).standing = s.standing := by
  simp [State.pckReport, ↓standing_update]

@[simp] theorem pckFail_standing (s : State) (nn member port : Nat) (ctx frame : Option Nat) :
    (s.pckFail nn member port ctx frame).standing = s.standing := by
  simp [State.pckFail, ↓standing_update]

/-! ### Machine/OutRings -/

@[simp] theorem ringWrite_standing (s : State) (f : Nat) (host : Bool) (a : Nat) (d : List Byte) :
    (s.ringWrite f host a d).standing = s.standing := by
  simp [State.ringWrite]

@[simp] theorem oqInterrupt_standing (s : State) (f r : Nat) : (s.oqInterrupt f r).standing = s.standing := by
  simp [State.oqInterrupt]

@[simp] theorem copyPublished_standing (s : State) (copy : Option (Nat × Nat)) :
    (s.copyPublished copy).standing = s.standing := by
  unfold State.copyPublished; split <;> simp

@[simp] theorem copyFails_standing (s : State) (copy : Option (Nat × Nat)) : (s.copyFails copy).standing = s.standing := by
  unfold State.copyFails; split <;> simp

@[simp] theorem oqPlace_standing (s : State) (f r : Nat) (e : OqEntry) : (s.oqPlace f r e).standing = s.standing := by
  unfold State.oqPlace; dsimp only; (repeat' split) <;> simp

@[simp] theorem oqPush_standing (s : State) (f r : Nat) (lossy : Bool) (e : OqEntry) :
    (s.oqPush f r lossy e).standing = s.standing := by
  simp [State.oqPush]

@[simp] theorem oqDrain_standing (f r n : Nat) (s : State) : (s.oqDrain f r n).standing = s.standing := by
  induction n generalizing s with
  | zero => rfl
  | succ n ih => unfold State.oqDrain; dsimp only; (repeat' split) <;> simp [ih]

/-! ### Machine/Frames -/

@[simp] theorem modHead_standing (s : State) (c : Nat) (g : Frame → Frame) : (s.modHead c g).standing = s.standing := by rfl

@[simp] theorem modRun_standing (s : State) (c : Nat) (g : FrameRun → FrameRun) : (s.modRun c g).standing = s.standing :=
    by rfl

@[simp] theorem modUnit_standing (s : State) (c u : Nat) (g : UnitRun → UnitRun) :
    (s.modUnit c u g).standing = s.standing := by rfl

@[simp] theorem schedule_standing (s : State) (core : Nat) : (s.schedule core).standing = s.standing := by
  unfold State.schedule; (repeat' split) <;> simp

@[simp] theorem scheduleAll_standing (s : State) (cores : List Nat) : (s.scheduleAll cores).standing = s.standing := by
  simp [State.scheduleAll]

@[simp] theorem modStat_standing (s : State) (fn c : Nat) (g : CtxStat → CtxStat) :
    (s.modStat fn c g).standing = s.standing := by rfl

@[simp] theorem putRecord_standing (s : State) (c : Nat) (f : Frame) (k flags code : Nat) :
    (s.putRecord c f k flags code).standing = s.standing := by
  unfold State.putRecord; dsimp only; split <;> simp

@[simp] theorem putUnit_standing (s : State) (c : Nat) (unit : List Byte) (g : StreamOut → StreamOut) :
    (s.putUnit c unit g).standing = s.standing := by rfl

@[simp] theorem putMarker_standing (s : State) (c : Nat) (m : Nat × Nat × DWord) :
    (s.putMarker c m).standing = s.standing := by
  simp [State.putMarker]

@[simp] theorem flushMarkers_standing (s : State) (c : Nat) (all : Bool) :
    (s.flushMarkers c all).standing = s.standing := by
  simp [State.flushMarkers]

@[simp] theorem loseUnit_standing (s : State) (c : Nat) (f : Frame) (code : Nat) :
    (s.loseUnit c f code).standing = s.standing := by
  simp [State.loseUnit]

@[simp] theorem putFrameUnit_standing (s : State) (c : Nat) (f : Frame) (p : StreamParts) :
    (s.putFrameUnit c f p).standing = s.standing := by
  simp [State.putFrameUnit]

@[simp] theorem putEnd_standing (s : State) (c : Nat) : (s.putEnd c).standing = s.standing := by simp [State.putEnd]

@[simp] theorem tellPeer_standing (s : State) (k : Cmd) : (s.tellPeer k).standing = s.standing := by
  unfold State.tellPeer; split <;> simp

@[simp] theorem dropCommands_standing (s : State) (c no : Nat) : (s.dropCommands c no).standing = s.standing := by
  simp [State.dropCommands, ↓standing_update]

@[simp] theorem reportCancelled_standing (s : State) (c no : Nat) (x : Nat × Nat × Nat) :
    (s.reportCancelled c no x).standing = s.standing := by
  simp [State.reportCancelled]

@[simp] theorem dropEntries_standing (s : State) (c no : Nat) : (s.dropEntries c no).standing = s.standing := by rfl

@[simp] theorem mapRoutes_standing (s : State) (c : Nat) (g : Route → Route) : (s.mapRoutes c g).standing = s.standing :=
    by rfl

@[simp] theorem quiesceRoutes_standing (s : State) (c : Nat) : (s.quiesceRoutes c).standing = s.standing := by rfl

@[simp] theorem cancelRun_standing (s : State) (c : Nat) (record : Bool) :
    (s.cancelRun c record).standing = s.standing := by
  unfold State.cancelRun; split <;> simp

@[simp] theorem stopRun_standing (s : State) (c : Nat) (record : Bool) : (s.stopRun c record).standing = s.standing := by
  unfold State.stopRun; split <;> simp

@[simp] theorem startAudit_standing (s : State) (q rid : Nat) (driver : Bool) :
    (s.startAudit q rid driver).standing = s.standing := by
  unfold State.startAudit; split <;> simp

@[simp] theorem nextAudit_standing (s : State) (q : Nat) : (s.nextAudit q).standing = s.standing := by
  unfold State.nextAudit; dsimp only; (repeat' split) <;> simp

@[simp] theorem kickAudits_standing (s : State) : s.kickAudits.standing = s.standing := by
  simp [State.kickAudits]

@[simp] theorem abandonAudit_standing (s : State) (q : Nat) : (s.abandonAudit q).standing = s.standing := by
  unfold State.abandonAudit; split <;> simp

@[simp] theorem abandonAudits_standing (s : State) (p : Nat → Bool) : (s.abandonAudits p).standing = s.standing := by
  simp [State.abandonAudits]

@[simp] theorem loseOne_standing (s : State) (c no code : Nat) : (s.loseOne c no code).standing = s.standing := by
  unfold State.loseOne; split <;> simp [↓standing_update]

@[simp] theorem loseUnheld_standing (s : State) (c : Nat) (f : Frame) (code : Nat) :
    (s.loseUnheld c f code).standing = s.standing := by
  simp [State.loseUnheld, ↓standing_update]

@[simp] theorem loseAll_standing (s : State) (c code : Nat) : (s.loseAll c code).standing = s.standing := by
  simp [State.loseAll]

@[simp] theorem hrdReport_standing (s : State) (c nn : Nat) (frame : Option Nat) :
    (s.hrdReport c nn frame).standing = s.standing := by
  simp [State.hrdReport]

@[simp] theorem beginEnd_standing (s : State) (c : Nat) : (s.beginEnd c).standing = s.standing := by
  simp [State.beginEnd]

@[simp] theorem endInstance_standing (s : State) (c code : Nat) : (s.endInstance c code).standing = s.standing := by
  simp [State.endInstance]

@[simp] theorem endSilently_standing (s : State) (c : Nat) : (s.endSilently c).standing = s.standing := by
  simp [State.endSilently]

@[simp] theorem failPuts_standing (s : State) (c : Nat) : (s.failPuts c).standing = s.standing := by
  unfold State.failPuts; split <;> simp

@[simp] theorem abortJob_standing (s : State) (j : Nat) (e : Err) : (s.abortJob j e).standing = s.standing := by
  simp [State.abortJob, ↓standing_update]

@[simp] theorem packLoss_standing (s : State) (c no code : Nat) : (s.packLoss c no code).standing = s.standing := by
  unfold State.packLoss; split <;> simp

@[simp] theorem loseFrame_standing (s : State) (c no code : Nat) : (s.loseFrame c no code).standing = s.standing := by
  simp [State.loseFrame]

@[simp] theorem faultFrame_standing (s : State) (c : Nat) (e : Ev) (root : Err) :
    (s.faultFrame c e root).standing = s.standing := by
  unfold State.faultFrame; split <;> simp

@[simp] theorem restartFrame_standing (s : State) (c : Nat) : (s.restartFrame c).standing = s.standing := by
  unfold State.restartFrame; split <;> simp [↓standing_update]

@[simp] theorem killInstance_standing (s : State) (c code : Nat) : (s.killInstance c code).standing = s.standing := by
  unfold State.killInstance; dsimp only; split <;> simp

@[simp] theorem suspendCheck_standing (s : State) : s.suspendCheck.standing = s.standing := by rfl

@[simp] theorem serviceCheck_standing (s : State) (before : Nat) : (s.serviceCheck before).standing = s.standing := by
  simp [State.serviceCheck, ↓standing_update]

@[simp] theorem recordFence_standing (s : State) (core : Nat) (cause : FenceCause) :
    (s.recordFence core cause).standing = s.standing := by
  simp [State.recordFence, ↓standing_update]

@[simp] theorem fenceCore_standing (s : State) (core : Nat) (cause : FenceCause) :
    (s.fenceCore core cause).standing = s.standing := by
  simp [State.fenceCore, ↓standing_update]

/-! ### Machine/FieldBook -/

@[simp] theorem movePending_standing (s : State) : s.movePending.standing = s.standing := by
  simp [State.movePending, ↓standing_update]

@[simp] theorem readFieldBook_standing (s : State) : s.readFieldBook.standing = s.standing := by
  unfold State.readFieldBook; split <;> simp [↓standing_update]

@[simp] theorem flashWrite_standing (s : State) (failed : Nat) (good lost : FieldBook) :
    (s.flashWrite failed good lost).standing = s.standing := by
  simp [State.flashWrite, ↓standing_update]

@[simp] theorem execFieldBookPeriodicWrite_goes (failed : Nat) (s : State) :
    Goes (execFieldBookPeriodicWrite failed s) s := by
  simp [execFieldBookPeriodicWrite]

@[simp] theorem execFieldBookAppend_goes (failed : Nat) (s : State) : Goes (execFieldBookAppend failed s) s := by
  unfold execFieldBookAppend; split <;> simp

/-! ### Machine/Units -/

@[simp] theorem putTile_standing (s : State) (x : UnitRun) (off : Nat) (d : List Byte) :
    (s.putTile x off d).standing = s.standing := by
  simp [State.putTile]

@[simp] theorem block_standing (s : State) (c : Nat) (x : UnitRun) (b : Blocked) :
    (s.block c x b).standing = s.standing := by
  simp [State.block]

@[simp] theorem unblock_standing (s : State) (c : Nat) (x : UnitRun) (g : UnitRun → UnitRun) :
    (s.unblock c x g).standing = s.standing := by
  simp [State.unblock]

@[simp] theorem nextAge_standing (s : State) : s.nextAge.standing = s.standing := by rfl

@[simp] theorem unitFault_standing (s : State) (c : Nat) (x : UnitRun) (blk : Block) (nn : Nat) :
    (s.unitFault c x blk nn).standing = s.standing := by
  simp [State.unitFault]

/-! ### Machine/Cores -/

@[simp] theorem instTally_standing (s : State) (c n : Nat) : (s.instTally c n).2.standing = s.standing := by
  unfold State.instTally; split <;> simp

@[simp] theorem granuleLoss_standing (s : State) (c : Nat) (unit : UnitRef) (b : Nat × Bool × Nat) :
    (s.granuleLoss c unit b).standing = s.standing := by
  unfold State.granuleLoss; split <;> simp

@[simp] theorem execReachLoad_goes (ctx unit addr len : Nat) (isVolatile : Bool) (ue : UeList) (s : State) :
    Goes (execReachLoad ctx unit addr len isVolatile ue s) s := by
  unfold execReachLoad; dsimp only; (repeat' split) <;> simp

@[simp] theorem execReachLoadReturn_goes (ctx unit : Nat) (ue : UeList) (s : State) :
    Goes (execReachLoadReturn ctx unit ue s) s := by
  unfold execReachLoadReturn; (repeat' split) <;> simp

@[simp] theorem execTallyWait_goes (ctx unit tally : Nat) (target : Word) (s : State) :
    Goes (execTallyWait ctx unit tally target s) s := by
  unfold execTallyWait; dsimp only; (repeat' split) <;> simp

@[simp] theorem execTallyWaitRelease_goes (ctx unit : Nat) (s : State) : Goes (execTallyWaitRelease ctx unit s) s := by
  unfold execTallyWaitRelease; (repeat' split) <;> simp

@[simp] theorem execUnitEnd_goes (ctx unit : Nat) (s : State) : Goes (execUnitEnd ctx unit s) s := by
  unfold execUnitEnd; (repeat' split) <;> simp

@[simp] theorem execCoreEccCorrected_goes (core : Nat) (s : State) : Goes (execCoreEccCorrected core s) s := by
  simp [execCoreEccCorrected]

@[simp] theorem execCoreCacheParityError_goes (core addr : Nat) (s : State) :
    Goes (execCoreCacheParityError core addr s) s := by
  unfold execCoreCacheParityError; dsimp only; split <;> simp

@[simp] theorem execCoreFatalError_goes (core : Nat) (s : State) : Goes (execCoreFatalError core s) s := by
  simp [execCoreFatalError]

@[simp] theorem execCoreWatchdogExpiry_goes (core : Nat) (s : State) : Goes (execCoreWatchdogExpiry core s) s := by
  simp [execCoreWatchdogExpiry]

@[simp] theorem execFenceCancelDone_goes (core : Nat) (s : State) : Goes (execFenceCancelDone core s) s := by
  simp [execFenceCancelDone]

@[simp] theorem execDriverFence_goes (fn : Nat) (s : State) : Goes (execDriverFence fn s) s := by
  simp [execDriverFence]

@[simp] theorem nextTest_standing (s : State) : s.nextTest.standing = s.standing := by
  unfold State.nextTest; split <;> simp

@[simp] theorem execUnfenceRequest_goes (fn : Nat) (s : State) : Goes (execUnfenceRequest fn s) s := by
  unfold execUnfenceRequest; dsimp only; split <;> simp [↓standing_update]

@[simp] theorem liftFence_standing (s : State) (core : Nat) : (s.liftFence core).standing = s.standing := by
  simp [State.liftFence, ↓standing_update]

@[simp] theorem execExtendedTestDone_goes (core : Nat) (pass : Bool) (s : State) :
    Goes (execExtendedTestDone core pass s) s := by
  unfold execExtendedTestDone; split <;> simp [↓standing_update]

/-! ### Machine/Fabric -/

@[simp] theorem moved_standing (s : State) (c : Nat) : (s.moved c).standing = s.standing := by rfl

@[simp] theorem orderFault_standing (s : State) (c : Nat) (f : Frame) (u : UnitRun) :
    (s.orderFault c f u).standing = s.standing := by
  simp [State.orderFault, ↓standing_update]

@[simp] theorem sendOn_standing (s : State) (rid : Nat) (x : Route) (d : List Byte) :
    (s.sendOn rid x d).standing = s.standing := by
  unfold State.sendOn; dsimp only; (repeat' split) <;> simp

@[simp] theorem execRouteSend_goes (ctx unit port : Nat) (src : Src) (len : Nat) (s : State) :
    Goes (execRouteSend ctx unit port src len s) s := by
  unfold execRouteSend; (repeat' split) <;> simp

@[simp] theorem execBlockedSendProceed_goes (route : Nat) (s : State) : Goes (execBlockedSendProceed route s) s := by
  unfold execBlockedSendProceed; (repeat' split) <;> simp

@[simp] theorem auditFailure_standing (s : State) (rid nn : Nat) (x : Route) (leash : Nat) :
    (s.auditFailure rid nn x leash).standing = s.standing := by
  simp [State.auditFailure]

@[simp] theorem sendLeashes_standing (s : State) (rid : Nat) (x : Route) (n : Nat) :
    (s.sendLeashes rid x n).standing = s.standing := by
  unfold State.sendLeashes; (repeat' split) <;> simp

@[simp] theorem endAudit_standing (s : State) (q : Nat) (a : Audit) (x : Route) (code : BitVec 2) (sum : Nat) :
    (s.endAudit q a x code sum).standing = s.standing := by
  simp [State.endAudit]

@[simp] theorem compareAudit_standing (s : State) (q : Nat) (a : Audit) (x : Route) (leash : Nat) :
    (s.compareAudit q a x leash).standing = s.standing := by
  simp [State.compareAudit]

@[simp] theorem execMessageArrive_goes (route seq : Nat) (msg : List Byte) (s : State) :
    Goes (execMessageArrive route seq msg s) s := by
  unfold execMessageArrive; dsimp only; (repeat' split) <;> simp

@[simp] theorem readFrom_standing (s : State) (rid : Nat) (x : Route) : (s.readFrom rid x).standing = s.standing := by rfl

@[simp] theorem execRouteRead_goes (ctx unit port : Nat) (s : State) : Goes (execRouteRead ctx unit port s) s := by
  unfold execRouteRead; (repeat' split) <;> simp

@[simp] theorem execBlockedReadProceed_goes (route : Nat) (s : State) : Goes (execBlockedReadProceed route s) s := by
  unfold execBlockedReadProceed; (repeat' split) <;> simp

@[simp] theorem execSlotFree_goes (route : Nat) (s : State) : Goes (execSlotFree route s) s := by
  unfold execSlotFree; (repeat' split) <;> simp

@[simp] theorem execLeashReceive_goes (route : Nat) (s : State) : Goes (execLeashReceive route s) s := by
  unfold execLeashReceive; dsimp only; (repeat' split) <;> simp

@[simp] theorem execAuditPeriodTick_goes (quarter : Nat) (s : State) : Goes (execAuditPeriodTick quarter s) s := by
  unfold execAuditPeriodTick; (repeat' split) <;> simp

@[simp] theorem fabLocked_standing (s : State) (f q off value : Nat) :
    (s.fabLocked f q off value).standing = s.standing := by
  simp [State.fabLocked]

@[simp] theorem execAuditRequest_goes (fn quarter route : Nat) (s : State) :
    Goes (execAuditRequest fn quarter route s) s := by
  unfold execAuditRequest; (repeat' split) <;> simp

@[simp] theorem execAuditDrainDone_goes (drain : AuditDrain) (s : State) : Goes (execAuditDrainDone drain s) s := by
  unfold execAuditDrainDone; (repeat' split) <;> simp

@[simp] theorem execAuditDrainTimeout_goes (drain : AuditDrain) (s : State) : Goes (execAuditDrainTimeout drain s) s := by
  unfold execAuditDrainTimeout; (repeat' split) <;> simp

@[simp] theorem execStallDetected_goes (ctx : Nat) (s : State) : Goes (execStallDetected ctx s) s := by
  unfold execStallDetected; dsimp only; (repeat' split) <;> simp [↓standing_update]

@[simp] theorem execCrossingParityError_goes (route : Nat) (leash : Bool) (s : State) :
    Goes (execCrossingParityError route leash s) s := by
  unfold execCrossingParityError; (repeat' split) <;> simp

@[simp] theorem execRouteReclaimDone_goes (route : Nat) (s : State) : Goes (execRouteReclaimDone route s) s := by
  unfold execRouteReclaimDone; (repeat' split) <;> simp

/-! ### Machine/Survey -/

@[simp] theorem settleSlot_standing (s : State) (n : Nat) : (s.settleSlot n).standing = s.standing := by rfl

@[simp] theorem svyEnd_standing (s : State) (fn slot : Nat) (e : SvyFail) : (s.svyEnd fn slot e).standing = s.standing := by
  simp [State.svyEnd]

@[simp] theorem svyLocked_standing (s : State) (fn off value : Nat) : (s.svyLocked fn off value).standing = s.standing := by
  simp [State.svyLocked, ↓standing_update]

@[simp] theorem svyGo_standing (s : State) (fn slot op value : Nat) : (s.svyGo fn slot op value).standing = s.standing := by
  simp [State.svyGo, ↓standing_update]

@[simp] theorem execLoadRequest_goes (fn slot : Nat) (s : State) : Goes (execLoadRequest fn slot s) s := by
  simp [execLoadRequest]

@[simp] theorem execReplaceRequest_goes (fn slot : Nat) (s : State) : Goes (execReplaceRequest fn slot s) s := by
  simp [execReplaceRequest]

@[simp] theorem execUnloadRequest_goes (fn slot : Nat) (s : State) : Goes (execUnloadRequest fn slot s) s := by
  simp [execUnloadRequest]

@[simp] theorem execInvalidSurveyOp_goes (fn slot : Nat) (s : State) : Goes (execInvalidSurveyOp fn slot s) s := by
  simp [execInvalidSurveyOp]

@[simp] theorem skipReport_standing (s : State) (slot c : Nat) : (s.skipReport slot c).standing = s.standing := by
  simp [State.skipReport, ↓standing_update]

@[simp] theorem loaderGranule_standing (s : State) (fn : Nat) (e : SvyFail) :
    (s.loaderGranule fn e).standing = s.standing := by
  unfold State.loaderGranule; split <;> simp

/-! ### Machine/Whistle -/

@[simp] theorem setWhistle_standing (s : State) (c : Nat) (w : Whistle) : (s.setWhistle c w).standing = s.standing := by rfl

@[simp] theorem abortHere_standing (s : State) (j frame code member : Nat) :
    (s.abortHere j frame code member).standing = s.standing := by
  simp [State.abortHere]

@[simp] theorem masterAbort_standing (s : State) (j frame code member : Nat) :
    (s.masterAbort j frame code member).standing = s.standing := by
  simp [State.masterAbort]

@[simp] theorem releaseFrame_standing (s : State) (j frame : Nat) (t : DWord) :
    (s.releaseFrame j frame t).standing = s.standing := by rfl

@[simp] theorem barrierStep_standing (s : State) (j : Nat) : (s.barrierStep j).standing = s.standing := by
  unfold State.barrierStep; dsimp only; (repeat' split) <;> simp

@[simp] theorem barrierReady_standing (s : State) (c : Nat) : (s.barrierReady c).standing = s.standing := by
  unfold State.barrierReady; split <;> simp

@[simp] theorem execWhistleArrive_goes (port job frame : Nat) (digest : Word) (epochOk : Bool) (differs : Option Nat)
    (members : Nat) (s : State) :
    Goes (execWhistleArrive port job frame digest epochOk differs members s) s := by
  unfold execWhistleArrive; dsimp only; (repeat' split) <;> simp

@[simp] theorem execWhistleRelease_goes (port job frame : Nat) (time : DWord) (s : State) :
    Goes (execWhistleRelease port job frame time s) s := by
  unfold execWhistleRelease; dsimp only; (repeat' split) <;> simp

@[simp] theorem execWhistleReleaseTime_goes (job : Nat) (s : State) : Goes (execWhistleReleaseTime job s) s := by
  unfold execWhistleReleaseTime; dsimp only; split <;> simp

@[simp] theorem execWhistleAbort_goes (port job frame code : Nat) (s : State) :
    Goes (execWhistleAbort port job frame code s) s := by
  unfold execWhistleAbort; split <;> simp

@[simp] theorem execBarrierTimeout_goes (job : Nat) (s : State) : Goes (execBarrierTimeout job s) s := by
  unfold execBarrierTimeout; split <;> simp

@[simp] theorem execArriveTimeout_goes (job : Nat) (s : State) : Goes (execArriveTimeout job s) s := by
  unfold execArriveTimeout; split <;> simp

@[simp] theorem execWhistleFail_goes (port job frame code : Nat) (s : State) :
    Goes (execWhistleFail port job frame code s) s := by
  unfold execWhistleFail; (repeat' split) <;> simp

@[simp] theorem execFailTimeout_goes (job : Nat) (s : State) : Goes (execFailTimeout job s) s := by
  simp [execFailTimeout]

/-! ### Machine/Rng -/

@[simp] theorem rngLocked_standing (s : State) (fn off value : Nat) : (s.rngLocked fn off value).standing = s.standing := by
  simp [State.rngLocked]

@[simp] theorem execRngCompute_goes (fn : Nat) (value : Word) (s : State) : Goes (execRngCompute fn value s) s := by
  unfold execRngCompute; (repeat' split) <;> simp

@[simp] theorem execRngComplete_goes (fn : Nat) (s : State) : Goes (execRngComplete fn s) s := by
  unfold execRngComplete; split <;> simp

/-! ### Machine/Herder -/

@[simp] theorem zeroDev_standing (s : State) (a n : Nat) : (s.zeroDev a n).standing = s.standing := by rfl

@[simp] theorem zeroTile_standing (s : State) (a n : Nat) : (s.zeroTile a n).standing = s.standing := by rfl

@[simp] theorem settleRun_standing (s : State) : s.settleRun.standing = s.standing := by
  unfold State.settleRun; split <;> simp

@[simp] theorem setCtxRegs_standing (s : State) (fn c : Nat) (x : CtxRegs) :
    (s.setCtxRegs fn c x).standing = s.standing := by rfl

@[simp] theorem hrdLocked_standing (s : State) (fn : Nat) (c : Option Nat) (off value : Nat) :
    (s.hrdLocked fn c off value).standing = s.standing := by
  unfold State.hrdLocked; split <;> simp [↓standing_update]

@[simp] theorem takeContext_standing (s : State) (fn c : Nat) (l : Loaded) (t : TmplRec) (base : Nat) :
    (s.takeContext fn c l t base).standing = s.standing := by
  simp [State.takeContext]

@[simp] theorem admitRefused_standing (s : State) (fn c : Nat) (e : Err) :
    (s.admitRefused fn c e).standing = s.standing := by
  simp [State.admitRefused, ↓standing_update]

@[simp] theorem takeRegs_standing (s : State) (fn c : Nat) : (s.takeRegs fn c).standing = s.standing := by
  simp [State.takeRegs]

@[simp] theorem judgeAsk_standing (s : State) (ue : UeList) (fn c : Nat) : (s.judgeAsk ue fn c).standing = s.standing := by
  unfold State.judgeAsk; (repeat' split) <;> simp

@[simp] theorem verdict_standing (s : State) (ue : UeList) (fn c : Nat) : (s.verdict ue fn c).standing = s.standing := by
  simp [State.verdict]

@[simp] theorem execContextAdmit_goes (ask : AdmitArgs) (s : State) : Goes (execContextAdmit ask s) s := by
  unfold execContextAdmit; dsimp only; (repeat' split) <;> simp [↓standing_update]

@[simp] theorem endCleanly_standing (s : State) (c : Nat) : (s.endCleanly c).standing = s.standing := by
  simp [State.endCleanly]

@[simp] theorem execContextEndAfterFrame_goes (fn : Nat) (s : State) : Goes (execContextEndAfterFrame fn s) s := by
  unfold execContextEndAfterFrame; dsimp only; (repeat' split) <;> simp

@[simp] theorem execContextEndNow_goes (fn : Nat) (s : State) : Goes (execContextEndNow fn s) s := by
  unfold execContextEndNow; dsimp only; (repeat' split) <;> simp

@[simp] theorem dropRoutes_standing (s : State) (c : Nat) : (s.dropRoutes c).standing = s.standing := by
  simp [State.dropRoutes, ↓standing_update]

@[simp] theorem freeCtx_standing (s : State) (c : Nat) : (s.freeCtx c).standing = s.standing := by
  unfold State.freeCtx; dsimp only; split <;> simp

@[simp] theorem execContextFreed_goes (ctx : Nat) (s : State) : Goes (execContextFreed ctx s) s := by
  simp [execContextFreed]

@[simp] theorem supply_standing (s : State) (c : Nat) (f : Frame) : (s.supply c f).standing = s.standing := by rfl

@[simp] theorem supplyLost_standing (s : State) (c : Nat) (f : Frame) (code : Nat) :
    (s.supplyLost c f code).standing = s.standing := by
  simp [State.supplyLost]

@[simp] theorem passLost_standing (s : State) (c : Nat) : (s.passLost c).standing = s.standing := by
  simp [State.passLost]

@[simp] theorem arrive_standing (s : State) (c : Nat) (f : Frame) : (s.arrive c f).standing = s.standing := by
  simp [State.arrive]

@[simp] theorem execFrameArrive_goes (ctx : Nat) (s : State) : Goes (execFrameArrive ctx s) s := by
  unfold execFrameArrive; (repeat' split) <;> simp

@[simp] theorem settleAudit_standing (s : State) (rid : Nat) (x : Route) : (s.settleAudit rid x).standing = s.standing := by
  unfold State.settleAudit; split <;> simp

@[simp] theorem putPreloads_standing (s : State) (x : Route) (l : Option LeashRec) :
    (s.putPreloads x l).standing = s.standing := by
  simp [State.putPreloads]

@[simp] theorem layRoutes_standing (s : State) (c : Nat) (f : Frame) (w : Want) (cores : List Nat) :
    (s.layRoutes c f w cores).1.standing = s.standing := by
  have hfold : ∀ {α : Type} (g : State × List Nat → α → State × List Nat) (_ : ∀ p a, (g p a).1.standing = p.1.standing)
      (l : List α)
      (p : State × List Nat), (l.foldl g p).1.standing = p.1.standing := by
    intro α g hg l
    induction l with
    | nil => exact fun _ => rfl
    | cons a l ih => intro p; rw [List.foldl_cons, ih, hg]
  unfold State.layRoutes
  dsimp only
  rw [kickAudits_standing, hfold]
  · simp [↓standing_update]
  · intro p a; (repeat' split) <;> simp

@[simp] theorem passOver_standing (s : State) (ts : List Turn) : (s.passOver ts).standing = s.standing := by
  simp [State.passOver]

@[simp] theorem startFrame_standing (s : State) (c : Nat) (f : Frame) (w : Want) (p : Placement) :
    (s.startFrame c f w p).standing = s.standing := by
  simp [State.startFrame, ↓standing_update]

@[simp] theorem execFrameDispatch_goes (ctx : Nat) (placement : Placement) (s : State) :
    Goes (execFrameDispatch ctx placement s) s := by
  unfold execFrameDispatch; (repeat' split) <;> simp

@[simp] theorem feedDown_standing (s : State) (c : Nat) (f : Frame) : (s.feedDown c f).standing = s.standing := by
  simp [State.feedDown]

@[simp] theorem commit_standing (s : State) (c : Nat) (f : Frame) (r : FrameRun) (parts : StreamParts) :
    (s.commit c f r parts).standing = s.standing := by
  simp [State.commit, ↓standing_update]

@[simp] theorem execFrameCommit_goes (args : CommitArgs) (s : State) : Goes (execFrameCommit args s) s := by
  unfold execFrameCommit; dsimp only; split <;> simp

/-! ### Machine/RtvBase -/

@[simp] theorem fetchBytes_standing (s : State) (q : Nat) (isVolatile : Bool) (p : Place) (n : Nat) (host : List Byte) :
    (s.fetchBytes q isVolatile p n host).2.standing = s.standing := by
  unfold State.fetchBytes; split <;> simp

@[simp] theorem putDest_standing (s : State) (w : Dest × List Byte) : (s.putDest w).standing = s.standing := by
  unfold State.putDest; split <;> simp

@[simp] theorem putCompletion_standing (s : State) (ch fn : Nat) (k : Cmd) (tallyValue : Nat) :
    (s.putCompletion ch fn k tallyValue).standing = s.standing := by
  unfold State.putCompletion; dsimp only; (repeat' split) <;> simp

@[simp] theorem freeTag_standing (s : State) (ch tag : Nat) : (s.freeTag ch tag).standing = s.standing := by rfl

@[simp] theorem cmdMsix_standing (s : State) (k : Cmd) : (s.cmdMsix k).standing = s.standing := by
  simp [State.cmdMsix]

@[simp] theorem endDriver_standing (s : State) (ch fn : Nat) (k : Cmd) : (s.endDriver ch fn k).standing = s.standing := by
  simp [State.endDriver]

@[simp] theorem endUnitCmd_standing (s : State) (ch c : Nat) (k : Cmd) : (s.endUnitCmd ch c k).standing = s.standing := by
  simp [State.endUnitCmd]

@[simp] theorem finishDriver_standing (s : State) (ch fn : Nat) (k : Cmd) :
    (s.finishDriver ch fn k).standing = s.standing := by
  simp [State.finishDriver]

@[simp] theorem completeCmd_standing (s : State) (ch : Nat) (k : Cmd) : (s.completeCmd ch k).standing = s.standing := by
  unfold State.completeCmd; dsimp only; (repeat' split) <;> simp

@[simp] theorem failCmd_standing (s : State) (ch : Nat) (k : Cmd) (nn : Nat) (root : Err) (info : Nat) :
    (s.failCmd ch k nn root info).standing = s.standing := by
  unfold State.failCmd; split <;> simp

@[simp] theorem cancelDriver_standing (s : State) (ch fn : Nat) (k : Cmd) :
    (s.cancelDriver ch fn k).standing = s.standing := by
  simp [State.cancelDriver]

/-! ### Machine/RtvStart -/

@[simp] theorem popHead_standing (s : State) (ch : Nat) (h : UnitHead) (hs : List UnitHead) :
    (s.popHead ch h hs).standing = s.standing := by
  simp [State.popHead]

theorem starting_standing {s : State} {ch op : Nat} {a : StartArgs} {index : List Byte} {x : Starting} {t : State}
    (h : s.starting ch op a index = some (x, t)) : t.standing = s.standing := by
  unfold State.starting at h
  dsimp only at h
  (repeat' split at h) <;> simp_all <;> obtain ⟨-, rfl⟩ := h <;> simp

@[simp] theorem cmdTally_standing (s : State) (i : Issuer) (d : Desc) : (s.cmdTally i d).2.standing = s.standing := by
  unfold State.cmdTally; split <;> simp

@[simp] theorem failStart_standing (s : State) (x : Starting) (nn : Nat) : (s.failStart x nn).standing = s.standing := by
  simp [State.failStart]

@[simp] theorem denyCmd_standing (s : State) (x : Starting) (page : Nat) (write : Bool) :
    (s.denyCmd x page write).standing = s.standing := by
  unfold State.denyCmd; split <;> simp

@[simp] theorem beginWrites_standing (s : State) (ch : Nat) (ue : UeList) (k : Cmd) (ws late : List (Dest × List Byte)) :
    (s.beginWrites ch ue k ws late).1.standing = s.standing := by
  unfold State.beginWrites; dsimp only; (repeat' split) <;> simp

@[simp] theorem launch_standing (s : State) (x : Starting) (k : Cmd) (ws late : List (Dest × List Byte)) :
    (s.launch x k ws late).standing = s.standing := by
  simp [State.launch]

@[simp] theorem Starting.none_standing (x : Starting) (s : State) : (x.none s).st.standing = s.standing := rfl

@[simp] theorem Got.read_standing (g : Got) (x : Starting) (r : Reach) (dst : Nat) :
    (g.read x r dst).st.standing = g.st.standing := by
  unfold Got.read; dsimp only; (repeat' split) <;> simp

@[simp] theorem Got.readAll_standing (g : Got) (x : Starting) (ps : List Piece) :
    (g.readAll x ps).st.standing = g.st.standing := by
  unfold Got.readAll
  induction ps generalizing g with
  | nil => rfl
  | cons p ps ih => rw [List.foldl_cons, ih, Got.read_standing]

@[simp] theorem runMove_standing (s : State) (x : Starting) (tally : Nat) (ps : List Piece) (g : Got) :
    (State.runMove s x tally ps g).standing = g.st.standing := by
  simp [State.runMove]

@[simp] theorem runRingCopy_standing (s : State) (x : Starting) (tally : Nat) (g : Got) (hg : g.st.standing = s.standing) :
    (State.runRingCopy s x tally g).standing = s.standing := by
  unfold State.runRingCopy; dsimp only; (repeat' split) <;> simp [hg]

@[simp] theorem runCopy_standing (s : State) (x : Starting) (tally : Nat) : (s.runCopy x tally).standing = s.standing := by
  simp [State.runCopy]

@[simp] theorem runGather_standing (s : State) (x : Starting) (tally : Nat) : (s.runGather x tally).standing = s.standing
    := by
  unfold State.runGather; dsimp only; (repeat' split) <;> simp

@[simp] theorem runFill_standing (s : State) (x : Starting) (tally : Nat) : (s.runFill x tally).standing = s.standing := by
  simp [State.runFill]

@[simp] theorem runGate_standing (s : State) (x : Starting) (tally : Nat) : (s.runGate x tally).standing = s.standing := by
  unfold State.runGate; dsimp only; (repeat' split) <;> simp

theorem peerTally_standing {s t : State} {job tally : Nat} {k : Option Nat} (h : s.peerTally job tally = some (k, t)) :
    t.standing = s.standing := by
  unfold State.peerTally at h
  (repeat' split at h) <;> simp_all
  · obtain ⟨-, rfl⟩ := h; simp
  · obtain ⟨_, -, -, rfl⟩ := h; rfl

@[simp] theorem peerAdmit_standing (s : State) (job addr tally n : Nat) (ue : UeList) :
    (s.peerAdmit job addr tally n ue).2.standing = s.standing := by
  unfold State.peerAdmit
  split
  next h => (repeat' split) <;> simp [peerTally_standing h]
  · rfl

@[simp] theorem peerStore_standing (s : State) (job addr tally : Nat) (data : List Byte) (ue : UeList) :
    (s.peerStore job addr tally data ue).2.standing = s.standing := by
  have hp := peerAdmit_standing s job addr tally data.length ue
  unfold State.peerStore
  split <;> rename_i h <;> rw [h] at hp
  · dsimp only; split <;> simpa using hp
  · exact hp

@[simp] theorem peerLoad_standing (s : State) (job addr n : Nat) (ue : UeList) :
    (s.peerLoad job addr n ue).2.standing = s.standing := by
  unfold State.peerLoad; (repeat' split) <;> simp [↓standing_update]

@[simp] theorem runPut_standing (s : State) (x : Starting) (tally : Nat) : (s.runPut x tally).standing = s.standing := by
  unfold State.runPut
  dsimp only
  generalize hg : (x.none s).readAll x (x.desc.pieces []) = g
  have hs : g.st.standing = s.standing := by simp [← hg]
  split
  · split
    · simp [hs]
    · split
      · split <;> rename_i h <;> have hp := congrArg (fun p => p.2.standing) h <;> simp at hp <;> simp [← hp, hs]
      · simp [hs]
  · simp [hs]

@[simp] theorem getPoison_standing (s : State) (ch : Nat) (k : Cmd) (got : Nat) :
    (s.getPoison ch k got).1.standing = s.standing := by
  simp [State.getPoison]

@[simp] theorem runGet_standing (s : State) (x : Starting) (tally : Nat) : (s.runGet x tally).standing = s.standing := by
  unfold State.runGet
  dsimp only
  split
  · split
    · simp
    · split
      · split <;> rename_i h <;> have hp := congrArg (fun p => p.2.standing) h <;> simp at hp
        · simp [hp]
        · split <;> simp [hp]
      · simp
  · rfl

@[simp] theorem runCodec_standing (s : State) (x : Starting) (tally engine : Nat) :
    (s.runCodec x tally engine).standing = s.standing := by
  unfold State.runCodec
  dsimp only
  generalize hg : Got.readAll _ x _ = g
  have hs : g.st.standing = s.standing := by rw [← hg, Got.readAll_standing]; dsimp only; split <;> simp
  split
  · simp [hs]
  · split <;> simp [hs]

@[simp] theorem runStart_standing (s : State) (x : Starting) (engine : Nat) :
    (s.runStart x engine).standing = s.standing := by
  unfold State.runStart; split <;> simp

@[simp] theorem startRow_standing (s : State) (ch op : Nat) (a : StartArgs) (index : List Byte) :
    (s.startRow ch op a index).standing = s.standing := by
  unfold State.startRow
  split
  · rfl
  next x t h => (repeat' split) <;> simp [starting_standing h]

@[simp] theorem execCopy_goes (chan : Nat) (start : StartArgs) (s : State) : Goes (execCopy chan start s) s := by
  simp [execCopy]

@[simp] theorem execCopy2d_goes (chan : Nat) (start : StartArgs) (s : State) : Goes (execCopy2d chan start s) s := by
  simp [execCopy2d]

@[simp] theorem execGather_goes (chan : Nat) (start : StartArgs) (index : List Byte) (s : State) :
    Goes (execGather chan start index s) s := by
  simp [execGather]

@[simp] theorem execFill_goes (chan : Nat) (start : StartArgs) (s : State) : Goes (execFill chan start s) s := by
  simp [execFill]

@[simp] theorem execGateSend_goes (chan : Nat) (start : StartArgs) (s : State) : Goes (execGateSend chan start s) s := by
  simp [execGateSend]

@[simp] theorem execPeerPut_goes (chan : Nat) (start : StartArgs) (s : State) : Goes (execPeerPut chan start s) s := by
  simp [execPeerPut]

@[simp] theorem execPeerGet_goes (chan : Nat) (start : StartArgs) (s : State) : Goes (execPeerGet chan start s) s := by
  simp [execPeerGet]

@[simp] theorem execDictCompress_goes (chan : Nat) (start : StartArgs) (s : State) :
    Goes (execDictCompress chan start s) s := by
  simp [execDictCompress]

@[simp] theorem execDictExpand_goes (chan : Nat) (start : StartArgs) (s : State) :
    Goes (execDictExpand chan start s) s := by
  simp [execDictExpand]

/-! ### Machine/RtvEnd -/

@[simp] theorem countDict_standing (s : State) (k : Cmd) : (s.countDict k).standing = s.standing := by
  unfold State.countDict; split <;> simp

@[simp] theorem execRtvCommandComplete_goes (chan tag : Nat) (s : State) : Goes (execRtvCommandComplete chan tag s) s := by
  unfold execRtvCommandComplete; split <;> simp

@[simp] theorem releaseHeld_standing (s : State) (ch : Nat) : (s.releaseHeld ch).standing = s.standing := by
  unfold State.releaseHeld; (repeat' split) <;> simp

@[simp] theorem execRecordRingRelease_goes (chan : Nat) (s : State) : Goes (execRecordRingRelease chan s) s := by
  simp [execRecordRingRelease]

@[simp] theorem dictFailure_standing (s : State) (ch : Nat) (k : Cmd) (nn : Nat) :
    (s.dictFailure ch k nn).standing = s.standing := by
  simp [State.dictFailure, ↓standing_update]

@[simp] theorem execRtvCommandFail_goes (chan tag code : Nat) (s : State) :
    Goes (execRtvCommandFail chan tag code s) s := by
  unfold execRtvCommandFail; (repeat' split) <;> simp

@[simp] theorem execChannelResume_goes (fn chan : Nat) (s : State) : Goes (execChannelResume fn chan s) s := by
  simp [execChannelResume]

@[simp] theorem dropQueued_standing (s : State) (ch fn : Nat) : (s.dropQueued ch fn).standing = s.standing := by
  simp [State.dropQueued]

@[simp] theorem execChannelDrop_goes (fn chan : Nat) (s : State) : Goes (execChannelDrop fn chan s) s := by
  simp [execChannelDrop]

@[simp] theorem execTallyValueWrite_goes (fn : Nat) (value : Word) (s : State) :
    Goes (execTallyValueWrite fn value s) s := by
  unfold execTallyValueWrite; dsimp only; (repeat' split) <;> simp

@[simp] theorem execCrecTailWrite_goes (fn chan : Nat) (value : Word) (s : State) :
    Goes (execCrecTailWrite fn chan value s) s := by
  unfold execCrecTailWrite; dsimp only; (repeat' split) <;> simp

@[simp] theorem endWith_standing (s : State) (ch : Nat) (status : Nat) (k : Cmd) :
    (s.endWith ch status k).standing = s.standing := by
  unfold State.endWith; split <;> simp

@[simp] theorem execChannelFatalError_goes (chan : Nat) (s : State) : Goes (execChannelFatalError chan s) s := by
  unfold execChannelFatalError; split <;> simp

@[simp] theorem execDceEngineFatal_goes (engine : Nat) (s : State) : Goes (execDceEngineFatal engine s) s := by
  unfold execDceEngineFatal; split <;> simp [↓standing_update]

@[simp] theorem execPeerPutArrive_goes (member job addr tally : Nat) (put : PutArrival) (s : State) :
    Goes (execPeerPutArrive member job addr tally put s) s := by
  unfold execPeerPutArrive; split <;> simp

@[simp] theorem execPeerGetArrive_goes (member job addr len : Nat) (ue : UeList) (s : State) :
    Goes (execPeerGetArrive member job addr len ue s) s := by
  unfold execPeerGetArrive
  split
  · simp
  · split <;> rename_i h <;> have hp := congrArg (fun p => p.2.standing) h <;> simp at hp <;> simp [hp]

@[simp] theorem execPeerReportReceive_goes (chan tag : Nat) (ok : Bool) (data : PeerReport) (s : State) :
    Goes (execPeerReportReceive chan tag ok data s) s := by
  unfold execPeerReportReceive; (repeat' split) <;> simp

@[simp] theorem execPeerReportTimeout_goes (chan tag : Nat) (s : State) : Goes (execPeerReportTimeout chan tag s) s := by
  unfold execPeerReportTimeout; split <;> simp

/-! ### Machine/Ingest -/

@[simp] theorem ingReport_standing (s : State) (n nn : Nat) (frame : Option Nat) :
    (s.ingReport n nn frame).standing = s.standing := by
  simp [State.ingReport]

@[simp] theorem lostEvent_standing (s : State) (n no nn : Nat) (closedAt : DWord) (root : Err) :
    (s.lostEvent n no nn closedAt root).standing = s.standing := by
  simp [State.lostEvent]

@[simp] theorem gapEvents_standing (s : State) (n : Nat) (u : AccessUnit) : (s.gapEvents n u).standing = s.standing := by
  simp [State.gapEvents]

@[simp] theorem loseAu_standing (s : State) (n : Nat) (u : AccessUnit) (nn : Nat) (root : Err) :
    (s.loseAu n u nn root).standing = s.standing := by
  simp [State.loseAu]

@[simp] theorem ingDeny_standing (s : State) (n page : Nat) (write : Bool) (frame : Option Nat) :
    (s.ingDeny n page write frame).standing = s.standing := by
  simp [State.ingDeny]

@[simp] theorem packetIn_standing (s : State) (n : Nat) (r : Rtp) : (s.packetIn n r).standing = s.standing := by
  simp only [State.packetIn]
  generalize (_ || _) = changed
  rw [standing_ite, setStream_standing, ite_eq_left_iff]
  intro _
  generalize Stream.judge _ _ = j
  obtain ⟨v, y⟩ := j
  cases v
  · rw [standing_ite]
    cases State.jitterDenied s y <;> split <;> simp
  · simp
  · simp

@[simp] theorem toException_standing (s : State) (port reason : Nat) (f : List Byte) :
    (s.toException port reason f).standing = s.standing := by
  simp [State.toException, ↓standing_update]

@[simp] theorem filtered_standing (s : State) (port : Nat) : (s.filtered port).standing = s.standing := by rfl

@[simp] theorem execGateFrameReceive_goes (port : Nat) (bytes : List Byte) (s : State) :
    Goes (execGateFrameReceive port bytes s) s := by
  unfold execGateFrameReceive; dsimp only; (repeat' split) <;> simp

@[simp] theorem execAuCloseTimeout_goes (stream : Nat) (s : State) : Goes (execAuCloseTimeout stream s) s := by
  unfold execAuCloseTimeout; split <;> simp

@[simp] theorem deliver_standing (s : State) (n : Nat) (u : AccessUnit) (rows : List (Nat × List Byte))
    (record : List Byte) (flags : Nat) :
    (s.deliver n u rows record flags).standing = s.standing := by
  unfold State.deliver; dsimp only; (repeat' split) <;> simp

@[simp] theorem deliverAudio_standing (s : State) (n : Nat) (u : AccessUnit) :
    (s.deliverAudio n u).standing = s.standing := by
  simp [State.deliverAudio]

@[simp] theorem execAuRelease_goes (stream : Nat) (s : State) : Goes (execAuRelease stream s) s := by
  unfold execAuRelease; dsimp only; (repeat' split) <;> simp

@[simp] theorem execPictureDecodeStart_goes (start : DecodeStart) (s : State) :
    Goes (execPictureDecodeStart start s) s := by
  unfold execPictureDecodeStart; dsimp only; (repeat' split) <;> simp

@[simp] theorem keepReference_standing (s : State) (n : Nat) (p : Picture) :
    (s.keepReference n p).2.standing = s.standing := by
  unfold State.keepReference; dsimp only; split <;> simp

@[simp] theorem decodeAu_standing (s : State) (n : Nat) (u : AccessUnit) : (s.decodeAu n u).standing = s.standing := by
  unfold State.decodeAu
  dsimp only
  split
  · simp
  · split
    · simp
    · split
      · simp
      · split
        · simp
        · split
          · simp
          · simp
          next d _ _ =>
            cases d.kept
            · simp
            · simp only [if_true]
              generalize hr : State.keepReference _ _ _ = kept
              have hk : kept.2.standing = s.standing := by simp [← hr]
              obtain ⟨page, t⟩ := kept
              cases page <;> simpa using hk

@[simp] theorem execPictureWritten_goes (decoder : Nat) (s : State) : Goes (execPictureWritten decoder s) s := by
  unfold execPictureWritten; (repeat' split) <;> simp

@[simp] theorem stopStream_standing (s : State) (n : Nat) : (s.stopStream n).standing = s.standing := by rfl

@[simp] theorem streamLocked_standing (s : State) (fn n off value : Nat) :
    (s.streamLocked fn n off value).standing = s.standing := by
  simp [State.streamLocked]

@[simp] theorem execStreamEnable_goes (fn : Nat) (value : Word) (s : State) : Goes (execStreamEnable fn value s) s := by
  unfold execStreamEnable; dsimp only; (repeat' split) <;> simp

@[simp] theorem execStreamDisable_goes (fn : Nat) (value : Word) (s : State) : Goes (execStreamDisable fn value s) s := by
  unfold execStreamDisable; dsimp only; (repeat' split) <;> simp

@[simp] theorem execDecoderFatalError_goes (decoder : Nat) (s : State) : Goes (execDecoderFatalError decoder s) s := by
  unfold execDecoderFatalError
  dsimp only
  split
  · simp
  · rw [goes_next, foldl_standing]
    · split <;> simp
    · intro t n; split <;> simp

@[simp] theorem portLocked_standing (s : State) (fn port off value : Nat) :
    (s.portLocked fn port off value).standing = s.standing := by
  simp [State.portLocked]

@[simp] theorem execPortEnable_goes (fn port : Nat) (value : Word) (s : State) :
    Goes (execPortEnable fn port value s) s := by
  unfold execPortEnable; dsimp only; (repeat' split) <;> simp

@[simp] theorem execGateLinkUp_goes (port : Nat) (s : State) : Goes (execGateLinkUp port s) s := by
  simp [execGateLinkUp]

@[simp] theorem execGateLinkDown_goes (port : Nat) (s : State) : Goes (execGateLinkDown port s) s := by
  simp [execGateLinkDown]

@[simp] theorem execExcTailWrite_goes (fn : Nat) (value : Word) (s : State) : Goes (execExcTailWrite fn value s) s := by
  unfold execExcTailWrite; dsimp only; (repeat' split) <;> simp [↓standing_update]

@[simp] theorem execHostFeedDoorbell_goes (fn : Nat) (value : Word) (s : State) :
    Goes (execHostFeedDoorbell fn value s) s := by
  unfold execHostFeedDoorbell; dsimp only; (repeat' split) <;> simp

@[simp] theorem feedBytes_standing (s : State) (fn : Nat) (d payload : List Byte) (payloadOk : Bool) :
    (s.feedBytes fn d payload payloadOk).2.standing = s.standing := by
  unfold State.feedBytes; dsimp only; (repeat' split) <;> simp

@[simp] theorem execHostFeedDescriptor_goes (fn : Nat) (bytes payload : List Byte) (readOk payloadOk : Bool) (s : State) :
    Goes (execHostFeedDescriptor fn bytes payload readOk payloadOk s) s := by
  unfold execHostFeedDescriptor; dsimp only; (repeat' split) <;> simp

/-! ### Machine/HostIf -/

@[simp] theorem execBar2Read_goes (fn off len : Nat) (ue : UeList) (s : State) : Goes (execBar2Read fn off len ue s) s := by
  unfold execBar2Read
  generalize hb : (if inDev (s.bar2Addr fn off) len then s.badGranule ue (granules (s.bar2Addr fn off) len) else none) = b
  split
  · simp
  · dsimp only
    rw [hb]
    generalize s.cadDenied fn (s.bar2Addr fn off) len false = d
    split
    · simp
    · cases d <;> cases b <;> simp

@[simp] theorem execBar2Write_goes (fn off : Nat) (data : List Byte) (ue : UeList) (s : State) :
    Goes (execBar2Write fn off data ue s) s := by
  unfold execBar2Write; dsimp only; (repeat' split) <;> simp

@[simp] theorem execBar2BaseWrite_goes (fn : Nat) (value : DWord) (s : State) : Goes (execBar2BaseWrite fn value s) s := by
  simp [execBar2BaseWrite]

@[simp] theorem hstLocked_standing (s : State) (fn off value : Nat) : (s.hstLocked fn off value).standing = s.standing := by
  simp [State.hstLocked]

@[simp] theorem execSqBind_goes (fn ring : Nat) (value : Word) (s : State) : Goes (execSqBind fn ring value s) s := by
  unfold execSqBind; dsimp only; (repeat' split) <;> simp

@[simp] theorem execSqDoorbell_goes (fn ring : Nat) (value : Word) (s : State) :
    Goes (execSqDoorbell fn ring value s) s := by
  unfold execSqDoorbell; dsimp only; (repeat' split) <;> simp

@[simp] theorem sqHalt_standing (s : State) (fn ring nn : Nat) : (s.sqHalt fn ring nn).standing = s.standing := by
  simp [State.sqHalt]

@[simp] theorem sqEntry_standing (s : State) (fn ring : Nat) (bytes : List Byte) (ok : Bool) :
    (s.sqEntry fn ring bytes ok).2.standing = s.standing := by
  unfold State.sqEntry; dsimp only; (repeat' split) <;> simp

@[simp] theorem execSqEntryFetch_goes (fn ring : Nat) (bytes : List Byte) (ok : Bool) (s : State) :
    Goes (execSqEntryFetch fn ring bytes ok s) s := by
  unfold execSqEntryFetch
  split
  · simp
  · split <;> rename_i h <;> have hp := congrArg (fun p => p.2.standing) h <;> simp at hp
    · simp [hp]
    · dsimp only; split <;> simp [hp]

@[simp] theorem hostLost_standing (s : State) (fn c no nn : Nat) (arrival : DWord) :
    (s.hostLost fn c no nn arrival).standing = s.standing := by
  simp [State.hostLost]

@[simp] theorem submit_standing (s : State) (fn : Nat) (x : Submission) (arrival : DWord) :
    (s.submit fn x arrival).standing = s.standing := by
  simp [State.submit]

@[simp] theorem execFrameSubmission_goes (fn ring : Nat) (bytes : List Byte) (ok : Bool) (s : State) :
    Goes (execFrameSubmission fn ring bytes ok s) s := by
  unfold execFrameSubmission
  split
  · simp
  · split <;> rename_i h <;> have hp := congrArg (fun p => p.2.standing) h <;> simp at hp
    · simp [hp]
    · dsimp only; split <;> simp [hp]

@[simp] theorem execSqResume_goes (fn ring : Nat) (s : State) : Goes (execSqResume fn ring s) s := by
  simp [execSqResume]

@[simp] theorem execSqDrop_goes (fn ring : Nat) (s : State) : Goes (execSqDrop fn ring s) s := by
  simp [execSqDrop]

@[simp] theorem execWaitingEntryPlaced_goes (fn ring : Nat) (s : State) : Goes (execWaitingEntryPlaced fn ring s) s := by
  simp [execWaitingEntryPlaced]

@[simp] theorem execOqCidxWrite_goes (fn ring : Nat) (value : Word) (s : State) :
    Goes (execOqCidxWrite fn ring value s) s := by
  unfold execOqCidxWrite; dsimp only; (repeat' split) <;> simp

@[simp] theorem execOqIrqCoalesceExpiry_goes (fn ring : Nat) (s : State) : Goes (execOqIrqCoalesceExpiry fn ring s) s := by
  simp [execOqIrqCoalesceExpiry]

@[simp] theorem execDrainBoundExpiry_goes (fn ring : Nat) (s : State) : Goes (execDrainBoundExpiry fn ring s) s := by
  unfold execDrainBoundExpiry; dsimp only; split <;> simp

@[simp] theorem endByReset_standing (s : State) (c : Nat) : (s.endByReset c).standing = s.standing := by
  simp [State.endByReset]

@[simp] theorem resetChannel_standing (s : State) (fn ch : Nat) : (s.resetChannel fn ch).standing = s.standing := by
  simp [State.resetChannel]

@[simp] theorem abandonLoads_standing (s : State) (fn : Nat) : (s.abandonLoads fn).standing = s.standing := by
  unfold State.abandonLoads; dsimp only; split <;> simp [↓standing_update]

@[simp] theorem emptySlots_standing (s : State) (fn : Nat) : (s.emptySlots fn).standing = s.standing := by rfl

@[simp] theorem resetFunction_standing (s : State) (fn : Nat) : (s.resetFunction fn).standing = s.standing := by
  simp [State.resetFunction, ↓standing_update]

@[simp] theorem clearVfs_standing (s : State) : s.clearVfs.standing = s.standing := by
  simp [State.clearVfs, ↓standing_update]

@[simp] theorem resetFunctions_standing (s : State) : s.resetFunctions.standing = s.standing := by
  simp [State.resetFunctions]

@[simp] theorem execFunctionLevelReset_goes (fn : Nat) (s : State) : Goes (execFunctionLevelReset fn s) s := by
  simp [execFunctionLevelReset]

@[simp] theorem execVfEnableChange_goes (numVfs : Nat) (enable : Bool) (s : State) :
    Goes (execVfEnableChange numVfs enable s) s := by
  unfold execVfEnableChange; (repeat' split) <;> simp [↓standing_update]

@[simp] theorem linkLost_standing (s : State) : s.linkLost.standing = s.standing := by rfl

@[simp] theorem endpointReset_standing (s : State) : s.endpointReset.standing = s.standing := by
  simp [State.endpointReset, ↓standing_update]

@[simp] theorem execPerstAssert_goes (s : State) : Goes (execPerstAssert s) s := by
  simp [execPerstAssert, ↓standing_update]

@[simp] theorem execPerstRelease_goes (s : State) : Goes (execPerstRelease s) s := by
  simp [execPerstRelease, ↓standing_update]

@[simp] theorem execPcieLinkUp_goes (speed width : Nat) (s : State) : Goes (execPcieLinkUp speed width s) s := by
  unfold execPcieLinkUp; split <;> simp [↓standing_update]

@[simp] theorem execPcieLinkDown_goes (s : State) : Goes (execPcieLinkDown s) s := by simp [execPcieLinkDown]

@[simp] theorem execEndpointFatalError_goes (s : State) : Goes (execEndpointFatalError s) s := by
  simp [execEndpointFatalError]

/-! ### Machine/Pack -/

@[simp] theorem greet_standing (s : State) (port : Nat) : (s.greet port).standing = s.standing := by
  simp [State.greet]

@[simp] theorem form_standing (s : State) (ids : List DWord) (hash : DWord) : (s.form ids hash).standing = s.standing := by
  simp [State.form, ↓standing_update]

@[simp] theorem execPackForm_goes (fn : Nat) (s : State) : Goes (execPackForm fn s) s := by
  unfold execPackForm; (repeat' split) <;> simp [↓standing_update]

@[simp] theorem packFailed_standing (s : State) (nn member port : Nat) :
    (s.packFailed nn member port).standing = s.standing := by
  simp [State.packFailed, ↓standing_update]

@[simp] theorem linkFell_standing (s : State) (port : Nat) : (s.linkFell port).standing = s.standing := by
  unfold State.linkFell; dsimp only; (repeat' split) <;> simp [↓standing_update]

@[simp] theorem leavePack_standing (s : State) : s.leavePack.standing = s.standing := by
  simp [State.leavePack, ↓standing_update]

@[simp] theorem execPackLeave_goes (fn : Nat) (s : State) : Goes (execPackLeave fn s) s := by simp [execPackLeave]

@[simp] theorem execTraverseLinkUp_goes (port : Nat) (moduleOk : Bool) (s : State) :
    Goes (execTraverseLinkUp port moduleOk s) s := by
  unfold execTraverseLinkUp; (repeat' split) <;> simp

@[simp] theorem execLinkGreetingReceive_goes (port : Nat) (moduleId packId : DWord) (member : Nat) (asym : Word)
    (rttNs : Nat) (s : State) :
    Goes (execLinkGreetingReceive port moduleId packId member asym rttNs s) s := by
  unfold execLinkGreetingReceive; (repeat' split) <;> simp

@[simp] theorem execSyntonisationLock_goes (s : State) : Goes (execSyntonisationLock s) s := by
  unfold execSyntonisationLock; (repeat' split) <;> simp [↓standing_update]

@[simp] theorem execSyntonisationLoss_goes (s : State) : Goes (execSyntonisationLoss s) s := by
  simp [execSyntonisationLoss, ↓standing_update]

@[simp] theorem reportStep_standing (s : State) : s.reportStep.standing = s.standing := by
  unfold State.reportStep; dsimp only; (repeat' split) <;> simp [↓standing_update]

@[simp] theorem execFingerprintReceive_goes (port : Nat) (print : List Byte) (delay : Nat) (differs : Option Nat)
    (s : State) :
    Goes (execFingerprintReceive port print delay differs s) s := by
  unfold execFingerprintReceive; split <;> simp

@[simp] theorem execFormedReceive_goes (port : Nat) (lead : Nat) (epoch : DWord) (s : State) :
    Goes (execFormedReceive port lead epoch s) s := by
  unfold execFormedReceive; split <;> simp [↓standing_update]

@[simp] theorem execRefusedReceive_goes (port member : Nat) (s : State) : Goes (execRefusedReceive port member s) s := by
  unfold execRefusedReceive; split <;> simp

@[simp] theorem execFormTimeoutExpiry_goes (s : State) : Goes (execFormTimeoutExpiry s) s := by
  simp [execFormTimeoutExpiry]

@[simp] theorem execCalibrationRoundStart_goes (port : Nat) (s : State) : Goes (execCalibrationRoundStart port s) s := by
  simp [execCalibrationRoundStart]

@[simp] theorem execProbeSend_goes (port : Nat) (s : State) : Goes (execProbeSend port s) s := by
  unfold execProbeSend; (repeat' split) <;> simp

@[simp] theorem execProbeReceive_goes (port seq turnaround : Nat) (s : State) :
    Goes (execProbeReceive port seq turnaround s) s := by
  unfold execProbeReceive; split <;> simp

@[simp] theorem execProbeReplyReceive_goes (port seq : Nat) (s : State) : Goes (execProbeReplyReceive port seq s) s := by
  unfold execProbeReplyReceive; (repeat' split) <;> simp

@[simp] theorem stepEpoch_standing (s : State) (d : Int) : (s.stepEpoch d).standing = s.standing := by rfl

@[simp] theorem slewEpoch_standing (s : State) (d : Int) : (s.slewEpoch d).standing = s.standing := by rfl

@[simp] theorem roundDone_standing (s : State) (port : Nat) (formation : Bool) (off rtt : Int) :
    (s.roundDone port formation off rtt).standing = s.standing := by
  simp [State.roundDone, ↓standing_update]

@[simp] theorem execProbeTimestampsReceive_goes (port seq t1 t4 : Nat) (s : State) :
    Goes (execProbeTimestampsReceive port seq t1 t4 s) s := by
  unfold execProbeTimestampsReceive; dsimp only; (repeat' split) <;> simp

@[simp] theorem execRateAnnounceReceive_goes (port : Nat) (ppb : Int) (effective : DWord) (s : State) :
    Goes (execRateAnnounceReceive port ppb effective s) s := by
  unfold execRateAnnounceReceive; split <;> simp [↓standing_update]

@[simp] theorem execRateChangeApply_goes (s : State) : Goes (execRateChangeApply s) s := by
  unfold execRateChangeApply; split <;> simp [↓standing_update]

@[simp] theorem pckLocked_standing (s : State) (fn off value : Nat) : (s.pckLocked fn off value).standing = s.standing := by
  simp [State.pckLocked, ↓standing_update]

@[simp] theorem loadEpoch_standing (s : State) : s.loadEpoch.standing = s.standing := by rfl

@[simp] theorem execEpochLoadRequest_goes (fn : Nat) (s : State) : Goes (execEpochLoadRequest fn s) s := by
  unfold execEpochLoadRequest; (repeat' split) <;> simp [↓standing_update]

@[simp] theorem discipline_standing (s : State) (d : Int) : (s.discipline d).standing = s.standing := by
  simp [State.discipline, ↓standing_update]

@[simp] theorem execEpochPpsEdge_goes (s : State) : Goes (execEpochPpsEdge s) s := by
  unfold execEpochPpsEdge; dsimp only; (repeat' split) <;> simp [↓standing_update]

@[simp] theorem execExternalSourceTimeout_goes (s : State) : Goes (execExternalSourceTimeout s) s := by
  unfold execExternalSourceTimeout; split <;> simp [↓standing_update]

@[simp] theorem execFlitReceive_goes (port seq : Nat) (_payload : List Byte) (crcOk : Bool) (s : State) :
    Goes (execFlitReceive port seq _payload crcOk s) s := by
  unfold execFlitReceive; dsimp only; (repeat' split) <;> simp

@[simp] theorem execReplayRequestReceive_goes (port seq : Nat) (s : State) :
    Goes (execReplayRequestReceive port seq s) s := by
  unfold execReplayRequestReceive; dsimp only; split <;> simp

@[simp] theorem execFecLockLossTimeout_goes (port : Nat) (s : State) : Goes (execFecLockLossTimeout port s) s := by
  simp [execFecLockLossTimeout]

@[simp] theorem execRetrainDone_goes (port : Nat) (ok : Bool) (s : State) : Goes (execRetrainDone port ok s) s := by
  unfold execRetrainDone; dsimp only; (repeat' split) <;> simp

@[simp] theorem execTraverseLinkDown_goes (port : Nat) (s : State) : Goes (execTraverseLinkDown port s) s := by
  unfold execTraverseLinkDown; (repeat' split) <;> simp [↓standing_update]

@[simp] theorem execPortStateFatal_goes (port : Nat) (s : State) : Goes (execPortStateFatal port s) s := by
  simp [execPortStateFatal]

/-! ### Machine/Resets -/

@[simp] theorem goOff_standing (s : State) : s.goOff.standing = s.standing := by simp [State.goOff, ↓standing_update]

@[simp] theorem execResetNRelease_goes (s : State) : Goes (execResetNRelease s) s := by
  simp [execResetNRelease, ↓standing_update]

/-! ### Machine/Boot -/

@[simp] theorem runBank_standing (s : State) (bank fallback : Bool) : (s.runBank bank fallback).standing = s.standing := by
  unfold State.runBank; dsimp only; split <;> simp [↓standing_cad_update]

@[simp] theorem replaceAgain_standing (s : State) : s.replaceAgain.standing = s.standing := by
  simp [State.replaceAgain, ↓standing_update]

@[simp] theorem execSelfTestComplete_goes (kind index : Nat) (pass : Bool) (s : State) : Goes
    (execSelfTestComplete kind index pass s) s := by
  unfold execSelfTestComplete; dsimp only; (repeat' split) <;> simp [↓standing_cad_update]

@[simp] theorem execZeroFillDone_goes (s : State) : Goes (execZeroFillDone s) s := by
  unfold execZeroFillDone; dsimp only; (repeat' split) <;> simp [↓standing_cad_update]

@[simp] theorem execBootComplete_goes (s : State) : Goes (execBootComplete s) s := by
  unfold execBootComplete
  split
  · simp
  · rw [goes_next, toState_standing]; rfl

@[simp] theorem cadViolation_standing (s : State) (f : Option Nat) (at_ value : Nat) :
    (s.cadViolation f at_ value).standing = s.standing := by
  simp [State.cadViolation, ↓standing_cad_update]

@[simp] theorem execCadPortWrite_goes (value : Nat) (s : State) : Goes (execCadPortWrite value s) s := by
  unfold execCadPortWrite; split <;> simp

@[simp] theorem updateBy_standing (s : State) (policy : Bool) (last : BitVec 8) :
    (s.updateBy policy last).standing = s.standing := by rfl

@[simp] theorem execPolicyInstall_goes (bytes : List Byte) (s : State) : Goes (execPolicyInstall bytes s) s := by
  unfold execPolicyInstall; dsimp only; (repeat' split) <;> simp [↓standing_cad_update]

@[simp] theorem execFirmwareUpdate_goes (bytes : List Byte) (s : State) : Goes (execFirmwareUpdate bytes s) s := by
  unfold execFirmwareUpdate; dsimp only; (repeat' split) <;> simp [↓standing_cad_update]

@[simp] theorem execQuarterFatalError_goes (unit : Nat) (s : State) : Goes (execQuarterFatalError unit s) s := by
  simp [execQuarterFatalError]

/-! ### Machine/Connector -/

@[simp] theorem State.answer_goes (s : State) (d : List Byte) : Goes (s.answer d) s := by simp [State.answer]

@[simp] theorem execStatusState_goes (s : State) : Goes (execStatusState s) s := by
  simp [execStatusState]

@[simp] theorem execStatusCause_goes (s : State) : Goes (execStatusCause s) s := by simp [execStatusCause]

@[simp] theorem execStatusWakeInfo_goes (s : State) : Goes (execStatusWakeInfo s) s := by
  simp [execStatusWakeInfo]

@[simp] theorem execStatusSlot_goes (s : State) : Goes (execStatusSlot s) s := by simp [execStatusSlot]

@[simp] theorem execStatusVin_goes (s : State) : Goes (execStatusVin s) s := by
  simp [execStatusVin]

@[simp] theorem execStatusIdent_goes (s : State) : Goes (execStatusIdent s) s := by simp [execStatusIdent]

@[simp] theorem execStatusRrCount_goes (s : State) : Goes (execStatusRrCount s) s := by
  simp [execStatusRrCount]

@[simp] theorem execAlertResponse_goes (s : State) : Goes (execAlertResponse s) s := by simp [execAlertResponse]

@[simp] theorem execSmbusClockTimeout_goes (s : State) : Goes (execSmbusClockTimeout s) s := by
  simp [execSmbusClockTimeout]

@[simp] theorem execSlotIdRecheck_goes (slotId : Nat) (s : State) : Goes (execSlotIdRecheck slotId s) s := by
  unfold execSlotIdRecheck; dsimp only; split <;> simp [↓standing_update]

@[simp] theorem execReadbackCheck_goes (mismatch : Bool) (s : State) : Goes (execReadbackCheck mismatch s) s := by
  unfold execReadbackCheck; split <;> simp [↓standing_update]

@[simp] theorem execTapInstructionLoad_goes (code : Nat) (s : State) : Goes (execTapInstructionLoad code s) s := by
  unfold execTapInstructionLoad; split <;> simp [↓standing_update]

@[simp] theorem execFbRead_goes (index : Nat) (s : State) : Goes (execFbRead index s) s := by
  unfold execFbRead; split <;> simp [↓standing_update]

/-! ### Machine/CoreArith -/

@[simp] theorem execGridOp_goes (ctx unit : Nat) (args : GridArgs) (s : State) : Goes (execGridOp ctx unit args s) s := by
  unfold execGridOp; dsimp only; (repeat' split) <;> simp

@[simp] theorem execExportPartial_goes (ctx unit acc dst : Nat) (s : State) :
    Goes (execExportPartial ctx unit acc dst s) s := by
  unfold execExportPartial; (repeat' split) <;> simp

@[simp] theorem execMergePartial_goes (ctx unit acc : Nat) (src : Src) (s : State) :
    Goes (execMergePartial ctx unit acc src s) s := by
  unfold execMergePartial; dsimp only; (repeat' split) <;> simp

@[simp] theorem execVectorOp_goes (ctx unit : Nat) (args : VecArgs) (s : State) :
    Goes (execVectorOp ctx unit args s) s := by
  unfold execVectorOp; (repeat' split) <;> simp

@[simp] theorem execFunctionUnitEval_goes (ctx unit : Nat) (f : FuFn) (fmt n : Nat) (src : Src) (outFmt dst : Nat)
    (s : State) :
    Goes (execFunctionUnitEval ctx unit f fmt n src outFmt dst s) s := by
  unfold execFunctionUnitEval; (repeat' split) <;> simp

@[simp] theorem rowOp_goes (ctx unit : Nat) (args : RowArgs) (fmtsOk : Bool) (out : FrameRun → UnitRun → List Byte)
    (s : State) :
    Goes (rowOp ctx unit args fmtsOk out s) s := by
  unfold rowOp; (repeat' split) <;> simp

@[simp] theorem execRowReduce_goes (ctx unit : Nat) (args : RowArgs) (s : State) :
    Goes (execRowReduce ctx unit args s) s := by
  simp [execRowReduce]

@[simp] theorem execSoftMaximum_goes (ctx unit : Nat) (args : RowArgs) (s : State) :
    Goes (execSoftMaximum ctx unit args s) s := by
  simp [execSoftMaximum]

@[simp] theorem execNormalisation_goes (ctx unit : Nat) (args : RowArgs) (norm : NormArgs) (s : State) :
    Goes (execNormalisation ctx unit args norm s) s := by
  simp [execNormalisation]

@[simp] theorem execRowPartialEmit_goes (ctx unit : Nat) (args : RowArgs) (emit : EmitArgs) (s : State) :
    Goes (execRowPartialEmit ctx unit args emit s) s := by
  simp [execRowPartialEmit]

@[simp] theorem execRowPartialMerge_goes (ctx unit : Nat) (a b : Src) (dst : Nat) (s : State) :
    Goes (execRowPartialMerge ctx unit a b dst s) s := by
  unfold execRowPartialMerge; (repeat' split) <;> simp

/-! ### Machine/Entropy -/

@[simp] theorem ecRead_standing (s : State) (x : EcStart) (r : Reach) : (s.ecRead x r).2.standing = s.standing := by
  unfold State.ecRead; split <;> simp

@[simp] theorem ecFail_standing (s : State) (x : EcStart) (nn : Nat) (root : Err) :
    (s.ecFail x nn root).standing = s.standing := by
  simp [State.ecFail]

@[simp] theorem ecPoison_standing (s : State) (x : EcStart) (nn : Nat) (b : Nat × Bool × Nat) :
    (s.ecPoison x nn b).standing = s.standing := by
  simp [State.ecPoison]

@[simp] theorem ecLaunch_standing (s : State) (x : EcStart) (ue : UeList) (t : Tile) :
    (s.ecLaunch x ue t).standing = s.standing := by
  unfold State.ecLaunch; dsimp only; split <;> simp

@[simp] theorem ecStart_standing (s : State) (x : EcStart) (ue : UeList) : (s.ecStart x ue).standing = s.standing := by
  unfold State.ecStart; dsimp only; (repeat' split) <;> simp

@[simp] theorem ecRow_standing (s : State) (engine ctx unit : Nat) (decodes : Bool) (ue : UeList) :
    (s.ecRow engine ctx unit decodes ue).standing = s.standing := by
  unfold State.ecRow; split <;> simp

@[simp] theorem execEncode_goes (engine ctx unit : Nat) (ue : UeList) (s : State) :
    Goes (execEncode engine ctx unit ue s) s := by
  simp [execEncode]

@[simp] theorem execDecode_goes (engine ctx unit : Nat) (ue : UeList) (s : State) :
    Goes (execDecode engine ctx unit ue s) s := by
  simp [execDecode]

@[simp] theorem ecFlags_standing (s : State) (engine : Nat) (k : EcCmd) : (s.ecFlags engine k).standing = s.standing := by
  simp [State.ecFlags, ↓standing_update]

@[simp] theorem execEcCommandComplete_goes (engine serial : Nat) (s : State) :
    Goes (execEcCommandComplete engine serial s) s := by
  unfold execEcCommandComplete; (repeat' split) <;> simp

@[simp] theorem execEcEngineFatal_goes (engine : Nat) (s : State) : Goes (execEcEngineFatal engine s) s := by
  unfold execEcEngineFatal; split <;> simp

/-! ### Machine/Handler -/

@[simp] theorem stopHandler_standing (s : State) : s.stopHandler.standing = s.standing := by
  simp [State.stopHandler, ↓standing_update]

@[simp] theorem handlerReset_standing (s : State) (nn : Nat) : (s.handlerReset nn).standing = s.standing := by
  simp [State.handlerReset, ↓standing_update]

@[simp] theorem watchdogReset_standing (s : State) : s.watchdogReset.standing = s.standing := by
  simp [State.watchdogReset, ↓standing_update]

@[simp] theorem execHandlerWatchdogExpiry_goes (s : State) : Goes (execHandlerWatchdogExpiry s) s := by
  simp [execHandlerWatchdogExpiry]

@[simp] theorem execHandlerResetRequest_goes (fn : Nat) (s : State) : Goes (execHandlerResetRequest fn s) s := by
  simp [execHandlerResetRequest]

@[simp] theorem execFirmwareActivate_goes (s : State) : Goes (execFirmwareActivate s) s := by
  unfold execFirmwareActivate; dsimp only; (repeat' split) <;> simp [↓standing_cad_update]

@[simp] theorem execHandlerReturnTimeout_goes (s : State) : Goes (execHandlerReturnTimeout s) s := by
  simp [execHandlerReturnTimeout]

@[simp] theorem hndLocked_standing (s : State) (fn off value : Nat) : (s.hndLocked fn off value).standing = s.standing := by
  simp [State.hndLocked, ↓standing_update]

@[simp] theorem mailboxAnswer_standing (s : State) (fn : Nat) (result : BitVec 4) (rsp0 rsp1 : Nat) :
    (s.mailboxAnswer fn result rsp0 rsp1).standing = s.standing := by rfl

@[simp] theorem mailboxRefuse_standing (s : State) (fn : Nat) : (s.mailboxRefuse fn).standing = s.standing := by
  simp [State.mailboxRefuse]

@[simp] theorem mailboxWrite_standing (s : State) (fn a : Nat) (d : List Byte) :
    (s.mailboxWrite fn a d).standing = s.standing := by
  unfold State.mailboxWrite; (repeat' split) <;> simp

@[simp] theorem runFbCopy_standing (s : State) (fn dest what first count : Nat) :
    (s.runFbCopy fn dest what first count).standing = s.standing := by
  simp [State.runFbCopy]

@[simp] theorem runFbExport_standing (s : State) (fn dest cap first count : Nat) :
    (s.runFbExport fn dest cap first count).standing = s.standing := by
  simp [State.runFbExport]

@[simp] theorem runNote_standing (s : State) (fn : Nat) (args : List DWord) :
    (s.runNote fn args).standing = s.standing := by
  simp [State.runNote]

@[simp] theorem mailboxRun_standing (s : State) (fn code : Nat) : (s.mailboxRun fn code).standing = s.standing := by
  unfold State.mailboxRun; split <;> simp

@[simp] theorem mailboxGo_standing (s : State) (fn code : Nat) : (s.mailboxGo fn code).standing = s.standing := by
  simp [State.mailboxGo]

@[simp] theorem execFbCopy_goes (fn : Nat) (s : State) : Goes (execFbCopy fn s) s := by simp [execFbCopy]

@[simp] theorem execFbExport_goes (fn : Nat) (s : State) : Goes (execFbExport fn s) s := by
  simp [execFbExport]

@[simp] theorem execNote_goes (fn : Nat) (s : State) : Goes (execNote fn s) s := by simp [execNote]

@[simp] theorem execMailboxComplete_goes (fn : Nat) (s : State) : Goes (execMailboxComplete fn s) s := by
  unfold execMailboxComplete; dsimp only; (repeat' split) <;> simp

@[simp] theorem clearAlerts_standing (s : State) (bits : Nat) : (s.clearAlerts bits).standing = s.standing := by rfl

@[simp] theorem execAlertClear_goes (fn : Nat) (value : Word) (s : State) : Goes (execAlertClear fn value s) s := by
  simp [execAlertClear]

@[simp] theorem erlLocked_standing (s : State) (fn off value : Nat) : (s.erlLocked fn off value).standing = s.standing := by
  simp [State.erlLocked]

@[simp] theorem execErrorRingEnable_goes (fn : Nat) (value : Word) (s : State) :
    Goes (execErrorRingEnable fn value s) s := by
  unfold execErrorRingEnable; dsimp only; (repeat' split) <;> simp

@[simp] theorem execErlRingTailWrite_goes (fn : Nat) (value : Word) (s : State) :
    Goes (execErlRingTailWrite fn value s) s := by
  unfold execErlRingTailWrite; dsimp only; (repeat' split) <;> simp

/-! ### Machine/Loader -/

@[simp] theorem execLoadStart_goes (s : State) : Goes (execLoadStart s) s := by
  unfold execLoadStart; (repeat' split) <;> simp [↓standing_update]

@[simp] theorem judgeMigrations_standing (s : State) (slot : Nat) (old new : Loaded) :
    (s.judgeMigrations slot old new).standing = s.standing := by
  simp [State.judgeMigrations]

@[simp] theorem slotCommit_standing (s : State) (q : LoadReq) (image : Image) (hash : List Byte) :
    (s.slotCommit q image hash).standing = s.standing := by
  unfold State.slotCommit; dsimp only; split <;> simp [↓standing_update]

@[simp] theorem execSlotCommit_goes (ue : UeList) (s : State) : Goes (execSlotCommit ue s) s := by
  unfold execSlotCommit; (repeat' split) <;> simp

@[simp] theorem execLoadRefused_goes (ue : UeList) (s : State) : Goes (execLoadRefused ue s) s := by
  unfold execLoadRefused; (repeat' split) <;> simp [↓standing_update]

/-! ### Machine/Mctp -/

@[simp] theorem control_standing (s : State) (smbus : Bool) (body : List Byte) (cmd : Nat) (resp : List Byte) :
    (s.control smbus body cmd resp).standing = s.standing := by rfl

@[simp] theorem pldm_standing (s : State) (smbus : Bool) (body : List Byte) (type cmd : Nat) (resp : List Byte) :
    (s.pldm smbus body type cmd resp).standing = s.standing := by rfl

@[simp] theorem execMctpSetEndpointId_goes (smbus : Bool) (body : List Byte) (s : State) :
    Goes (execMctpSetEndpointId smbus body s) s := by
  unfold execMctpSetEndpointId; dsimp only; (repeat' split) <;> simp [↓standing_update]

@[simp] theorem execMctpGetEndpointId_goes (smbus : Bool) (body : List Byte) (s : State) :
    Goes (execMctpGetEndpointId smbus body s) s := by
  simp [execMctpGetEndpointId]

@[simp] theorem execMctpGetEndpointUuid_goes (smbus : Bool) (body : List Byte) (s : State) :
    Goes (execMctpGetEndpointUuid smbus body s) s := by
  simp [execMctpGetEndpointUuid]

@[simp] theorem execMctpGetVersionSupport_goes (smbus : Bool) (body : List Byte) (s : State) :
    Goes (execMctpGetVersionSupport smbus body s) s := by
  unfold execMctpGetVersionSupport; (repeat' split) <;> simp

@[simp] theorem execMctpGetMessageTypeSupport_goes (smbus : Bool) (body : List Byte) (s : State) :
    Goes (execMctpGetMessageTypeSupport smbus body s) s := by
  simp [execMctpGetMessageTypeSupport]

@[simp] theorem execMctpPacketError_goes (s : State) : Goes (execMctpPacketError s) s := by
  simp [execMctpPacketError, ↓standing_update]

@[simp] theorem execGetTid_goes (smbus : Bool) (body : List Byte) (s : State) : Goes (execGetTid smbus body s) s := by
  simp [execGetTid]

@[simp] theorem execSetTid_goes (smbus : Bool) (body : List Byte) (s : State) : Goes (execSetTid smbus body s) s := by
  unfold execSetTid; dsimp only; (repeat' split) <;> simp [↓standing_update]

@[simp] theorem execGetPldmVersion_goes (smbus : Bool) (body : List Byte) (s : State) :
    Goes (execGetPldmVersion smbus body s) s := by
  unfold execGetPldmVersion; dsimp only; (repeat' split) <;> simp

@[simp] theorem execGetPldmTypes_goes (smbus : Bool) (body : List Byte) (s : State) :
    Goes (execGetPldmTypes smbus body s) s := by
  simp [execGetPldmTypes]

@[simp] theorem execGetPldmCommands_goes (smbus : Bool) (body : List Byte) (s : State) :
    Goes (execGetPldmCommands smbus body s) s := by
  unfold execGetPldmCommands; dsimp only; (repeat' split) <;> simp

@[simp] theorem execPdrRepositoryCommand_goes (smbus : Bool) (body : List Byte) (s : State) :
    Goes (execPdrRepositoryCommand smbus body s) s := by
  simp [execPdrRepositoryCommand]

@[simp] theorem execGetSensorReading_goes (smbus : Bool) (body : List Byte) (s : State) :
    Goes (execGetSensorReading smbus body s) s := by
  unfold execGetSensorReading; (repeat' split) <;> simp

@[simp] theorem execGetStateSensorReadings_goes (smbus : Bool) (body : List Byte) (s : State) :
    Goes (execGetStateSensorReadings smbus body s) s := by
  unfold execGetStateSensorReadings; (repeat' split) <;> simp

@[simp] theorem execSetStateEffecterStates_goes (smbus : Bool) (body : List Byte) (s : State) :
    Goes (execSetStateEffecterStates smbus body s) s := by
  unfold execSetStateEffecterStates; (repeat' split) <;> simp

@[simp] theorem execSetEventReceiver_goes (smbus : Bool) (body : List Byte) (s : State) :
    Goes (execSetEventReceiver smbus body s) s := by
  unfold execSetEventReceiver; (repeat' split) <;> simp [↓standing_update]

@[simp] theorem execPlatformEventAck_goes (id : Nat) (s : State) : Goes (execPlatformEventAck id s) s := by
  simp [execPlatformEventAck, ↓standing_update]

@[simp] theorem execPlatformEventRetry_goes (id : Nat) (s : State) : Goes (execPlatformEventRetry id s) s := by
  unfold execPlatformEventRetry; (repeat' split) <;> simp [↓standing_update]

/-! ### Machine/Memory -/

@[simp] theorem execMemInvalRequest_goes (fn : Nat) (s : State) : Goes (execMemInvalRequest fn s) s := by
  simp [execMemInvalRequest, ↓standing_update]

@[simp] theorem execMemInvalDone_goes (s : State) : Goes (execMemInvalDone s) s := by
  simp [execMemInvalDone, ↓standing_update]

@[simp] theorem execPatrolScrub_goes (_addr : Nat) (s : State) : Goes (execPatrolScrub _addr s) s := by
  simp [execPatrolScrub]

@[simp] theorem dropStreamLine_standing (s : State) (q g : Nat) : (s.dropStreamLine q g).standing = s.standing := by rfl

@[simp] theorem execMemCorrectedError_goes (quarter : Nat) (site : MemSite) (s : State) :
    Goes (execMemCorrectedError quarter site s) s := by
  unfold execMemCorrectedError; (repeat' split) <;> simp [↓standing_update]

@[simp] theorem execMemFatalError_goes (quarter kind at_ : Nat) (s : State) :
    Goes (execMemFatalError quarter kind at_ s) s := by
  simp [execMemFatalError]

/-! ### Machine/Power -/

@[simp] theorem vinIn_standing (s : State) (lo n : Nat) : (s.vinIn lo n).standing = s.standing := by rfl

@[simp] theorem writeRestartRecords_standing (s : State) : s.writeRestartRecords.standing = s.standing := by rfl

@[simp] theorem enterShutdownA_standing (s : State) (cause : ShutCause) :
    (s.enterShutdownA cause).standing = s.standing := by
  simp [State.enterShutdownA, ↓standing_update]

@[simp] theorem inputFault_standing (s : State) (cause : ShutCause) : (s.inputFault cause).standing = s.standing := by
  unfold State.inputFault; split <;> simp

@[simp] theorem execPwrEnFall_goes (s : State) : Goes (execPwrEnFall s) s := by
  unfold execPwrEnFall; split <;> simp [↓standing_update]

@[simp] theorem execUndervoltageFault_goes (s : State) : Goes (execUndervoltageFault s) s := by
  simp [execUndervoltageFault, ↓standing_update]

@[simp] theorem execOvervoltageFault_goes (s : State) : Goes (execOvervoltageFault s) s := by
  simp [execOvervoltageFault, ↓standing_update]

@[simp] theorem execRestartRecordTimeout_goes (s : State) : Goes (execRestartRecordTimeout s) s := by
  unfold execRestartRecordTimeout; split <;> simp [↓standing_update]

@[simp] theorem judgeAsks_standing (s : State) : s.judgeAsks.standing = s.standing := by
  simp [State.judgeAsks, ↓standing_update]

@[simp] theorem execShutdownACancel_goes (s : State) : Goes (execShutdownACancel s) s := by
  unfold execShutdownACancel; split <;> simp [↓standing_update]

@[simp] theorem execShutdownAExpiry_goes (s : State) : Goes (execShutdownAExpiry s) s := by
  unfold execShutdownAExpiry; split <;> simp [↓standing_update]

@[simp] theorem execRestartRecordsClear_goes (fn : Nat) (s : State) : Goes (execRestartRecordsClear fn s) s := by
  simp [execRestartRecordsClear, ↓standing_update]

@[simp] theorem bootPool_standing (s : State) : s.bootPool.standing = s.standing := by
  simp [State.bootPool, ↓standing_update]

@[simp] theorem execWakeStepTimeout_goes (cause : Nat) (s : State) : Goes (execWakeStepTimeout cause s) s := by
  unfold execWakeStepTimeout; dsimp only; (repeat' split) <;> simp [↓standing_update]

@[simp] theorem execWakeRetryTimer_goes (s : State) : Goes (execWakeRetryTimer s) s := by
  simp [execWakeRetryTimer, ↓standing_update]

@[simp] theorem execVinMarginalTimeout_goes (vinMv : Nat) (s : State) : Goes (execVinMarginalTimeout vinMv s) s := by
  unfold execVinMarginalTimeout; dsimp only; (repeat' split) <;> simp [↓standing_update]

@[simp] theorem supLocked_standing (s : State) (fn off value : Nat) : (s.supLocked fn off value).standing = s.standing := by
  simp [State.supLocked, ↓standing_update]

@[simp] theorem profileRefused_standing (s : State) (fn : Nat) (r : Nat × Nat) :
    (s.profileRefused fn r).standing = s.standing := by
  simp [State.profileRefused, ↓standing_update]

@[simp] theorem execProfileChange_goes (fn profile : Nat) (s : State) : Goes (execProfileChange fn profile s) s := by
  unfold execProfileChange; dsimp only; (repeat' split) <;> simp [↓standing_update]

@[simp] theorem capThrs_standing (s old : State) : (s.capThrs old).standing = s.standing := by
  simp [State.capThrs]

@[simp] theorem execProfileChangeComplete_goes (s : State) : Goes (execProfileChangeComplete s) s := by
  unfold execProfileChangeComplete; split <;> simp [↓standing_update]

@[simp] theorem execPowerLimiterStep_goes (powerW : Nat) (s : State) : Goes (execPowerLimiterStep powerW s) s := by
  unfold execPowerLimiterStep; split <;> simp [↓standing_update]

@[simp] theorem execPowerLimitPersist_goes (s : State) : Goes (execPowerLimitPersist s) s := by
  unfold execPowerLimitPersist; split <;> simp [↓standing_update]

/-! ### Machine/Thermal -/

@[simp] theorem modThm_standing (s : State) (u : Nat) (g : ThmUnit → ThmUnit) : (s.modThm u g).standing = s.standing := by rfl

@[simp] theorem setThr_standing (s : State) (u thr : Nat) : (s.setThr u thr).standing = s.standing := by rfl

@[simp] theorem sensorFailed_standing (s : State) (u : Nat) (i : Nat) : (s.sensorFailed u i).standing = s.standing := by
  simp [State.sensorFailed, ↓standing_update]

@[simp] theorem readUnit_standing (s : State) (u : Nat) (ts : Sensors) : (s.readUnit u ts).standing = s.standing := by
  simp [State.readUnit]

@[simp] theorem checkInlet_standing (s : State) : s.checkInlet.standing = s.standing := by
  simp [State.checkInlet, ↓standing_update]

@[simp] theorem checkStack_standing (s : State) (q : Nat) : (s.checkStack q).standing = s.standing := by
  simp [State.checkStack, ↓standing_update]

@[simp] theorem refresh_standing (s : State) (us : List Nat) (sensors : List Sensors) :
    (s.refresh us sensors).standing = s.standing := by
  simp [State.refresh]

@[simp] theorem lowerOne_standing (s : State) (u : Nat) : (s.lowerOne u).standing = s.standing := by rfl

@[simp] theorem breach_standing (s : State) (u : Nat) : (s.breach u).standing = s.standing := by
  simp [State.breach, ↓standing_update]

@[simp] theorem lower_standing (s : State) (u : Nat) : (s.lower u).standing = s.standing := by
  unfold State.lower; split <;> simp

@[simp] theorem raiseThr_standing (s : State) (u : Nat) : (s.raiseThr u).standing = s.standing := by
  simp [State.raiseThr]

@[simp] theorem decideStep_standing (s : State) : s.decide_.standing = s.standing := by
  unfold State.decide_; dsimp only; (repeat' split) <;> simp [↓standing_update]

@[simp] theorem addSample_standing (s : State) (c : Nat) (v : Int) : (s.addSample c v).standing = s.standing := by rfl

@[simp] theorem execForecasterStep_goes (sensors : List Sensors) (forecasts : List Int) (s : State) :
    Goes (execForecasterStep sensors forecasts s) s := by
  unfold execForecasterStep; split <;> simp

@[simp] theorem execFallbackStep_goes (quarter : Nat) (sensors : List Sensors) (s : State) :
    Goes (execFallbackStep quarter sensors s) s := by
  unfold execFallbackStep; dsimp only; (repeat' split) <;> simp [↓standing_update]

@[simp] theorem execThermalTrip_goes (quarter : Nat) (s : State) : Goes (execThermalTrip quarter s) s := by
  unfold execThermalTrip; split <;> simp [↓standing_update]

@[simp] theorem execFanDemandUpdate_goes (s : State) : Goes (execFanDemandUpdate s) s := by
  unfold execFanDemandUpdate; split <;> simp [↓standing_update]

@[simp] theorem execThermalCeilingUpdate_goes (s : State) : Goes (execThermalCeilingUpdate s) s := by
  simp [execThermalCeilingUpdate, ↓standing_update]

@[simp] theorem updateLife_standing (s : State) : s.updateLife.standing = s.standing := by
  simp [State.updateLife, ↓standing_update]

@[simp] theorem sampleChannel_standing (s : State) (c : Nat) : (s.sampleChannel c).standing = s.standing := by
  unfold State.sampleChannel; dsimp only; (repeat' split) <;> simp [↓standing_update]

@[simp] theorem execCycleSample_goes (s : State) : Goes (execCycleSample s) s := by
  unfold execCycleSample; (repeat' split) <;> simp [↓standing_update]

@[simp] theorem execHourBandUpdate_goes (s : State) : Goes (execHourBandUpdate s) s := by
  unfold execHourBandUpdate; (repeat' split) <;> simp [↓standing_update]

/-! ### Machine/Registers -/

@[simp] theorem ran_standing {s : State} {o : Host.Outcome State Fault Refusal} (h : Goes o s) : (ran s o).standing =
    s.standing := by
  obtain ⟨t, rfl, ht⟩ := h
  exact ht

@[simp] theorem writeSys_standing (s : State) (fn rel : Nat) (v : DWord) : (s.writeSys fn rel v).standing = s.standing := by
  unfold State.writeSys; split <;> simp [↓standing_update]

@[simp] theorem modHst_standing (s : State) (fn : Nat) (g : HstFn → HstFn) : (s.modHst fn g).standing = s.standing := by rfl

@[simp] theorem writeSq_standing (s : State) (fn ring sub off : Nat) (v : DWord) :
    (s.writeSq fn ring sub off v).standing = s.standing := by
  unfold State.writeSq; split <;> simp

@[simp] theorem writeOq_standing (s : State) (fn ring sub off : Nat) (v : DWord) :
    (s.writeOq fn ring sub off v).standing = s.standing := by
  unfold State.writeOq; split <;> simp

@[simp] theorem writeMsix_standing (s : State) (fn off : Nat) (v : Word) :
    (s.writeMsix fn off v).standing = s.standing := by
  simp [State.writeMsix]

@[simp] theorem modSvy_standing (s : State) (fn : Nat) (g : SvyFn → SvyFn) : (s.modSvy fn g).standing = s.standing := by rfl

@[simp] theorem writeSvy_standing (s : State) (fn rel : Nat) (v : DWord) : (s.writeSvy fn rel v).standing = s.standing := by
  unfold State.writeSvy; split <;> simp [↓standing_update]

@[simp] theorem modHrd_standing (s : State) (fn : Nat) (g : HrdFn → HrdFn) : (s.modHrd fn g).standing = s.standing := by rfl

@[simp] theorem writeCtx_standing (s : State) (fn off : Nat) (v : DWord) : (s.writeCtx fn off v).standing = s.standing := by
  unfold State.writeCtx; split <;> simp

@[simp] theorem writeHrd_standing (s : State) (fn rel : Nat) (v : DWord) : (s.writeHrd fn rel v).standing = s.standing := by
  unfold State.writeHrd; (repeat' split) <;> simp [↓standing_update]

@[simp] theorem chanLocked_standing (s : State) (fn ch off value : Nat) :
    (s.chanLocked fn ch off value).standing = s.standing := by
  simp [State.chanLocked]

@[simp] theorem writeChan_standing (s : State) (fn ch sub : Nat) (v : DWord) :
    (s.writeChan fn ch sub v).standing = s.standing := by
  unfold State.writeChan; (repeat' split) <;> simp

@[simp] theorem writeRtv_standing (s : State) (fn rel : Nat) (v : DWord) : (s.writeRtv fn rel v).standing = s.standing := by
  unfold State.writeRtv; (repeat' split) <;> simp

@[simp] theorem writeEc_standing (s : State) (fn rel : Nat) (v : DWord) : (s.writeEc fn rel v).standing = s.standing := by
  unfold State.writeEc; split <;> simp [↓standing_update]

@[simp] theorem writeDce_standing (s : State) (fn rel : Nat) (v : DWord) : (s.writeDce fn rel v).standing = s.standing := by
  unfold State.writeDce; split <;> simp [↓standing_update]

@[simp] theorem writePort_standing (s : State) (fn port sub : Nat) (v : DWord) :
    (s.writePort fn port sub v).standing = s.standing := by
  unfold State.writePort; (repeat' split) <;> simp

@[simp] theorem ingLocked_standing (s : State) (fn off value : Nat) : (s.ingLocked fn off value).standing = s.standing := by
  simp [State.ingLocked]

@[simp] theorem writeRings_standing (s : State) (fn rel : Nat) (v : DWord) :
    (s.writeRings fn rel v).standing = s.standing := by
  unfold State.writeRings; split <;> simp [↓standing_update]

@[simp] theorem writeStream_standing (s : State) (fn rel : Nat) (v : DWord) :
    (s.writeStream fn rel v).standing = s.standing := by
  simp [State.writeStream]

@[simp] theorem writeIng_standing (s : State) (fn rel : Nat) (v : DWord) : (s.writeIng fn rel v).standing = s.standing := by
  simp [State.writeIng]

@[simp] theorem writeJob_standing (s : State) (fn : Nat) (v : DWord) : (s.writeJob fn v).standing = s.standing := by
  simp [State.writeJob]

@[simp] theorem writeEpochCfg_standing (s : State) (fn : Nat) (v : DWord) :
    (s.writeEpochCfg fn v).standing = s.standing := by
  simp [State.writeEpochCfg, ↓standing_update]

@[simp] theorem writePck_standing (s : State) (fn rel : Nat) (v : DWord) : (s.writePck fn rel v).standing = s.standing := by
  unfold State.writePck; (repeat' split) <;> simp [↓standing_update]

@[simp] theorem writeThm_standing (s : State) (fn rel : Nat) (v : DWord) : (s.writeThm fn rel v).standing = s.standing := by
  unfold State.writeThm; split <;> simp [↓standing_update]

@[simp] theorem writeErl_standing (s : State) (fn rel : Nat) (v : DWord) : (s.writeErl fn rel v).standing = s.standing := by
  unfold State.writeErl; split <;> simp

@[simp] theorem writeCad_standing (s : State) (fn rel : Nat) (v : DWord) : (s.writeCad fn rel v).standing = s.standing := by
  unfold State.writeCad; split <;> simp

@[simp] theorem writeHnd_standing (s : State) (fn rel : Nat) (v : DWord) : (s.writeHnd fn rel v).standing = s.standing := by
  unfold State.writeHnd; split <;> simp [↓standing_update]

@[simp] theorem writeFab_standing (s : State) (fn q sub : Nat) (v : DWord) :
    (s.writeFab fn q sub v).standing = s.standing := by
  unfold State.writeFab; split <;> simp

@[simp] theorem writeMem_standing (s : State) (fn rel : Nat) (v : DWord) : (s.writeMem fn rel v).standing = s.standing := by
  unfold State.writeMem; split <;> simp [↓standing_update]

@[simp] theorem writeSup_standing (s : State) (fn rel : Nat) (v : DWord) : (s.writeSup fn rel v).standing = s.standing := by
  unfold State.writeSup; split <;> simp [↓standing_update]

@[simp] theorem execBadAccess_goes (fn off size : Nat) (write : Bool) (s : State) :
    Goes (execBadAccess fn off size write s) s := by
  unfold execBadAccess; split <;> simp

@[simp] theorem execCadRegisterWrite_goes (fn off : Nat) (wide : Bool) (value : DWord) (s : State) :
    Goes (execCadRegisterWrite fn off wide value s) s := by
  unfold execCadRegisterWrite; (repeat' split) <;> simp

end Sys2Proof.Machine
end

section
/-!
A locked Cadastre (R615, R618, R639): the commands that reset the module open it, unlocked and empty; boot code sets it while
its window is open; under every other command it stands.
-/
namespace Sys2Proof.Machine
open Sys2Proof

/-! ### The commands that open or set the Cadastre -/

/-- What no command changes at all: the queue, the model's time, and the fuses but for the SV floor. -/
structure Fixed where
  pending : List Instr
  now : Nat
  fuses : Fuses

def State.fixed (s : State) : Fixed := ⟨s.pending, s.now, { s.fuses with svFloor := 0 }⟩

theorem fixed_of_standing {s t : State} (h : t.standing = s.standing) : t.fixed = s.fixed := by
  simp only [State.standing, Standing.mk.injEq] at h
  obtain ⟨hp, hn, hf, -⟩ := h
  rw [State.fixed, hp, hn, hf, State.fixed]

/-- The Cadastre is unlocked and empty, and what no command changes is as before. -/
structure Reopens (s t : State) : Prop where
  fixed : t.fixed = s.fixed
  locked : t.cad.locked = false
  entries : t.cad.entries = []

namespace Reopens

variable {r s t u : State}

theorem congr (h : Reopens s t) (hu : u.standing = t.standing) : Reopens s u := by
  have hf := (fixed_of_standing hu).trans h.fixed
  simp only [State.standing, Standing.mk.injEq] at hu
  obtain ⟨-, -, -, hl, -, he⟩ := hu
  exact ⟨hf, hl.trans h.locked, he.trans h.entries⟩

theorem of_fixed (h : Reopens r t) (hr : r.fixed = s.fixed) : Reopens s t := ⟨h.fixed.trans hr, h.locked, h.entries⟩

end Reopens

/-- How a command leaves the Cadastre: as it stands, unlocked and empty by a reset, or set while its window is open. -/
inductive Onward (s t : State) : Prop
  | stands (h : t.standing = s.standing)
  | opens (h : Reopens s t)
  | boots (hf : t.fixed = s.fixed) (hw : s.cad.windowOpen = true)

namespace Onward

variable {r s t : State}

theorem rfl' (s : State) : Onward s s := .stands rfl

theorem fixed_eq (h : Onward s t) : t.fixed = s.fixed := by
  cases h with
  | stands h => exact fixed_of_standing h
  | opens h => exact h.fixed
  | boots hf _ => exact hf

/-- A command begins where what stands is as before. -/
theorem of_standing (h : Onward r t) (hr : r.standing = s.standing) : Onward s t := by
  have hf := fixed_of_standing hr
  cases h with
  | stands h => exact .stands (h.trans hr)
  | opens h => exact .opens (h.of_fixed hf)
  | boots hf' hw =>
    simp only [State.standing, Standing.mk.injEq] at hr
    obtain ⟨-, -, -, -, hw', -⟩ := hr
    exact .boots (hf'.trans hf) (hw' ▸ hw)

/-- What stands after a command may be read as what stood after it. -/
theorem congr (h : Onward s r) (ht : t.standing = r.standing) : Onward s t := by
  cases h with
  | stands h => exact .stands (ht.trans h)
  | opens h => exact .opens (h.congr ht)
  | boots hf hw => exact .boots ((fixed_of_standing ht).trans hf) hw

end Onward

/-! ### Resets -/

theorem beginBoot_reopens (s : State) (cold : Bool) : Reopens s (s.beginBoot cold) := by
  unfold State.beginBoot
  exact (⟨rfl, rfl, rfl⟩ : Reopens s { s with cad := s.cad.opened _ cold }).congr (toState_standing ..)

theorem coldReset_reopens (s : State) : Reopens s s.coldReset := ⟨rfl, rfl, rfl⟩

theorem wake_reopens (s : State) : Reopens s s.wake := by
  unfold State.wake
  exact (coldReset_reopens s).congr (by simp [↓standing_update])

theorem tryWake_onward (s : State) : Onward s s.tryWake := by
  unfold State.tryWake
  split
  · exact .opens ((wake_reopens _).of_fixed rfl)
  · exact .rfl' s

theorem warmEffects_standing (s : State) : s.warmEffects.standing = s.standing := by
  simp [State.warmEffects, ↓standing_update]

/-- A warm reset begins BOOT in BOOT, READY and RUN, and does nothing elsewhere. -/
theorem warmReset_reopens_or_eq (s : State) (byHost : Bool) : Reopens s (s.warmReset byHost) ∨ s.warmReset byHost = s := by
  have hboot : ∀ t : State, t.standing = (s.warmEffects.beginBoot false).standing → Reopens s t := fun t ht =>
    ((beginBoot_reopens s.warmEffects false).congr ht).of_fixed (fixed_of_standing (warmEffects_standing s))
  unfold State.warmReset
  split
  case h_4 => exact .inr rfl
  all_goals exact .inl (hboot _ (by simp [↓standing_update]))

theorem warmReset_onward (s : State) (byHost : Bool) : Onward s (s.warmReset byHost) := by
  obtain h | h := warmReset_reopens_or_eq s byHost
  · exact .opens h
  · rw [h]; exact .rfl' s

/-- The sequencer's state with SUP_WAKE loaded. -/
def State.wakeLoaded (s : State) : State :=
  { s with sup := { s.sup with
    wakeStep := 8, regFailedStep := BitVec.ofNat 4 s.sup.failedStep, regAttempts := BitVec.ofNat 3 s.sup.attempts
    regCause := BitVec.ofNat 8 s.sup.holdCause, regWakeMs := satNat 16 ((s.now - s.sup.wakeStart) / 1000000)
    unstrapped := s.sup.slotSample == 63 } }

/-- BOOT as the wake's last step begins it, before a RESET_N that is low holds it. -/
def State.bootBegun (s : State) : State :=
  let s := (s.wakeLoaded.beginBoot true).bootPool
  if s.sup.slotSample = 63 then s.report { blk := .sys, nn := 41 } else s

theorem enterBoot_eq (s : State) :
    s.enterBoot = if s.bootBegun.pins.resetN then s.bootBegun else s.bootBegun.warmReset false := rfl

theorem bootBegun_reopens (s : State) : Reopens s s.bootBegun := by
  unfold State.bootBegun
  dsimp only
  refine ((beginBoot_reopens s.wakeLoaded true).congr ?_).of_fixed (s := s) rfl
  split <;> simp

/-- The wake's last step opens the Cadastre, and a warm reset on top of it opens it again. -/
theorem enterBoot_reopens (s : State) : Reopens s s.enterBoot := by
  rw [enterBoot_eq]
  split
  · exact bootBegun_reopens s
  · obtain h | h := warmReset_reopens_or_eq s.bootBegun false
    · exact h.of_fixed (bootBegun_reopens s).fixed
    · rw [h]; exact bootBegun_reopens s

/-! ### Boot code -/

@[simp] theorem enforce_fixed (s : State) (p : Policy) (source : BitVec 2) : (s.enforce p source).fixed = s.fixed := by
  unfold State.enforce
  dsimp only
  split
  · rfl
  · exact (fixed_of_standing (dropAlert_standing ..)).trans rfl

@[simp] theorem enforceNone_fixed (s : State) : s.enforceNone.fixed = s.fixed :=
  (fixed_of_standing (report_standing ..)).trans rfl

@[simp] theorem applyActive_fixed (s : State) : s.applyActive.fixed = s.fixed := by
  unfold State.applyActive
  (repeat' split) <;> simp

@[simp] theorem applyPolicy_fixed (s : State) : s.applyPolicy.fixed = s.fixed := by
  unfold State.applyPolicy
  dsimp only
  split
  · simp
  · split
    · exact (enforce_fixed ..).trans rfl
    · rw [applyActive_fixed]; exact (fixed_of_standing (report_standing ..)).trans rfl

/-- What boot code has done when it comes to the policy. -/
def State.bootRead (s : State) : State :=
  let t := { s.readFieldBook with hnd := { s.readFieldBook.hnd with running := true } }
  let t := if t.cad.coldBoot then t.report
    { blk := .erl, nn := 2, detail := [s.sup.slotSample.toNat, s.fwVersion, s.fuses.stepping, s.fuses.grade] } else t
  t.movePending.replaceAgain

theorem bootRead_standing (s : State) : s.bootRead.standing = s.standing := by
  unfold State.bootRead; dsimp only; split <;> simp [↓standing_update]

theorem bootCode_eq (s : State) :
    s.bootCode = let t := if s.bootRead.cad.windowOpen then s.bootRead.applyPolicy else s.bootRead
      { t with thm := t.thm.resume, cad := { t.cad with coldBoot := false } } := rfl

/-- Boot code sets the Cadastre only while its window is open. -/
theorem bootCode_onward (s : State) : Onward s s.bootCode := by
  refine Onward.of_standing ?_ (bootRead_standing s)
  rw [bootCode_eq]
  split
  next hw => exact .boots ((applyPolicy_fixed s.bootRead).symm ▸ rfl) hw
  · exact .stands rfl

/-! ### The commands -/

/-- A command's outcome goes on from a state. -/
def Outruns (o : Host.Outcome State Fault Refusal) (s : State) : Prop := ∃ t, o = .next t ∧ Onward s t

theorem outruns_next {s t : State} (h : Onward s t) : Outruns (.next t) s := ⟨t, rfl, h⟩

theorem Goes.outruns {o : Host.Outcome State Fault Refusal} {s : State} (h : Goes o s) : Outruns o s := by
  obtain ⟨t, rfl, ht⟩ := h
  exact outruns_next (.stands ht)

theorem execWarmResetRequest_outruns (fn : Nat) (s : State) : Outruns (execWarmResetRequest fn s) s := by
  unfold execWarmResetRequest
  split
  · exact outruns_next (warmReset_onward s true)
  · exact outruns_next (.rfl' s)

theorem execResetNAssert_outruns (s : State) : Outruns (execResetNAssert s) s := by
  unfold execResetNAssert
  dsimp only
  split
  · exact outruns_next ((warmReset_onward _ false).of_standing rfl)
  · exact outruns_next (.rfl' s)

theorem execFirmwareCheckDone_outruns (s : State) : Outruns (execFirmwareCheckDone s) s := by
  unfold execFirmwareCheckDone
  split
  · exact outruns_next (.rfl' s)
  · split
    · exact outruns_next (.stands (report_standing ..))
    · exact outruns_next ((bootCode_onward _).of_standing (runBank_standing ..))

theorem execBootWindowTimeout_outruns (s : State) : Outruns (execBootWindowTimeout s) s := by
  unfold execBootWindowTimeout
  split
  · exact outruns_next (.rfl' s)
  next h =>
    have hw : s.cad.windowOpen = true := by simp at h; exact h.2.2
    exact outruns_next (.boots ((fixed_of_standing (report_standing ..)).trans rfl) hw)

theorem execHandlerReturn_outruns (s : State) : Outruns (execHandlerReturn s) s := by
  unfold execHandlerReturn
  split
  · exact outruns_next (.rfl' s)
  · split
    · exact outruns_next (.stands (by simp [↓standing_update]))
    next b _ =>
      refine outruns_next ?_
      dsimp only
      generalize hu : State.smbusSettled _ _ = u
      have hs : u.standing = s.standing := by simp [← hu, ↓standing_update]
      split
      · exact ((bootCode_onward u).of_standing hs).congr (by simp)
      · exact .stands (by simp [↓standing_update, hs])

theorem execPwrEnRise_outruns (slotId : Nat) (s : State) : Outruns (execPwrEnRise slotId s) s := by
  unfold execPwrEnRise
  split
  · exact outruns_next (.rfl' s)
  · refine outruns_next ((tryWake_onward _).of_standing ?_)
    split <;> rfl

theorem execInputGood_outruns (slotId : Nat) (s : State) : Outruns (execInputGood slotId s) s :=
  outruns_next ((tryWake_onward _).of_standing rfl)

theorem execShutdownBDone_outruns (s : State) : Outruns (execShutdownBDone s) s := by
  unfold execShutdownBDone
  split
  · exact outruns_next ((tryWake_onward _).of_standing (goOff_standing s))
  · exact outruns_next (.rfl' s)

theorem execWakeStepComplete_outruns (s : State) : Outruns (execWakeStepComplete s) s := by
  unfold execWakeStepComplete
  split
  · exact outruns_next (.rfl' s)
  · split
    · exact outruns_next (.opens (enterBoot_reopens s))
    · exact outruns_next (.stands rfl)

theorem execRetry_outruns (data : Byte) (s : State) : Outruns (execRetry data s) s := by
  unfold execRetry
  split
  · exact outruns_next (.rfl' s)
  · split
    · exact outruns_next (.stands (by simp))
    · dsimp only
      split
      · exact outruns_next (.stands (by simp))
      · split
        · exact outruns_next (.stands (by simp))
        · exact outruns_next (.opens ((wake_reopens _).of_fixed (fixed_of_standing (by simp))))

theorem ran_onward {s : State} {o : Host.Outcome State Fault Refusal} (h : Outruns o s) : Onward s (ran s o) := by
  obtain ⟨t, rfl, ht⟩ := h
  exact ht

/-- Of HST's registers, the one that asks for a warm reset may do more than leave what stands. -/
theorem writeHst_onward (s : State) (fn rel : Nat) (v : DWord) : Onward s (s.writeHst fn rel v) := by
  unfold State.writeHst
  dsimp only
  split
  case h_2 =>
    split
    · exact ran_onward (execWarmResetRequest_outruns fn s)
    · exact .rfl' s
  all_goals refine .stands ?_
  case h_7 => (repeat' split) <;> simp
  all_goals simp

theorem writeReg_onward (s : State) (fn off : Nat) (v : DWord) : Onward s (s.writeReg fn off v) := by
  unfold State.writeReg
  dsimp only
  split
  case h_2 => exact writeHst_onward s fn _ v
  all_goals exact .stands (by simp)

theorem execRegisterWrite_outruns (fn off : Nat) (wide : Bool) (value : DWord) (s : State) :
    Outruns (execRegisterWrite fn off wide value s) s := by
  unfold execRegisterWrite
  dsimp only
  split
  · exact outruns_next (.rfl' s)
  · split
    · exact outruns_next (.stands (by simp))
    · exact outruns_next (.rfl' s)
    · exact outruns_next (.stands (by split <;> simp))
    · exact outruns_next (writeReg_onward s fn off _)

/-- Every command ends in a next state, which leaves the Cadastre as a reset, boot code or none of them does. -/
theorem exec_outruns (c : Instr) (s : State) : Outruns (exec c s) s := by
  cases c
  case registerWrite => exact execRegisterWrite_outruns ..
  case warmResetRequest => exact execWarmResetRequest_outruns ..
  case resetNAssert => exact execResetNAssert_outruns ..
  case firmwareCheckDone => exact execFirmwareCheckDone_outruns ..
  case bootWindowTimeout => exact execBootWindowTimeout_outruns ..
  case retry => exact execRetry_outruns ..
  case handlerReturn => exact execHandlerReturn_outruns ..
  case pwrEnRise => exact execPwrEnRise_outruns ..
  case inputGood => exact execInputGood_outruns ..
  case shutdownBDone => exact execShutdownBDone_outruns ..
  case wakeStepComplete => exact execWakeStepComplete_outruns ..
  all_goals exact Goes.outruns (by simp [exec])

/-- Settles O59: every command has an outcome that goes on, and neither a reset nor boot code reaches the queue, the time or a
fuse other than the SV floor. -/
theorem everyCommandGoesOn : Obligations.EveryCommandGoesOn := by
  unfold Obligations.EveryCommandGoesOn
  intro c s
  obtain ⟨t, ht, h⟩ := exec_outruns c s
  have hf := h.fixed_eq
  simp only [State.fixed, Fixed.mk.injEq] at hf
  obtain ⟨hp, hn, hf⟩ := hf
  exact ⟨t, ht, hp, hn, congrArg (fun f : Fuses => { f with svFloor := t.fuses.svFloor }) hf⟩

/-- Settles O60: with its window closed the Cadastre is left as it stands, or a reset has unlocked and emptied it. -/
theorem lockedCadastreStandsUntilReset : Obligations.LockedCadastreStandsUntilReset := by
  unfold Obligations.LockedCadastreStandsUntilReset
  intro c s t hlock hwin hexec
  obtain ⟨u, hu, h⟩ := exec_outruns c s
  obtain rfl : t = u := by rw [hexec] at hu; exact Host.Outcome.next.inj hu
  cases h with
  | stands h =>
    simp only [State.standing, Standing.mk.injEq] at h
    obtain ⟨-, -, -, hl, hw, he⟩ := h
    exact .inl ⟨hl.trans hlock, hw.trans hwin, he⟩
  | opens h => exact .inr ⟨h.locked, h.entries⟩
  | boots _ hw => simp [hwin] at hw

end Sys2Proof.Machine
end

section
/-!
The queue's front command, the passing of time on an empty queue (R519), and the Cadastre's verdict on an access (R617, R621).
-/
namespace Sys2Proof.Machine
open Sys2Proof

/-- Settles O54: the step takes back the command that withFront has put at the front. -/
theorem stepRunsTheFrontCommand : Obligations.StepRunsTheFrontCommand := by
  unfold Obligations.StepRunsTheFrontCommand
  intro c s
  rfl

/-! ### One nanosecond -/

/-- At the nominal rate the clock advances by one nanosecond, of 65,536 units, and its remainder stays. -/
theorem epochAdvance_nominal {rem : Nat} (h : rem < 1000000000) : epochAdvance 0 rem = (65536, rem) := by
  simp only [epochAdvance, Prod.mk.injEq]
  omega

theorem Epoch.tick_nominal {e : Epoch} (now : Nat) (hppb : e.ratePpb = 0) (hslew : e.slew = 0) (hrem : e.rem < 1000000000) :
    (e.tick now).count = e.count + 65536 := by
  simp [Epoch.tick, hppb, hslew, epochAdvance_nominal hrem]

/-- One more nanosecond of the count's units is one more nanosecond of the epoch. -/
theorem epochNs_add_one (c : BitVec 80) :
    BitVec.ofNat 64 ((c + 65536#80).toNat / 65536) = BitVec.ofNat 64 (c.toNat / 65536) + 1#64 := by
  have h1 : (65536#80).toNat = 65536 := rfl
  have h2 : (1#64).toNat = 1 := rfl
  apply BitVec.eq_of_toNat_eq
  simp only [BitVec.toNat_ofNat, BitVec.toNat_add, h1, h2]
  omega

theorem tick_of_powered {s : State} (h : s.sup.mstate.powered = true) :
    s.tick = { s with
      now := s.now + 1, pck := { s.pck with epoch := s.pck.epoch.tick (s.now + 1) }
      fb := { s.fb with work := { s.fb.work with poweredNs := s.fb.work.poweredNs + 1 } } } := by
  simp only [State.tick, h, if_true]

theorem tick_of_unpowered {s : State} (h : s.sup.mstate.powered = false) : s.tick = { s with now := s.now + 1 } := by
  simp only [State.tick, h, Bool.false_eq_true, if_false]

theorem tick_keeps (s : State) : Keeps [.now, .pck, .fb] s s.tick := by
  cases h : s.sup.mstate.powered with
  | true => rw [tick_of_powered h]; intro p hp; cases p <;> simp_all [Part.same]
  | false => rw [tick_of_unpowered h]; intro p hp; cases p <;> simp_all [Part.same]

theorem tick_now (s : State) : s.tick.now = s.now + 1 := by
  unfold State.tick; dsimp only; split <;> rfl

/-- Settles O55: with the rails up the clock's count takes one nanosecond's units, and with them down time alone passes. -/
theorem idleStepsLetTimePass : Obligations.IdleStepsLetTimePass := by
  unfold Obligations.IdleStepsLetTimePass
  intro s hempty
  have hkeeps := tick_keeps s
  have hpend : s.tick.pending = s.pending := hkeeps .pending (by decide)
  refine ⟨s.tick, ?_, tick_now s, hpend.trans hempty, hkeeps, fun hup hppb hslew hrem => ?_, fun hdown => ?_⟩
  · simp only [step, hempty]
  · have hcount : s.tick.pck.epoch.count = s.pck.epoch.count + 65536 := by
      rw [tick_of_powered hup]; exact Epoch.tick_nominal _ hppb hslew hrem
    rw [State.epoch, hcount]
    exact epochNs_add_one _
  · rw [tick_of_unpowered hdown]; exact ⟨rfl, rfl⟩

/-! ### The verdict -/

theorem mem_pages {a n p : Nat} : p ∈ pages a n ↔ a / 4096 ≤ p ∧ p * 4096 < a + n ∧ 0 < n := by
  unfold pages
  split
  · simp; omega
  · simp only [List.mem_map, List.mem_range]
    constructor
    · rintro ⟨i, hi, rfl⟩; omega
    · rintro ⟨h1, h2, h3⟩; exact ⟨p - a / 4096, by omega, by omega⟩

theorem CadEntry.coversPage_iff (e : CadEntry) (p : Nat) :
    e.coversPage p = true ↔ e.pages ≠ 0 ∧ e.base.toNat ≤ p ∧ p < e.base.toNat + e.pages.toNat := by
  simp [CadEntry.coversPage, and_assoc]

/-- The lowest-numbered covering entry of a page decides it (R621). -/
theorem cadPage_iff (es : List CadEntry) (cls p : Nat) (w : Bool) :
    cadPage es cls p w = true ↔ ∃ (k : Nat) (e : CadEntry), es[k]? = some e ∧ e.coversPage p = true ∧ e.grants cls w = true ∧
      ∀ (j : Nat) (d : CadEntry), j < k → es[j]? = some d → ¬d.coversPage p = true := by
  unfold cadPage
  constructor
  · intro h
    split at h
    next e he =>
      obtain ⟨hcov, k, hk, hek, hlow⟩ := List.find?_eq_some_iff_getElem.mp he
      refine ⟨k, e, by rw [List.getElem?_eq_getElem hk, hek], hcov, h, fun j d hj hd => ?_⟩
      obtain ⟨hjl, rfl⟩ := List.getElem?_eq_some_iff.mp hd
      simpa using hlow j hj
    · exact absurd h (by simp)
  · rintro ⟨k, e, hk, hcov, hgrant, hlow⟩
    obtain ⟨hkl, hek⟩ := List.getElem?_eq_some_iff.mp hk
    have hfind : es.find? (fun e => e.coversPage p) = some e :=
      List.find?_eq_some_iff_getElem.mpr ⟨hcov, k, hkl, hek, fun j hj => by
        simpa using hlow j es[j] hj (List.getElem?_eq_getElem _)⟩
    rw [hfind]
    exact hgrant

theorem cadDenied_eq_none_iff (s : State) (cls a n : Nat) (w : Bool) :
    s.cadDenied cls a n w = none ↔ ∀ p ∈ pages a n, s.cad.locked = true ∧ cadPage s.cad.entries cls p w = true := by
  simp [State.cadDenied, List.find?_eq_none]

/-- Settles O53: an unlocked Cadastre denies the first page of any access, and a locked one asks each page's lowest covering
entry. -/
theorem cadastreDecidesByLowestEntry : Obligations.CadastreDecidesByLowestEntry := by
  unfold Obligations.CadastreDecidesByLowestEntry
  intro s cls a n w
  refine ⟨fun hopen hn hnone => ?_, fun hlock => ?_⟩
  · have hfirst : a / 4096 ∈ pages a n := mem_pages.mpr ⟨le_rfl, by omega, hn⟩
    have := ((cadDenied_eq_none_iff ..).mp hnone _ hfirst).1
    simp [hopen] at this
  · rw [cadDenied_eq_none_iff]
    simp only [hlock, true_and, mem_pages, cadPage_iff, CadEntry.coversPage_iff, and_imp, and_assoc]

end Sys2Proof.Machine
end

section
/-!
What a report leaves of the parts it may change: the sequencer but for SERVICE_N's latch, the Handler but for its platform
events, the Field book but for the records it is given and REPLACE, the Cadastre but for its denial counts (R623, R672 to R680,
R693), and everything sent before it.
-/
namespace Sys2Proof.Machine
open Sys2Proof

/-- What a report leaves of the sequencer, the Handler, the Field book and the Cadastre. -/
structure Spared where
  sup : Sup
  hnd : Hnd
  fb : FieldBook
  cad : Cad

def State.spared (s : State) : Spared where
  sup := { s.sup with service := false }
  hnd := { s.hnd with events := [], nextEvent := 0 }
  fb := { s.fb with queue := [], pending := [], pendingDropped := 0, work := { s.fb.work with replace := 0 } }
  cad := { s.cad with denyCount := 0, lastPage := 0, lastClass := 0, lastWrite := false, denyTimes := [] }

/-- `t` spares what a report spares, and what was sent before it stays. -/
structure Spares (s t : State) : Prop where
  spared : t.spared = s.spared
  out : s.out <+: t.out

namespace Spares

variable {s t u : State}

theorem rfl' (s : State) : Spares s s := ⟨rfl, List.prefix_refl _⟩

theorem trans (h : Spares s t) (k : Spares t u) : Spares s u := ⟨k.spared.trans h.spared, h.out.trans k.out⟩

theorem foldl {α : Type} (g : State → α → State) (h : ∀ s a, Spares s (g s a)) (xs : List α) (s : State) :
    Spares s (xs.foldl g s) :=
  List.foldlRecOn (motive := Spares s) _ _ (rfl' s) fun t ht a _ => ht.trans (h t a)

/-- What is spared, where only parts that no report touches and its own share have changed. -/
theorem of_out (h : t.spared = s.spared) (ho : t.out = s.out) : Spares s t := ⟨h, ho ▸ List.prefix_refl _⟩

/-- An operation that begins where its own share has changed. -/
theorem after (h : Spares t u) (hs : t.spared = s.spared) (ho : t.out = s.out) : Spares s u := (of_out hs ho).trans h

theorem sup {α : Type} (h : Spares s t) (f : Sup → α) (hf : ∀ x, f { x with service := false } = f x) : f t.sup = f s.sup := by
  rw [← hf t.sup, ← hf s.sup]; exact congrArg (fun x => f x.sup) h.spared

theorem hnd {α : Type} (h : Spares s t) (f : Hnd → α) (hf : ∀ x, f { x with events := [], nextEvent := 0 } = f x) :
    f t.hnd = f s.hnd := by
  rw [← hf t.hnd, ← hf s.hnd]; exact congrArg (fun x => f x.hnd) h.spared

theorem fb {α : Type} (h : Spares s t) (f : FieldBook → α)
    (hf : ∀ x, f { x with queue := [], pending := [], pendingDropped := 0, work := { x.work with replace := 0 } } = f x) :
    f t.fb = f s.fb := by
  rw [← hf t.fb, ← hf s.fb]; exact congrArg (fun x => f x.fb) h.spared

theorem cad {α : Type} (h : Spares s t) (f : Cad → α)
    (hf : ∀ x, f { x with denyCount := 0, lastPage := 0, lastClass := 0, lastWrite := false, denyTimes := [] } = f x) :
    f t.cad = f s.cad := by
  rw [← hf t.cad, ← hf s.cad]; exact congrArg (fun x => f x.cad) h.spared

end Spares

theorem emit_spares (s : State) (o : Out) : Spares s (s.emit o) := ⟨rfl, List.prefix_append _ _⟩

theorem emitIf_spares (s : State) (b : Bool) (o : Out) : Spares s (s.emitIf b o) := by
  cases b
  · exact .rfl' s
  · exact emit_spares s o

theorem platformEvent_spares (s : State) (c : Nat) (b : List Byte) : Spares s (s.platformEvent c b) := by
  unfold State.platformEvent
  split
  · exact .rfl' s
  · split
    · exact .rfl' s
    · exact (emitIf_spares _ _ _).after rfl rfl

theorem raiseAlert_spares (s : State) (n : Nat) : Spares s (s.raiseAlert n) :=
  (Spares.foldl _ (fun t _ => platformEvent_spares t _ _) _ _).after rfl rfl

theorem raiseReplace_spares (s : State) (n : Nat) : Spares s (s.raiseReplace n) := by
  unfold State.raiseReplace
  split
  · exact .rfl' s
  · exact (raiseAlert_spares _ _).after rfl rfl

theorem raiseFor_spares (s : State) (e : Ev) : Spares s (s.raiseFor e) :=
  (raiseAlert_spares ..).trans (raiseReplace_spares ..)

theorem setFn_spares (s : State) (f : Nat) (x : Fn) : Spares s (s.setFn f x) := .of_out rfl rfl

theorem msix_spares (s : State) (f v : Nat) : Spares s (s.msix f v) := by
  unfold State.msix
  dsimp only
  split
  · exact .rfl' s
  · split
    · exact setFn_spares ..
    · exact emit_spares ..

theorem write_spares (s : State) (a : Nat) (d : List Byte) : Spares s (s.write a d) := by
  unfold State.write
  split <;> exact .of_out rfl rfl

theorem ringPut_spares (s : State) (f : Nat) (r : Rec) : Spares s (s.ringPut f r) := by
  unfold State.ringPut
  dsimp only
  split
  · exact .rfl' s
  · exact setFn_spares ..
  · exact setFn_spares ..
  · generalize ht : (if (s.fn f).ring.host then s.hostWrite _ _ _ else s.write _ _) = t
    have hput : Spares s t := by
      rw [← ht]
      split
      · exact emitIf_spares ..
      · exact write_spares ..
    split
    · exact hput.trans ((setFn_spares ..).trans (msix_spares ..))
    · exact hput.trans (setFn_spares ..)

theorem fieldBookPut_spares (s : State) (c : ErrClass) (r : Rec) : Spares s (s.fieldBookPut c r) := by
  unfold State.fieldBookPut
  (repeat' split) <;> exact .of_out rfl rfl

theorem countDenial_spares (s : State) (c p : Nat) (w : Bool) : Spares s (s.countDenial c p w).2 := .of_out rfl rfl

theorem ringStep_spares (rep : Ev → State → State) (hrep : ∀ e s, Spares s (rep e s)) (r : Rec) (t : State) (f : Nat) :
    Spares t (ringStep rep r t f) := by
  unfold ringStep
  dsimp only
  split
  next p _ =>
    have hden : Spares t ((t.ringPut f r).countDenial f p true).2 := (ringPut_spares ..).trans (countDenial_spares ..)
    split
    · exact (hden.trans (hrep ..)).trans (hrep ..)
    · exact hden.trans (hrep ..)
  · exact ringPut_spares ..

theorem reportWith_spares (n : Nat) : ∀ (e : Ev) (s : State), Spares s (reportWith n e s) := by
  induction n with
  | zero => exact fun _ s => .rfl' s
  | succ n ih =>
    intro e s
    unfold reportWith
    dsimp only
    split
    · exact (raiseFor_spares s e).trans (.of_out rfl rfl)
    · refine Spares.trans ?_ (Spares.foldl _ (ringStep_spares _ ih _) _ _)
      have hput : ∀ t c r, t.spared = (s.raiseFor e).spared → t.out = (s.raiseFor e).out →
          Spares s (State.fieldBookPut t c r) := fun t c r hs ho =>
        (raiseFor_spares s e).trans ((fieldBookPut_spares t c r).after hs ho)
      split
      · refine Spares.trans ?_ (platformEvent_spares _ _ _)
        exact hput _ _ _ rfl rfl
      · exact hput _ _ _ rfl rfl

/-! ### The shared report, of a class that leaves the module running -/

section
variable {s u : State} {e : Ev} (hcls : e.class ≠ .moduleFatal)
include hcls

theorem report_spares (u : State) : Spares u (u.report e) := by
  rw [report_eq u e fun h => absurd h hcls]
  exact reportWith_spares 3 e u

theorem report_keeps (u : State) : Keeps reportParts u (u.report e) := by
  rw [report_eq u e fun h => absurd h hcls]
  exact reportWith_keeps 3 e u

/-- A report after changes of other parts changes those and its own. -/
theorem report_keeps_of {l m : List Part} (h : Keeps l s u) (hl : ∀ p ∈ l, p ∈ m) (hm : ∀ p ∈ reportParts, p ∈ m) :
    Keeps m s (u.report e) := (h.mono hl).trans' ((report_keeps hcls u).mono hm)

theorem report_records (hfns : u.fns = s.fns) (herl : u.erl = s.erl) :
    Records s (u.report e) e.err e.class e.unit e.detail := by
  rw [report_eq u e fun h => absurd h hcls]
  exact records_of_before (reportWith_records 2 e u) (fun h => (ringsAtHost_congr hfns).trans h) herl

end

end Sys2Proof.Machine
end

section
/-!
The SMBus status commands, RETRY, the TAP, the recheck of the slot and the readback (chapters 16 and 17).
-/
namespace Sys2Proof.Machine
open Sys2Proof

/-! ### Status commands (Table 17.3) -/

theorem emitIf_true (s : State) (o : Out) : s.emitIf true o = s.emit o := rfl

/-- A status command is answered while somebody answers SMBus. -/
theorem answer_of_up {s : State} (h : s.smbusUp = true) (d : List Byte) : s.answer d = .next (s.emit (.smbusRead d)) := by
  simp only [State.answer, h, emitIf_true]

theorem execStatusCause_of_other {s : State} (hhold : s.sup.mstate ≠ .hold) (hwake : s.sup.mstate ≠ .wake) :
    execStatusCause s = s.answer [0] := by
  unfold execStatusCause
  split
  · exact absurd ‹_› hhold
  · exact absurd ‹_› hwake
  · rfl

theorem execStatusRrCount_of_valid {s : State} (hvalid : s.sup.rr.valid = true) (hkept : s.sup.rr.cancelled = false) :
    execStatusRrCount s = s.answer (natLe 2 s.sup.rr.records.length) := by
  simp only [execStatusRrCount, hvalid, hkept, Bool.not_false, Bool.and_self, if_true]

theorem execStatusRrCount_of_none {s : State} (h : s.sup.rr.valid = false ∨ s.sup.rr.cancelled = true) :
    execStatusRrCount s = s.answer [0, 0] := by
  have hno : (s.sup.rr.valid && !s.sup.rr.cancelled) = false := by
    obtain h | h := h <;> simp [h]
  simp only [execStatusRrCount, hno, Bool.false_eq_true, if_false]
  rfl

/-! ### RETRY (R592) -/

section
variable {s : State} (hup : s.smbusUp = true)
include hup

theorem exec_retry_other {d : Byte} (hd : d ≠ 0xA5) : exec (.retry d) s = .next (s.emit .smbusNack) := by
  change execRetry d s = _
  simp only [execRetry, hup, Bool.not_true, Bool.false_eq_true, if_false, ne_eq, hd, not_false_eq_true, if_true]

theorem exec_retry_outside_hold (h : s.sup.mstate ≠ .hold) : exec (.retry 0xA5) s = .next (s.emit .smbusAck) := by
  change execRetry 0xA5 s = _
  simp [execRetry, hup, h]

theorem exec_retry_refused (h : s.sup.mstate = .hold) (hrefused : s.retryRefused = true) :
    exec (.retry 0xA5) s = .next ((s.emit .smbusAck).report { blk := .sup, nn := 10 }) := by
  change execRetry 0xA5 s = _
  have hrefused' : (s.emit .smbusAck).retryRefused = true := hrefused
  simp [execRetry, hup, h, hrefused']

theorem exec_retry_accepted (h : s.sup.mstate = .hold) (hopen : s.retryRefused = false) :
    exec (.retry 0xA5) s = .next ((s.emit .smbusAck).dropAlert (2 ^ 0)).wake := by
  change execRetry 0xA5 s = _
  have hopen' : (s.emit .smbusAck).retryRefused = false := hopen
  simp [execRetry, hup, h, hopen']

end

/-- The trip latch, or a boot failure less than 10 s ago, stands against RETRY. -/
theorem retryRefused_iff (s : State) : s.retryRefused = true ↔
    s.sup.tripLatch = true ∨ (s.sup.holdCause = 0x20 ∧ ∃ b, s.sup.bootFailAt = some b ∧ s.now < b + 10000000000) := by
  simp [State.retryRefused, Option.any_eq_true]

theorem toState_mstate (s : State) (m : ModState) : (s.toState m).sup.mstate = m := by
  unfold State.toState
  split
  · assumption
  · rw [← (smbusSettled_keeps _ _ .sup (by decide)).symm, ← (platformEvent_keeps _ _ _ .sup (by decide)).symm]

/-- Entry to WAKE is the first attempt's step 0 (R588). -/
theorem wake_sup (s : State) : s.wake.sup.mstate = .wake ∧ s.wake.sup.attempts = 1 ∧ s.wake.sup.wakeStep = 0 :=
  ⟨toState_mstate _ _, rfl, rfl⟩

theorem statusCommandsAnswer : StatusCommandsAnswer := by
  unfold StatusCommandsAnswer
  intro s hup
  refine ⟨?_, fun d hd => exec_retry_other hup hd, fun h hopen => ?_, fun h hagainst => ?_,
    fun h => exec_retry_outside_hold hup h, ?_, ?_, ?_⟩
  · rintro i d (⟨rfl, rfl⟩ | ⟨rfl, h, rfl⟩ | ⟨rfl, h, rfl⟩ | ⟨rfl, hhold, hwake, rfl⟩ | ⟨rfl, rfl⟩ | ⟨rfl, rfl⟩ | ⟨rfl, rfl⟩ |
      ⟨rfl, rfl⟩ | ⟨rfl, hvalid, hkept, rfl⟩ | ⟨rfl, h, rfl⟩) <;> rw [← answer_of_up hup]
    · rfl
    · change execStatusCause s = _; simp only [execStatusCause, h]
    · change execStatusCause s = _; simp only [execStatusCause, h]
    · exact execStatusCause_of_other hhold hwake
    · rfl
    · rfl
    · rfl
    · rfl
    · exact execStatusRrCount_of_valid hvalid hkept
    · exact execStatusRrCount_of_none h
  · exact ⟨_, exec_retry_accepted hup h hopen, wake_sup _⟩
  · have hcls : ({ blk := .sup, nn := 10 } : Ev).class ≠ .moduleFatal := by decide
    refine ⟨_, exec_retry_refused hup h ((retryRefused_iff s).mpr hagainst), ?_, report_records hcls rfl rfl,
      report_keeps_of hcls (emit_keeps s _) (by decide) (by decide)⟩
    exact ((report_spares hcls _).sup (·.mstate) fun _ => rfl).trans h
  · intro h
    exact congrArg Host.Outcome.next (by rw [hup, h]; rfl)
  · intro h
    exact congrArg Host.Outcome.next (by rw [hup, h]; rfl)
  · exact congrArg Host.Outcome.next (by rw [hup]; rfl)

/-! ### The TAP (R575, R576, R634) -/

theorem tapLoads_of_ne_one (s : State) {n : Nat} (hn : n ≠ 1) : s.tapLoads n =
    if n = 2 then .sample else if n = 3 ∧ s.sup.mstate = .hold then .extest
      else if n = 4 ∧ s.sup.mstate = .hold ∧ s.fb.diag = true then .fbRead else .bypass := by
  unfold State.tapLoads
  split
  case h_1 => exact absurd rfl hn
  all_goals simp_all

theorem tapLoads_ne_idcode (s : State) {n : Nat} (hn : n ≠ 1) : s.tapLoads n ≠ .idcode := by
  rw [tapLoads_of_ne_one s hn]
  (repeat' split) <;> simp

/-- The sequencer's state with another instruction in the TAP. -/
def State.tapLoaded (s : State) (i : TapInstr) : State := { s with sup := { s.sup with tap := i } }

theorem tapLoaded_keeps (s : State) (i : TapInstr) : Keeps [.sup] s (s.tapLoaded i) := by
  intro p hp; cases p <;> simp_all [Part.same, State.tapLoaded]

section
variable {s : State} (hstandby : s.sup.standby = true)
include hstandby

theorem exec_tapInstructionLoad (n : Nat) : exec (.tapInstructionLoad n) s =
    .next ((s.tapLoaded (s.tapLoads n)).emitIf (s.tapLoads n == .idcode) (.tapData s.idcode)) :=
  if_neg (by simp [hstandby])

theorem exec_tapInstructionLoad_other {n : Nat} (hn : n ≠ 1) :
    exec (.tapInstructionLoad n) s = .next (s.tapLoaded (s.tapLoads n)) := by
  rw [exec_tapInstructionLoad hstandby, beq_false_of_ne (tapLoads_ne_idcode s hn)]
  rfl

end

/-- The Field book with FB_READ's index updated. -/
def State.indexUpdated (s : State) (n : Nat) : State := { s.takeFree with fb := { s.fb with tapIndex := n % 2 ^ 24 } }

theorem indexUpdated_keeps (s : State) (n : Nat) : Keeps [.fb, .freeCount] s (s.indexUpdated n) := by
  intro p hp; cases p <;> simp_all [Part.same, State.indexUpdated]

/-- FB_READ's answer: a word the spec leaves open, with the updated index beside it. -/
def State.fbWord (s : State) (n : Nat) : DWord :=
  BitVec.ofNat 64 (Config.freeNat s.freeCount % 2 ^ 32 + n % 2 ^ 24 * 2 ^ 32)

theorem fbWord_high (s : State) (n : Nat) : (s.fbWord n).toNat / 2 ^ 32 = n % 2 ^ 24 := by
  have hword : Config.freeNat s.freeCount % 2 ^ 32 < 2 ^ 32 := Nat.mod_lt _ (by decide)
  simp only [State.fbWord, BitVec.toNat_ofNat]
  omega

theorem exec_fbRead {s : State} (n : Nat) (htap : s.sup.tap = .fbRead) (hhold : s.sup.mstate = .hold)
    (hdiag : s.fb.diag = true) :
    exec (.fbRead n) s = .next ((s.indexUpdated n).emit (.tapData (s.fbWord n))) :=
  if_neg (by simp [htap, hhold, hdiag])

/-! ### The recheck of the slot and the readback (R557, R582) -/

/-- SLOT_ID read again. -/
def State.slotRead (s : State) (n : Nat) : State := { s with pins := { s.pins with slotId := BitVec.ofNat 6 n } }

theorem slotRead_keeps (s : State) (n : Nat) : Keeps [.pins] s (s.slotRead n) := by
  intro p hp; cases p <;> simp_all [Part.same, State.slotRead]

/-- The slot's change is marked for the power cycle. -/
def State.slotMoved (s : State) : State := { s with sup := { s.sup with slotChanged := true } }

theorem slotMoved_keeps (s : State) : Keeps [.sup] s s.slotMoved := by
  intro p hp; cases p <;> simp_all [Part.same, State.slotMoved]

theorem exec_slotIdRecheck_again {s : State} (n : Nat) (hagain : s.sup.slotChanged = true) :
    exec (.slotIdRecheck n) s = .next (s.slotRead n) :=
  if_pos (by simp [hagain])

section
variable {s : State} {n : Nat} (halive : s.alive = true) (hrun : s.hnd.running = true)
  (hslot : BitVec.ofNat 6 n ≠ s.sup.slotSample)
include halive hrun hslot

theorem exec_slotIdRecheck_first (hfirst : s.sup.slotChanged = false) :
    exec (.slotIdRecheck n) s = .next ((s.slotRead n).slotMoved.report { blk := .sys, nn := 42 }) := by
  refine if_neg ?_
  simp only [hrun, hfirst, beq_false_of_ne hslot, Bool.not_true, Bool.or_false, Bool.not_eq_true', Bool.not_eq_false]
  exact halive

end

/-- A readback that does not agree stands until it is read. -/
def State.readbackFailed (s : State) : State := { s with sup := { s.sup with readbackFault := true } }

theorem readbackFailed_keeps (s : State) : Keeps [.sup] s s.readbackFailed := by
  intro p hp; cases p <;> simp_all [Part.same, State.readbackFailed]

theorem exec_readbackCheck_mismatch {s : State} (hstandby : s.sup.standby = true) :
    exec (.readbackCheck true) s = .next (s.readbackFailed.report { blk := .sys, nn := 43 }) :=
  if_neg (by simp [hstandby])

theorem exec_readbackCheck_match (s : State) : exec (.readbackCheck false) s = .next s := if_pos (by simp)

theorem tapSlotAndReadback : TapSlotAndReadback := by
  unfold TapSlotAndReadback
  intro s hstandby
  refine ⟨⟨_, exec_tapInstructionLoad hstandby 1, rfl, rfl, ?_⟩, fun n hn => ⟨_, exec_tapInstructionLoad_other hstandby hn,
    tapLoaded_keeps s _, ?_⟩, fun n htap hhold hdiag => ⟨_, exec_fbRead n htap hhold hdiag, rfl, ⟨_, rfl, fbWord_high s n⟩, ?_⟩,
    fun n halive hrun hslot => ⟨fun hfirst => ?_, fun hagain => ?_⟩, ?_, ?_⟩
  · exact ((tapLoaded_keeps s _).mono (by decide)).trans' ((emit_keeps _ _).mono (by decide))
  · rw [tapLoads_of_ne_one s hn]; rfl
  · exact ((indexUpdated_keeps s n).mono (by decide)).trans' ((emit_keeps _ _).mono (by decide))
  · exact ⟨_, exec_slotIdRecheck_first halive hrun hslot hfirst, (report_spares (by decide) _).sup (·.slotChanged) fun _ => rfl,
      report_records (by decide) rfl rfl,
      report_keeps_of (by decide) (((slotRead_keeps s n).mono (m := [.pins, .sup]) (by decide)).trans'
        ((slotMoved_keeps _).mono (by decide))) (by decide) (by decide)⟩
  · exact ⟨_, exec_slotIdRecheck_again n hagain, slotRead_keeps s n⟩
  · exact ⟨_, exec_readbackCheck_mismatch hstandby, (report_spares (by decide) _).sup (·.readbackFault) fun _ => rfl,
      report_records (by decide) rfl rfl, report_keeps_of (by decide) (readbackFailed_keeps s) (by decide) (by decide)⟩
  · exact exec_readbackCheck_match s

/-- Settles O43: each status command is its answer's equation and RETRY one equation a case; the TAP loads what the module's state
opens; and a report spares what the recheck and the readback have marked. -/
theorem statusCommandsTapAndReadback : Obligations.StatusCommandsTapAndReadback :=
  ⟨statusCommandsAnswer, tapSlotAndReadback⟩

end Sys2Proof.Machine
end

section
/-!
Profile changes, the power limiter and a marginal input (chapter 17).
-/
namespace Sys2Proof.Machine
open Sys2Proof

/-! ### Profile changes (R595, R597, R649) -/

/-- The profile asked for. -/
def State.profileAsked (s : State) (p : BitVec 2) : State := { s with sup := { s.sup with profileReq := p } }

/-- A change to a profile under way. -/
def State.profileStarted (s : State) (p : BitVec 2) : State :=
  { s.profileAsked p with sup := { (s.profileAsked p).sup with
      profileBusy := true, profileTarget := p, profileCode := 0, profileBlock := 0 } }

theorem profileStarted_keeps (s : State) (p : BitVec 2) : Keeps [.sup] s (s.profileStarted p) := by
  intro q hq; cases q <;> simp_all [Part.same, State.profileStarted, State.profileAsked]

/-- A refusal shown: its block and its code. -/
def State.profileDenied (s : State) (p : BitVec 2) (blk nn : Nat) : State :=
  { s.profileAsked p with sup := { (s.profileAsked p).sup with
      profileCode := BitVec.ofNat 8 nn, profileBlock := BitVec.ofNat 2 blk } }

theorem profileDenied_keeps (s : State) (p : BitVec 2) (blk nn : Nat) : Keeps [.sup] s (s.profileDenied p blk nn) := by
  intro q hq; cases q <;> simp_all [Part.same, State.profileDenied, State.profileAsked]

section
variable {s : State} {n : Nat} (hreach : s.hostReach 0 = true) (hidle : s.sup.profileBusy = false)
include hreach hidle

theorem exec_profileChange : exec (.profileChange 0 n) s =
    match s.profileRefusal (BitVec.ofNat 2 n) with
    | some r => .next ((s.profileAsked (BitVec.ofNat 2 n)).profileRefused 0 r)
    | none => .next (s.profileStarted (BitVec.ofNat 2 n)) :=
  (if_neg (by simp [hreach])).trans (if_neg (by simp [hidle]))

theorem exec_profileChange_accepted (h : s.profileRefusal (BitVec.ofNat 2 n) = none) :
    exec (.profileChange 0 n) s = .next (s.profileStarted (BitVec.ofNat 2 n)) := by
  rw [exec_profileChange hreach hidle, h]

theorem exec_profileChange_invalid (h : BitVec.ofNat 2 n = 3 ∨ BitVec.ofNat 2 n = s.sup.profile) :
    exec (.profileChange 0 n) s =
      .next ((s.profileDenied (BitVec.ofNat 2 n) 1 6).report { blk := .sup, nn := 6, func := some 0 }) := by
  rw [exec_profileChange hreach hidle, State.profileRefusal, if_pos h]
  rfl

end

/-- Writes to the thermal units of a list, each its own, stand there. -/
theorem thmUnit_foldl_setThmUnit (x : Nat → ThmUnit) (l : List Nat) (s : State) {u : Nat} (hu : u ∈ l) :
    (l.foldl (fun t v => t.setThmUnit v (x v)) s).thmUnit u = x u := by
  induction l using List.reverseRecOn with
  | nil => exact absurd hu (List.not_mem_nil)
  | append_singleton l v ih =>
    rw [List.foldl_append, List.foldl_cons, List.foldl_nil]
    by_cases h : u = v
    · subst h; exact State.thmUnit_setThmUnit _ _ _
    · have hl : u ∈ l := by simpa [h] using hu
      rw [← ih hl]
      simp only [State.thmUnit, State.setThmUnit, Tab.getD, Tab.find?_put_other _ _ _ _ h]
      rfl

theorem setThmUnit_keeps (s : State) (u : Nat) (x : ThmUnit) : Keeps [.thm] s (s.setThmUnit u x) := by
  intro q hq; cases q <;> simp_all [Part.same]

theorem capThrs_keeps (s old : State) : Keeps [.thm] s (s.capThrs old) :=
  Keeps.foldl _ _ (fun t _ => setThmUnit_keeps t _ _) _ _

theorem profileCeiling_congr {s t : State} (hsup : t.sup = s.sup) (hfuses : t.fuses = s.fuses) :
    t.profileCeiling = s.profileCeiling := by
  simp only [State.profileCeiling, hsup, hfuses]

/-- Every core's ceiling is at most the profile's. -/
theorem capThrs_le (s old : State) {u : Nat} (hu : u < 144) :
    ((s.capThrs old).thmUnit u).thr.toNat ≤ (s.capThrs old).profileCeiling := by
  have hk := capThrs_keeps s old
  rw [profileCeiling_congr (hk .sup (by decide)) (hk .fuses (by decide)), State.capThrs,
    thmUnit_foldl_setThmUnit _ _ _ (List.mem_range.mpr hu), BitVec.toNat_ofNat]
  exact (Nat.mod_le _ _).trans (min_le_right _ _)

/-- The profile asked for comes into force. -/
def State.profileSwitched (s : State) : State :=
  { s with sup := { s.sup with profile := s.sup.profileTarget, profileBusy := false } }

/-- A signature that changes with the profile shows the one before it. -/
def State.profileInForce (s : State) : State :=
  if s.profileSwitched.numsig = s.numsig then s.profileSwitched
  else { s.profileSwitched with sys := { numsigPrev := s.numsig, numsigTime := s.epoch } }

theorem profileInForce_sup (s : State) :
    s.profileInForce.sup = { s.sup with profile := s.sup.profileTarget, profileBusy := false } := by
  unfold State.profileInForce; split <;> rfl

theorem profileInForce_keeps (s : State) : Keeps [.sup, .sys] s s.profileInForce := by
  unfold State.profileInForce
  split <;> (intro q hq; cases q <;> simp_all [Part.same, State.profileSwitched])

theorem numsig_congr {s t : State} (hsup : t.sup = s.sup) (hfuses : t.fuses = s.fuses) : t.numsig = s.numsig := by
  simp only [State.numsig, State.tier, hsup, hfuses]

theorem profileInForce_sys {s : State} (h : s.profileInForce.numsig ≠ s.numsig) :
    s.profileInForce.sys.numsigPrev = s.numsig ∧ s.profileInForce.sys.numsigTime = s.epoch := by
  unfold State.profileInForce at h ⊢
  split at h
  next heq => exact absurd heq h
  next hne => rw [if_neg hne]; exact ⟨rfl, rfl⟩

theorem exec_profileChangeComplete {s : State} (hup : s.sup.mstate.powered = true) (hbusy : s.sup.profileBusy = true) :
    exec .profileChangeComplete s = .next (s.profileInForce.capThrs s) :=
  if_neg (by simp [hup, hbusy])

/-! ### The power limiter (R596) -/

theorem profileCeiling_le (s : State) : s.profileCeiling ≤ 64 := by
  unfold State.profileCeiling
  (repeat' split) <;> omega

/-- The ceiling that the limiter sets next, in 25 MHz units. -/
def State.limiterNext (s : State) (w : Nat) : Nat :=
  let now := min s.sup.limiter.toNat s.profileCeiling
  if s.limitMw < w * 1000 then max 16 (now - 1)
  else if w * 100000 < s.limitMw * 95 then (if s.profileCeiling ≤ now + 1 then 64 else now + 1)
  else s.sup.limiter.toNat

/-- The limiter's step done. -/
def State.limited (s : State) (w : Nat) : State :=
  { s with sup := { s.sup with
      powerW := satNat 10 w, limiter := BitVec.ofNat 7 (s.limiterNext w)
      capActive := s.sup.capActive && decide (s.limiterNext w < s.profileCeiling) } }

theorem limited_keeps (s : State) (w : Nat) : Keeps [.sup] s (s.limited w) := by
  intro q hq; cases q <;> simp_all [Part.same, State.limited]

theorem exec_powerLimiterStep {s : State} (w : Nat) (hup : s.sup.mstate.powered = true) :
    exec (.powerLimiterStep w) s = .next (s.limited w) :=
  if_neg (by simp [hup])

section
variable {s : State} {w now : Nat} (hnow : now = min s.sup.limiter.toNat s.profileCeiling)
include hnow

theorem limiter_lowers (h : s.limitMw < w * 1000) : (s.limited w).sup.limiter.toNat = max 16 (now - 1) := by
  have hle := profileCeiling_le s
  have hnext : s.limiterNext w = max 16 (now - 1) := by rw [hnow]; exact if_pos h
  simp only [State.limited, hnext, BitVec.toNat_ofNat]
  omega

theorem limiter_raises (h : w * 100000 < s.limitMw * 95) (hroom : now + 1 < s.profileCeiling) :
    (s.limited w).sup.limiter.toNat = now + 1 := by
  have hle := profileCeiling_le s
  have hnext : s.limiterNext w = now + 1 := by
    rw [hnow] at hroom ⊢
    exact (if_neg (by omega)).trans ((if_pos h).trans (if_neg (by omega)))
  simp only [State.limited, hnext, BitVec.toNat_ofNat]
  omega

end

theorem limiter_stays {s : State} {w : Nat} (hle : w * 1000 ≤ s.limitMw) (hge : s.limitMw * 95 ≤ w * 100000) :
    (s.limited w).sup.limiter = s.sup.limiter := by
  have hnext : s.limiterNext w = s.sup.limiter.toNat := (if_neg (by omega)).trans (if_neg (by omega))
  simp only [State.limited, hnext, BitVec.ofNat_toNat, BitVec.setWidth_eq]

/-- CAP_ACTIVE set, and its event counted. -/
def State.capMarked (s : State) : State :=
  { s with sup := { s.sup with capActive := true, capEvents := satInc s.sup.capEvents } }

theorem capMarked_keeps (s : State) : Keeps [.sup] s s.capMarked := by
  intro q hq; cases q <;> simp_all [Part.same, State.capMarked]

theorem exec_powerLimitPersist {s : State} (hup : s.sup.mstate.powered = true) (hfirst : s.sup.capActive = false)
    (hlow : s.sup.limiter.toNat < s.profileCeiling) :
    exec .powerLimitPersist s = .next (s.capMarked.report { blk := .sup, nn := 8 }) :=
  if_neg (by simp [hup, hfirst, hlow])

/-! ### A marginal input (R716) -/

/-- VIN48 measured. -/
def State.vinRead (s : State) (mv : Nat) : State := { s with pins := { s.pins with vinMv := mv } }

theorem vinRead_keeps (s : State) (mv : Nat) : Keeps [.pins] s (s.vinRead mv) := by
  intro q hq; cases q <;> simp_all [Part.same, State.vinRead]

/-- The episode of a marginal input begins or ends. -/
def State.vinEpisode (s : State) (b : Bool) : State := { s with sup := { s.sup with vinReported := b } }

theorem vinEpisode_keeps (s : State) (b : Bool) : Keeps [.sup] s (s.vinEpisode b) := by
  intro q hq; cases q <;> simp_all [Part.same, State.vinEpisode]

theorem vinRead_vinEpisode_keeps (s : State) (mv : Nat) (b : Bool) : Keeps [.pins, .sup] s ((s.vinRead mv).vinEpisode b) :=
  ((vinRead_keeps s mv).mono (by decide)).trans' ((vinEpisode_keeps _ b).mono (by decide))

section
variable {s : State} {mv : Nat}

theorem exec_vinMarginalTimeout_good (hlo : 40000 ≤ mv) (hhi : mv ≤ 60000) :
    exec (.vinMarginalTimeout mv) s = .next ((s.vinRead mv).vinEpisode false) :=
  if_pos ⟨hlo, hhi⟩

variable (hmarginal : mv < 40000 ∨ 60000 < mv)
include hmarginal

theorem exec_vinMarginalTimeout_again (hagain : s.sup.vinReported = true) :
    exec (.vinMarginalTimeout mv) s = .next (s.vinRead mv) :=
  (if_neg (by omega)).trans (if_pos (.inr (.inl hagain)))

theorem exec_vinMarginalTimeout_first (hon : s.sup.mstate ≠ .off) (hlo : 38000 ≤ mv) (hhi : mv ≤ 63000)
    (hfirst : s.sup.vinReported = false) :
    exec (.vinMarginalTimeout mv) s = .next (((s.vinRead mv).vinEpisode true).report { blk := .sys, nn := 44 }) :=
  (if_neg (by omega)).trans (if_neg (by simp [hon, hfirst]; omega))

end

/-- Settles O44: a change of profile, the limiter's step and a marginal input are each one equation a case; a report spares what
they set, and every core's ceiling is written at the profile's at most. -/
theorem profilesAndPowerLimits : Obligations.ProfilesAndPowerLimits := by
  unfold Obligations.ProfilesAndPowerLimits
  intro s
  refine ⟨fun n hreach hidle => ⟨fun h => ?_, fun h => ?_⟩, fun hup hbusy => ?_, fun w now hup hnow => ?_,
    fun hup hfirst hlow => ?_, fun mv hon hlo hhi => ⟨fun hm hfirst => ?_, fun hm hagain => ?_, fun hlo hhi => ?_⟩⟩
  · exact ⟨_, exec_profileChange_accepted hreach hidle h, rfl, rfl, rfl, rfl, profileStarted_keeps s _⟩
  · have hsp := report_spares (e := { blk := .sup, nn := 6, func := some 0 }) (by decide) (s.profileDenied (BitVec.ofNat 2 n) 1 6)
    exact ⟨_, exec_profileChange_invalid hreach hidle h, hsp.sup (·.profileCode) fun _ => rfl,
      hsp.sup (·.profileBlock) fun _ => rfl, hsp.sup (·.profile) fun _ => rfl,
      (hsp.sup (·.profileBusy) fun _ => rfl).trans hidle, report_records (by decide) rfl rfl,
      report_keeps_of (by decide) (profileDenied_keeps s _ 1 6) (by decide) (by decide)⟩
  · have hk := capThrs_keeps s.profileInForce s
    have hsup : (s.profileInForce.capThrs s).sup = s.profileInForce.sup := hk .sup (by decide)
    refine ⟨_, exec_profileChangeComplete hup hbusy, ?_, ?_, fun h => ?_, fun u hu => capThrs_le _ _ hu,
      ((profileInForce_keeps s).mono (by decide)).trans' (hk.mono (by decide))⟩
    · rw [hsup, profileInForce_sup]
    · rw [hsup, profileInForce_sup]
    · rw [numsig_congr hsup (hk .fuses (by decide))] at h
      rw [hk .sys (by decide)]
      exact profileInForce_sys h
  · exact ⟨_, exec_powerLimiterStep w hup, limiter_lowers hnow, limiter_stays, limiter_raises hnow, limited_keeps s w⟩
  · have hsp := report_spares (e := { blk := .sup, nn := 8 }) (by decide) s.capMarked
    exact ⟨_, exec_powerLimitPersist hup hfirst hlow, hsp.sup (·.capActive) fun _ => rfl,
      hsp.sup (·.capEvents) fun _ => rfl, report_records (by decide) rfl rfl,
      report_keeps_of (by decide) (capMarked_keeps s) (by decide) (by decide)⟩
  · exact ⟨_, exec_vinMarginalTimeout_first hm hon hlo hhi hfirst,
      (report_spares (by decide) _).sup (·.vinReported) fun _ => rfl, report_records (by decide) rfl rfl,
      report_keeps_of (by decide) (vinRead_vinEpisode_keeps s mv true) (by decide) (by decide)⟩
  · exact ⟨_, exec_vinMarginalTimeout_again hm hagain, rfl, vinRead_keeps s mv⟩
  · exact ⟨_, exec_vinMarginalTimeout_good hlo hhi, rfl, vinRead_vinEpisode_keeps s mv false⟩

end Sys2Proof.Machine
end

section
/-!
The Handler's answers to MCTP control and PLDM messages, and its platform events (chapter 20).
-/
namespace Sys2Proof.Machine
open Sys2Proof

/-! ### One answer (R692) -/

/-- A message's answer has left on its own transport, with the request's instance ID and the header bytes `h`. -/
structure Replies (s t : State) (smbus : Bool) (b : List Byte) (type : Byte) (h : List Byte) : Prop where
  out : ∃ r, t.out = s.out ++ [.mctp (transportOf smbus) ([type] ++ natLe 1 (byteAt b 1 % 32) ++ h ++ r)]
  keeps : Keeps [.hnd, .erl, .out, .freeCount] s t

/-- A command is answered in every way it may end. -/
def Answered (o : Host.Outcome State Fault Refusal) (s : State) (smbus : Bool) (b : List Byte) (type : Byte)
    (h : List Byte) : Prop :=
  ∃ t, o = .next t ∧ Replies s t smbus b type h

section
variable {s u : State} (smbus : Bool) (b : List Byte)

theorem control_answers (h : Keeps [.hnd, .erl, .freeCount] s u) (cmd : Nat) (resp : List Byte) :
    Answered (.next (u.control smbus b cmd resp)) s smbus b 0 (natLe 1 cmd) := by
  refine ⟨_, rfl, ⟨resp, ?_⟩, (h.mono (by decide)).trans' ((emit_keeps u _).mono (by decide))⟩
  rw [← (h .out (by decide) : u.out = s.out)]
  rfl

theorem pldm_answers (h : Keeps [.hnd, .erl, .freeCount] s u) (type cmd : Nat) (resp : List Byte) :
    Answered (.next (u.pldm smbus b type cmd resp)) s smbus b 1 (natLe 1 type ++ natLe 1 cmd) := by
  refine ⟨_, rfl, ⟨resp, ?_⟩, (h.mono (by decide)).trans' ((emit_keeps u _).mono (by decide))⟩
  rw [← (h .out (by decide) : u.out = s.out)]
  simp [State.pldm]

end

theorem natLe_one (x : Byte) : natLe 1 x.toNat = [x] := by simp [natLe]

theorem takeFree_keeps_answering (s : State) : Keeps [.hnd, .erl, .freeCount] s s.takeFree :=
  (takeFree_keeps s).mono (by decide)

/-! ### The Handler's settings that messages change -/

/-- The endpoint ID of a transport set. -/
def State.eidSet (s : State) (smbus : Bool) (e : BitVec 8) : State :=
  { s with hnd := if smbus then { s.hnd with eidSmbus := e } else { s.hnd with eidPcie := e } }

theorem eidSet_keeps (s : State) (smbus : Bool) (e : BitVec 8) : Keeps [.hnd] s (s.eidSet smbus e) := by
  intro q hq; cases q <;> simp_all [Part.same, State.eidSet]

/-- The terminus ID set. -/
def State.tidSet (s : State) (e : BitVec 8) : State := { s with hnd := { s.hnd with tid := e } }

theorem tidSet_keeps (s : State) (e : BitVec 8) : Keeps [.hnd] s (s.tidSet e) := by
  intro q hq; cases q <;> simp_all [Part.same, State.tidSet]

/-- Event messages end. -/
def State.receiverCleared (s : State) : State := { s with hnd := { s.hnd with receiver := none, events := [] } }

theorem receiverCleared_keeps (s : State) : Keeps [.hnd] s s.receiverCleared := by
  intro q hq; cases q <;> simp_all [Part.same, State.receiverCleared]

/-- Event messages go to an endpoint. -/
def State.receiverSet (s : State) (smbus : Bool) (eid : Nat) : State :=
  { s with hnd := { s.hnd with receiver := some (transportOf smbus, eid) } }

theorem receiverSet_keeps (s : State) (smbus : Bool) (eid : Nat) : Keeps [.hnd] s (s.receiverSet smbus eid) := by
  intro q hq; cases q <;> simp_all [Part.same, State.receiverSet]

theorem clearAlerts_keeps (s : State) (n : Nat) : Keeps [.erl] s (s.clearAlerts n) := by
  intro q hq; cases q <;> simp_all [Part.same, State.clearAlerts, State.dropAlert]

/-! ### MCTP control commands -/

section
variable {s : State} {smbus : Bool} (b : List Byte) (hup : s.mctpUp smbus = true)
include hup

theorem exec_mctpSetEndpointId_valid (hlen : b.length = 5) (hlo : 1 ≤ byteAt b 4) (hhi : byteAt b 4 ≤ 254)
    (hop : byteAt b 3 % 4 < 2) : exec (.mctpSetEndpointId smbus b) s =
      .next ((s.eidSet smbus (BitVec.ofNat 8 (byteAt b 4))).control smbus b 1
        [0x00, 0x00, BitVec.ofNat 8 (byteAt b 4), 0x00]) :=
  (if_neg (by simp [hup])).trans ((if_neg (by simp [hlen])).trans (if_neg (by omega)))

theorem mctpSetEndpointId_answers : Answered (exec (.mctpSetEndpointId smbus b) s) s smbus b 0 [1] := by
  change Answered (execMctpSetEndpointId smbus b s) s smbus b 0 [1]
  rw [execMctpSetEndpointId, if_neg (by simp [hup])]
  dsimp only
  split
  · exact control_answers smbus b (Keeps.rfl' _ s) 1 _
  · split
    · exact control_answers smbus b (Keeps.rfl' _ s) 1 _
    · exact control_answers smbus b ((eidSet_keeps s smbus _).mono (by decide)) 1 _

theorem mctpGetEndpointId_answers : Answered (exec (.mctpGetEndpointId smbus b) s) s smbus b 0 [2] := by
  change Answered (execMctpGetEndpointId smbus b s) s smbus b 0 [2]
  rw [execMctpGetEndpointId, if_pos hup]
  exact control_answers smbus b (Keeps.rfl' _ s) 2 _

theorem mctpGetEndpointUuid_answers : Answered (exec (.mctpGetEndpointUuid smbus b) s) s smbus b 0 [3] := by
  change Answered (execMctpGetEndpointUuid smbus b s) s smbus b 0 [3]
  rw [execMctpGetEndpointUuid, if_pos hup]
  exact control_answers smbus b (Keeps.rfl' _ s) 3 _

theorem mctpGetVersionSupport_answers : Answered (exec (.mctpGetVersionSupport smbus b) s) s smbus b 0 [4] := by
  change Answered (execMctpGetVersionSupport smbus b s) s smbus b 0 [4]
  rw [execMctpGetVersionSupport, if_neg (by simp [hup])]
  split
  · exact control_answers smbus b (Keeps.rfl' _ s) 4 _
  · exact control_answers smbus b (Keeps.rfl' _ s) 4 _
  · exact control_answers smbus b (takeFree_keeps_answering s) 4 _
  · exact control_answers smbus b (Keeps.rfl' _ s) 4 _

theorem mctpGetMessageTypeSupport_answers : Answered (exec (.mctpGetMessageTypeSupport smbus b) s) s smbus b 0 [5] := by
  change Answered (execMctpGetMessageTypeSupport smbus b s) s smbus b 0 [5]
  rw [execMctpGetMessageTypeSupport, if_pos hup]
  exact control_answers smbus b (Keeps.rfl' _ s) 5 _

/-! ### PLDM Type 0 -/

theorem exec_setTid_valid (hlen : b.length = 5) (hlo : 1 ≤ byteAt b 4) (hhi : byteAt b 4 ≤ 254) :
    exec (.setTid smbus b) s = .next ((s.tidSet (BitVec.ofNat 8 (byteAt b 4))).pldm smbus b 0 1 [0x00]) :=
  (if_neg (by simp [hup])).trans ((if_neg (by simp [hlen])).trans (if_neg (by omega)))

theorem setTid_answers : Answered (exec (.setTid smbus b) s) s smbus b 1 [0, 1] := by
  change Answered (execSetTid smbus b s) s smbus b 1 [0, 1]
  unfold execSetTid
  dsimp only
  rw [if_neg (by simp [hup])]
  split
  · exact pldm_answers smbus b (Keeps.rfl' _ s) 0 1 _
  · split
    · exact pldm_answers smbus b (Keeps.rfl' _ s) 0 1 _
    · exact pldm_answers smbus b ((tidSet_keeps s _).mono (by decide)) 0 1 _

theorem getTid_answers : Answered (exec (.getTid smbus b) s) s smbus b 1 [0, 2] := by
  change Answered (execGetTid smbus b s) s smbus b 1 [0, 2]
  rw [execGetTid, if_pos hup]
  exact pldm_answers smbus b (Keeps.rfl' _ s) 0 2 _

theorem getPldmVersion_answers : Answered (exec (.getPldmVersion smbus b) s) s smbus b 1 [0, 3] := by
  change Answered (execGetPldmVersion smbus b s) s smbus b 1 [0, 3]
  unfold execGetPldmVersion
  dsimp only
  rw [if_neg (by simp [hup])]
  split
  · exact pldm_answers smbus b (Keeps.rfl' _ s) 0 3 _
  · split
    · exact pldm_answers smbus b (Keeps.rfl' _ s) 0 3 _
    · exact pldm_answers smbus b (takeFree_keeps_answering s) 0 3 _

theorem getPldmTypes_answers : Answered (exec (.getPldmTypes smbus b) s) s smbus b 1 [0, 4] := by
  change Answered (execGetPldmTypes smbus b s) s smbus b 1 [0, 4]
  rw [execGetPldmTypes, if_pos hup]
  exact pldm_answers smbus b (Keeps.rfl' _ s) 0 4 _

theorem getPldmCommands_answers : Answered (exec (.getPldmCommands smbus b) s) s smbus b 1 [0, 5] := by
  change Answered (execGetPldmCommands smbus b s) s smbus b 1 [0, 5]
  unfold execGetPldmCommands
  dsimp only
  rw [if_neg (by simp [hup])]
  split
  · exact pldm_answers smbus b (Keeps.rfl' _ s) 0 5 _
  · exact pldm_answers smbus b (Keeps.rfl' _ s) 0 5 _

/-! ### PLDM Type 2 -/

theorem setEventReceiver_answers : Answered (exec (.setEventReceiver smbus b) s) s smbus b 1 [2, 4] := by
  change Answered (execSetEventReceiver smbus b s) s smbus b 1 [2, 4]
  rw [execSetEventReceiver, if_neg (by simp [hup])]
  split
  · exact pldm_answers smbus b (Keeps.rfl' _ s) 2 4 _
  · split
    · exact pldm_answers smbus b ((receiverCleared_keeps s).mono (by decide)) 2 4 _
    · exact pldm_answers smbus b ((receiverSet_keeps s smbus _).mono (by decide)) 2 4 _
    · exact pldm_answers smbus b (Keeps.rfl' _ s) 2 4 _

theorem exec_setEventReceiver_valid (hzero : byteAt b 5 = 0) (hone : byteAt b 4 = 1) :
    exec (.setEventReceiver smbus b) s = .next ((s.receiverSet smbus (byteAt b 6)).pldm smbus b 2 4 [0x00]) := by
  change execSetEventReceiver smbus b s = _
  rw [execSetEventReceiver, if_neg (by simp [hup]), if_neg (by simp [hzero]), hone]
  rfl

theorem getSensorReading_answers : Answered (exec (.getSensorReading smbus b) s) s smbus b 1 [2, 0x11] := by
  change Answered (execGetSensorReading smbus b s) s smbus b 1 [2, 0x11]
  rw [execGetSensorReading, if_neg (by simp [hup])]
  split
  · exact pldm_answers smbus b (Keeps.rfl' _ s) 2 0x11 _
  · exact pldm_answers smbus b (Keeps.rfl' _ s) 2 0x11 _

theorem getStateSensorReadings_answers : Answered (exec (.getStateSensorReadings smbus b) s) s smbus b 1 [2, 0x21] := by
  change Answered (execGetStateSensorReadings smbus b s) s smbus b 1 [2, 0x21]
  rw [execGetStateSensorReadings, if_neg (by simp [hup])]
  split
  · exact pldm_answers smbus b (takeFree_keeps_answering s) 2 0x21 _
  · exact pldm_answers smbus b (takeFree_keeps_answering s) 2 0x21 _
  · exact pldm_answers smbus b (Keeps.rfl' _ s) 2 0x21 _

theorem exec_setStateEffecterStates_alerts (hid : leAt b 4 2 = 400) : exec (.setStateEffecterStates smbus b) s =
    .next ((s.clearAlerts (effecterBits b)).pldm smbus b 2 0x39 [0x00]) :=
  (if_neg (by simp [hup])).trans (if_neg (by simp [hid]))

theorem setStateEffecterStates_answers : Answered (exec (.setStateEffecterStates smbus b) s) s smbus b 1 [2, 0x39] := by
  change Answered (execSetStateEffecterStates smbus b s) s smbus b 1 [2, 0x39]
  rw [execSetStateEffecterStates, if_neg (by simp [hup])]
  split
  · exact pldm_answers smbus b (Keeps.rfl' _ s) 2 0x39 _
  · exact pldm_answers smbus b ((clearAlerts_keeps s _).mono (by decide)) 2 0x39 _

theorem pdrRepositoryCommand_answers :
    Answered (exec (.pdrRepositoryCommand smbus b) s) s smbus b 1 [2, b.getD 3 0] := by
  change Answered (execPdrRepositoryCommand smbus b s) s smbus b 1 [2, b.getD 3 0]
  rw [execPdrRepositoryCommand, if_pos hup]
  have h := pldm_answers smbus b (takeFree_keeps_answering s) 2 (byteAt b 3)
    (openBytes s.freeCount (Config.freeNat s.freeCount % 4096))
  rwa [byteAt, natLe_one] at h

/-- While the Handler runs every message is answered. -/
theorem answersAs_answers {i : Instr} {type : Byte} {h : List Byte} (hi : answersAs i smbus b type h) :
    Answered (exec i s) s smbus b type h := by
  obtain ⟨rfl, ⟨rfl, rfl⟩ | ⟨rfl, rfl⟩ | ⟨rfl, rfl⟩ | ⟨rfl, rfl⟩ | ⟨rfl, rfl⟩⟩ |
    ⟨rfl, ⟨rfl, rfl⟩ | ⟨rfl, rfl⟩ | ⟨rfl, rfl⟩ | ⟨rfl, rfl⟩ | ⟨rfl, rfl⟩ | ⟨rfl, rfl⟩ | ⟨rfl, rfl⟩ | ⟨rfl, rfl⟩ | ⟨rfl, rfl⟩ |
      ⟨rfl, rfl⟩⟩ := hi
  · exact mctpSetEndpointId_answers b hup
  · exact mctpGetEndpointId_answers b hup
  · exact mctpGetEndpointUuid_answers b hup
  · exact mctpGetVersionSupport_answers b hup
  · exact mctpGetMessageTypeSupport_answers b hup
  · exact setTid_answers b hup
  · exact getTid_answers b hup
  · exact getPldmVersion_answers b hup
  · exact getPldmTypes_answers b hup
  · exact getPldmCommands_answers b hup
  · exact setEventReceiver_answers b hup
  · exact getSensorReading_answers b hup
  · exact getStateSensorReadings_answers b hup
  · exact setStateEffecterStates_answers b hup
  · exact pdrRepositoryCommand_answers b hup

end

/-- While it does not, none is: each command asks first whether the transport is up. -/
theorem answersAs_silent {s : State} {smbus : Bool} {i : Instr} {b : List Byte} {type : Byte} {h : List Byte}
    (hi : answersAs i smbus b type h) (hdown : s.mctpUp smbus = false) : exec i s = .next s := by
  have hpos : (!s.mctpUp smbus) = true := by simp [hdown]
  have hneg : ¬s.mctpUp smbus = true := by simp [hdown]
  obtain ⟨rfl, ⟨rfl, rfl⟩ | ⟨rfl, rfl⟩ | ⟨rfl, rfl⟩ | ⟨rfl, rfl⟩ | ⟨rfl, rfl⟩⟩ |
    ⟨rfl, ⟨rfl, rfl⟩ | ⟨rfl, rfl⟩ | ⟨rfl, rfl⟩ | ⟨rfl, rfl⟩ | ⟨rfl, rfl⟩ | ⟨rfl, rfl⟩ | ⟨rfl, rfl⟩ | ⟨rfl, rfl⟩ | ⟨rfl, rfl⟩ |
      ⟨rfl, rfl⟩⟩ := hi
  · exact if_pos hpos
  · exact congrArg Host.Outcome.next (if_neg hneg)
  · exact congrArg Host.Outcome.next (if_neg hneg)
  · exact if_pos hpos
  · exact congrArg Host.Outcome.next (if_neg hneg)
  · exact if_pos hpos
  · exact congrArg Host.Outcome.next (if_neg hneg)
  · exact if_pos hpos
  · exact congrArg Host.Outcome.next (if_neg hneg)
  · exact if_pos hpos
  · exact if_pos hpos
  · exact if_pos hpos
  · exact if_pos hpos
  · exact if_pos hpos
  · exact congrArg Host.Outcome.next (if_neg hneg)

/-! ### Alert causes cleared by effecter 400 (R679) -/

/-- A sum of distinct powers of two has the bits summed. -/
theorem sumBits_spec (p : Nat → Bool) (n : Nat) :
    (((List.range n).filter p).foldl (fun m i => m + 2 ^ i) 0) < 2 ^ n ∧
      ∀ j, j < n → (((List.range n).filter p).foldl (fun m i => m + 2 ^ i) 0).testBit j = p j := by
  induction n with
  | zero => simp
  | succ n ih =>
    obtain ⟨hlt, hbits⟩ := ih
    rw [List.range_succ, List.filter_append, List.foldl_append]
    generalize ((List.range n).filter p).foldl (fun m i => m + 2 ^ i) 0 = m at hlt hbits
    cases hp : p n with
    | false =>
      simp only [List.filter_cons, hp, Bool.false_eq_true, if_false, List.filter_nil, List.foldl_nil]
      refine ⟨hlt.trans (Nat.pow_lt_pow_right (by decide) (Nat.lt_succ_self n)), fun j hj => ?_⟩
      obtain h | rfl := Nat.lt_succ_iff_lt_or_eq.mp hj
      · exact hbits j h
      · rw [hp]; exact Nat.testBit_lt_two_pow hlt
    | true =>
      simp only [List.filter_cons, hp, if_true, List.filter_nil, List.foldl_cons, List.foldl_nil]
      refine ⟨by rw [Nat.pow_succ]; omega, fun j hj => ?_⟩
      rw [Nat.add_comm]
      obtain h | rfl := Nat.lt_succ_iff_lt_or_eq.mp hj
      · rw [Nat.testBit_two_pow_add_gt h]; exact hbits j h
      · rw [Nat.testBit_two_pow_add_eq, Nat.testBit_lt_two_pow hlt, hp]; rfl

theorem effecterBits_testBit {b : List Byte} {i : Nat} (hi : i < min 13 (byteAt b 6)) :
    (effecterBits b).testBit i = (byteAt b (7 + 2 * i) == 1) :=
  (sumBits_spec (fun i => byteAt b (7 + 2 * i) == 1) _).2 i hi

/-- Only the W1C causes named are cleared. -/
theorem clearAlerts_alert (s : State) (n i : Nat) (hi : i < 13) : (s.clearAlerts n).erl.alert.getLsbD i =
    (s.erl.alert.getLsbD i && !(n.testBit i && alertW1c.testBit i)) := by
  simp only [State.clearAlerts, State.dropAlert, BitVec.getLsbD_and, BitVec.getLsbD_not, BitVec.getLsbD_ofNat, hi, decide_true,
    Bool.true_and, Nat.testBit_and]

/-! ### Malformed packets and platform events (R693) -/

/-- One more packet error. -/
def State.packetErred (s : State) : State := { s with hnd := { s.hnd with pktErrors := satInc s.hnd.pktErrors } }

theorem packetErred_keeps (s : State) : Keeps [.hnd] s s.packetErred := by
  intro q hq; cases q <;> simp_all [Part.same, State.packetErred]

/-- An event retired. -/
def State.eventRetired (s : State) (n : Nat) : State :=
  { s with hnd := { s.hnd with events := s.hnd.events.filter fun e => e.id != n } }

theorem eventRetired_keeps (s : State) (n : Nat) : Keeps [.hnd] s (s.eventRetired n) := by
  intro q hq; cases q <;> simp_all [Part.same, State.eventRetired]

/-- One more sending of an event counted. -/
def State.eventSent (s : State) (n : Nat) : State :=
  { s with hnd := { s.hnd with events := s.hnd.events.map fun x => if x.id = n then { x with sends := x.sends + 1 } else x } }

theorem eventSent_keeps (s : State) (n : Nat) : Keeps [.hnd] s (s.eventSent n) := by
  intro q hq; cases q <;> simp_all [Part.same, State.eventSent]

section
variable {s : State} (halive : s.alive = true) (hrun : s.hnd.running = true)
include halive hrun

theorem exec_mctpPacketError : exec .mctpPacketError s = .next (s.packetErred.report { blk := .hnd, nn := 7 }) :=
  congrArg Host.Outcome.next (if_pos (by simp [halive, hrun]))

theorem exec_platformEventAck (n : Nat) : exec (.platformEventAck n) s = .next (s.eventRetired n) :=
  congrArg Host.Outcome.next (if_pos (by simp [halive, hrun]))

section
variable {n eid : Nat} {e : PldmEvent} (hevent : s.hnd.events.find? (fun x => x.id == n) = some e)
  (hreceiver : s.hnd.receiver = some (.smbus, eid))
include hevent hreceiver

theorem exec_platformEventRetry : exec (.platformEventRetry n) s =
    .next (if e.sends < 4 then (s.eventSent n).emit (.mctp .smbus e.body) else s.eventRetired n) := by
  change execPlatformEventRetry n s = _
  rw [execPlatformEventRetry, if_neg (by simp [halive, hrun]), hevent, hreceiver]
  dsimp only
  split <;> rfl

end
end

/-- Settles O52: every branch of a message command ends in one answer; the IDs and the receiver are set before it, and a cause
that the effecter names is cleared where it is W1C. -/
theorem handlerAnswersMessages : Obligations.HandlerAnswersMessages := by
  unfold Obligations.HandlerAnswersMessages
  intro s smbus
  refine ⟨fun i b type h hi => ⟨fun hup => ?_, answersAs_silent hi⟩, fun b hup hlen hlo hhi => ⟨fun hop => ?_, ?_⟩,
    fun b hup hid hcount hclear => ?_, fun b hup hzero hone => ?_, fun halive hrun => ⟨?_, fun n => ?_, fun n e eid he hr =>
      ⟨fun hlt => ?_, fun hge => ?_⟩⟩⟩
  · obtain ⟨t, ht, ⟨⟨r, hr⟩, hkeeps⟩⟩ := answersAs_answers b hup hi
    exact ⟨t, r, ht, hr, hkeeps⟩
  · refine ⟨_, exec_mctpSetEndpointId_valid b hup hlen hlo hhi hop, ?_⟩
    cases smbus <;> simp [State.control, State.eidSet, byteAt]
  · exact ⟨_, exec_setTid_valid b hup hlen hlo hhi, by simp [State.pldm, State.tidSet, byteAt],
      ((tidSet_keeps s _).mono (by decide)).trans' ((emit_keeps _ _).mono (by decide))⟩
  · refine ⟨_, exec_setStateEffecterStates_alerts b hup hid, (clearAlerts_alert s _ 3 (by decide)).trans ?_,
      (clearAlerts_alert s _ 0 (by decide)).trans ?_⟩
    · have hw1c : alertW1c.testBit 3 = true := by decide
      rw [effecterBits_testBit (by omega), hclear, hw1c, beq_self_eq_true, Bool.and_self, Bool.not_true, Bool.and_false]
    · have hw1c : alertW1c.testBit 0 = false := by decide
      rw [hw1c, Bool.and_false, Bool.not_false, Bool.and_true]
  · exact ⟨_, exec_setEventReceiver_valid b hup hzero hone, rfl,
      ((receiverSet_keeps s smbus _).mono (by decide)).trans' ((emit_keeps _ _).mono (by decide))⟩
  · exact ⟨_, exec_mctpPacketError halive hrun, (report_spares (by decide) _).hnd (·.pktErrors) fun _ => rfl,
      report_records (by decide) rfl rfl, report_keeps_of (by decide) (packetErred_keeps s) (by decide) (by decide)⟩
  · exact ⟨_, exec_platformEventAck halive hrun n, rfl, eventRetired_keeps s n⟩
  · refine ⟨_, (exec_platformEventRetry halive hrun he hr).trans (congrArg _ (if_pos hlt)), rfl,
      ((eventSent_keeps s n).mono (by decide)).trans' ((emit_keeps _ _).mono (by decide))⟩
  · exact ⟨_, (exec_platformEventRetry halive hrun he hr).trans (congrArg _ (if_neg (by omega))), rfl, eventRetired_keeps s n⟩

end Sys2Proof.Machine
end

section
/-!
Waking: the input and PWR_EN, the wake sequence, its retries and BOOT at its end (chapter 17).
-/
namespace Sys2Proof.Machine
open Sys2Proof

/-! ### Changes of the module's state -/

theorem toState_sup (s : State) (m : ModState) : (s.toState m).sup = { s.sup with mstate := m } := by
  unfold State.toState
  split
  next h => rw [← h]
  · exact (smbusSettled_keeps _ _ .sup (by decide)).trans (platformEvent_keeps _ _ _ .sup (by decide))

theorem toState_spares_cad (s : State) (m : ModState) : (s.toState m).cad = s.cad := toState_keeps s m .cad (by decide)

theorem wake_keeps_coldReset (s : State) : Keeps [.sup, .hnd, .out] s.coldReset s.wake := by
  refine Keeps.trans' (toState_keeps s.coldReset .wake) ?_
  intro p hp; cases p <;> simp_all [Part.same, State.wake]

theorem wake_sup_eq (s : State) : s.wake.sup = { s.coldReset.sup with
    mstate := .wake, hotSwap := false, wakeStep := 0, attempts := 1, failedStep := 0, attemptCause := 0, retryWait := false
    wakeStart := s.now } := by
  have hnow : (s.coldReset.toState .wake).now = s.now := toState_keeps _ _ .now (by decide)
  simp only [State.wake, toState_sup, hnow]

/-- From OFF, with PWR_EN high and a good input, the module wakes. -/
theorem tryWake_of_ready {s : State} (hoff : s.sup.mstate = .off) (hen : s.pins.pwrEn = true) (hgood : s.pins.inputGood = true) :
    s.tryWake = State.wake { s with sup := { s.sup with slotSample := s.pins.slotId } } :=
  if_pos ⟨hoff, hen, hgood⟩

theorem tryWake_of_not {s : State} (h : ¬(s.pins.pwrEn = true ∧ s.pins.inputGood = true)) : s.tryWake = s :=
  if_neg fun hw => h hw.2

/-! ### PWR_EN and the input (R557, R586) -/

/-- PWR_EN high in OFF, with SLOT_ID sampled. -/
def State.enabledAt (s : State) (n : Nat) : State :=
  { s with
    pins := { s.pins with pwrEn := true, slotId := BitVec.ofNat 6 n }
    sup := { s.sup with slotSample := BitVec.ofNat 6 n } }

theorem enabledAt_keeps (s : State) (n : Nat) : Keeps [.pins, .sup] s (s.enabledAt n) := by
  intro p hp; cases p <;> simp_all [Part.same, State.enabledAt]

/-- VIN48 found good, with SLOT_ID sampled. -/
def State.inputFound (s : State) (n : Nat) : State :=
  { s.vinIn 42000 18001 with pins := { (s.vinIn 42000 18001).pins with inputGood := true, slotId := BitVec.ofNat 6 n } }

section
variable {s : State} {n : Nat} (hoff : s.sup.mstate = .off)
include hoff

theorem exec_pwrEnRise (hlow : s.pins.pwrEn = false) : exec (.pwrEnRise n) s = .next (s.enabledAt n).tryWake := by
  refine (if_neg (by simp [hlow])).trans ?_
  dsimp only
  rw [if_pos hoff]
  rfl

theorem exec_inputGood (hen : s.pins.pwrEn = true) : exec (.inputGood n) s =
    .next (State.wake { s.inputFound n with sup := { s.sup with slotSample := BitVec.ofNat 6 n } }) :=
  congrArg Host.Outcome.next (tryWake_of_ready (s := s.inputFound n) hoff hen rfl)

end

/-! ### The wake sequence (Table 17.2) -/

/-- One wake step done. -/
def State.wakeStepped (s : State) : State :=
  { s with sup := { s.sup with
      wakeStep := s.sup.wakeStep + 1, standby := true, hotSwap := s.sup.hotSwap || s.sup.wakeStep == 1 } }

theorem wakeStepped_keeps (s : State) : Keeps [.sup] s s.wakeStepped := by
  intro p hp; cases p <;> simp_all [Part.same, State.wakeStepped]

/-- An attempt failed at a step. -/
def State.wakeFailed (s : State) (cause : Nat) : State :=
  { s with sup := { s.sup with failedStep := cause, attemptCause := cause, hotSwap := false } }

theorem wakeFailed_keeps (s : State) (cause : Nat) : Keeps [.sup] s (s.wakeFailed cause) := by
  intro p hp; cases p <;> simp_all [Part.same, State.wakeFailed]

/-- The record of a failed attempt. -/
def wakeEv (cause attempts : Nat) : Ev := { blk := .sup, nn := 1, detail := [cause, cause, attempts] }

theorem wakeEv_class (cause attempts : Nat) : (wakeEv cause attempts).class = .reportOnly := rfl

/-- The attempt failed at the step under way, and recorded. -/
def State.attemptFailed (s : State) : State :=
  (s.wakeFailed s.sup.wakeStep).report (wakeEv s.sup.wakeStep s.sup.attempts)

theorem attemptFailed_spares (s : State) : Spares (s.wakeFailed s.sup.wakeStep) s.attemptFailed :=
  report_spares (by simp [wakeEv_class]) _

theorem attemptFailed_keeps (s : State) : Keeps reportParts s s.attemptFailed :=
  report_keeps_of (by simp [wakeEv_class]) (wakeFailed_keeps s _) (by decide) (by decide)

theorem attemptFailed_records (s : State) : Records s s.attemptFailed ⟨.sup, 1⟩ .reportOnly .none
    [s.sup.wakeStep, s.sup.wakeStep, s.sup.attempts] :=
  report_records (e := wakeEv s.sup.wakeStep s.sup.attempts) (by simp [wakeEv_class]) rfl rfl

/-- The time before the next attempt begins. -/
def State.retryAwaited (s : State) : State := { s with sup := { s.sup with retryWait := true } }

theorem retryAwaited_keeps (s : State) : Keeps [.sup] s s.retryAwaited := by
  intro p hp; cases p <;> simp_all [Part.same, State.retryAwaited]

/-- A new attempt, from step 1. -/
def State.retried (s : State) : State :=
  { s with sup := { s.sup with retryWait := false, wakeStep := 1, attempts := s.sup.attempts + 1 } }

theorem retried_keeps (s : State) : Keeps [.sup] s s.retried := by
  intro p hp; cases p <;> simp_all [Part.same, State.retried]

section
variable {s : State} (hwake : s.sup.mstate = .wake)
include hwake

theorem exec_wakeRetryTimer (hwait : s.sup.retryWait = true) : exec .wakeRetryTimer s = .next s.retried :=
  congrArg Host.Outcome.next (if_pos ⟨hwake, hwait⟩)

variable (hgo : s.sup.retryWait = false)
include hgo

theorem exec_wakeStepComplete (hstep : s.sup.wakeStep < 7) : exec .wakeStepComplete s = .next s.wakeStepped :=
  (if_neg (by simp [hwake, hgo]; omega)).trans (if_neg (by omega))

theorem exec_wakeStepComplete_last (hstep : s.sup.wakeStep = 7) : exec .wakeStepComplete s = .next s.enterBoot :=
  (if_neg (by simp [hwake, hgo]; omega)).trans (if_pos hstep)

theorem exec_wakeStepTimeout (hlo : 1 ≤ s.sup.wakeStep) (hhi : s.sup.wakeStep ≤ 7) :
    exec (.wakeStepTimeout s.sup.wakeStep) s =
      if 4 ≤ s.attemptFailed.sup.attempts then .next (s.attemptFailed.enterHold s.sup.wakeStep)
      else .next s.attemptFailed.retryAwaited :=
  if_neg (by simp [hwake, hgo]; omega)

end

/-! ### BOOT at the end of the wake -/

theorem beginBoot_mstate (s : State) (cold : Bool) : (s.beginBoot cold).sup.mstate = .boot := toState_mstate _ _

theorem beginBoot_windowOpen (s : State) (cold : Bool) : (s.beginBoot cold).cad.windowOpen = true := by
  unfold State.beginBoot
  rw [toState_spares_cad]
  rfl

/-- A warm reset of BOOT begins BOOT again. -/
theorem warmReset_of_boot {s : State} (h : s.sup.mstate = .boot) (byHost : Bool) :
    (s.warmReset byHost).sup.mstate = .boot ∧ (s.warmReset byHost).cad.windowOpen = true := by
  have hemit : ∀ b o, Keeps [.out] (s.warmEffects.beginBoot false) ((s.warmEffects.beginBoot false).emitIf b o) :=
    emitIf_keeps _
  simp only [State.warmReset, h]
  constructor
  · rw [hemit _ _ .sup (by decide)]; exact beginBoot_mstate _ _
  · rw [hemit _ _ .cad (by decide)]; exact beginBoot_windowOpen _ _

theorem bootPool_keeps (s : State) : Keeps [.hrd, .fb] s s.bootPool := by
  unfold State.bootPool
  split <;> (intro p hp; cases p <;> simp_all [Part.same])

theorem bootBegun_boot (s : State) : s.bootBegun.sup.mstate = .boot ∧ s.bootBegun.cad.windowOpen = true := by
  have hpool := bootPool_keeps (s.wakeLoaded.beginBoot true)
  have hsup : (s.wakeLoaded.beginBoot true).bootPool.sup.mstate = .boot := by
    rw [hpool .sup (by decide)]; exact beginBoot_mstate _ _
  have hcad : (s.wakeLoaded.beginBoot true).bootPool.cad.windowOpen = true := by
    rw [hpool .cad (by decide)]; exact beginBoot_windowOpen _ _
  unfold State.bootBegun
  dsimp only
  split
  · have hsp := report_spares (e := { blk := .sys, nn := 41 }) (by decide) (s.wakeLoaded.beginBoot true).bootPool
    exact ⟨(hsp.sup (·.mstate) fun _ => rfl).trans hsup, (hsp.cad (·.windowOpen) fun _ => rfl).trans hcad⟩
  · exact ⟨hsup, hcad⟩

/-- The wake ends in BOOT, with the Cadastre's window open, whether or not RESET_N holds it there. -/
theorem enterBoot_boot (s : State) : s.enterBoot.sup.mstate = .boot ∧ s.enterBoot.cad.windowOpen = true := by
  rw [enterBoot_eq]
  split
  · exact bootBegun_boot s
  · exact warmReset_of_boot (bootBegun_boot s).1 false

theorem pending_of_fixed {s t : State} (h : t.fixed = s.fixed) : t.pending = s.pending := congrArg Fixed.pending h

theorem enterHold_sup (s : State) (cause : Nat) :
    (s.enterHold cause).sup.mstate = .hold ∧ (s.enterHold cause).sup.holdCause = cause ∧ (s.enterHold cause).sup.hotSwap = false :=
  ⟨toState_mstate _ _, rfl, rfl⟩

/-- Settles O41: the wake begins with a cold reset, its steps are one equation each, and BOOT at its end opens the Cadastre. -/
theorem wakeStepsLeadToBootOrHold : Obligations.WakeStepsLeadToBootOrHold := by
  unfold Obligations.WakeStepsLeadToBootOrHold
  intro s n
  refine ⟨fun hoff hlow hgood => ?_, fun hoff hlow hbad => ?_, fun hoff hen => ?_, fun hwake hgo hstep => ?_,
    fun hwake hgo hstep => ?_, fun hwake hgo hlo hhi => ⟨fun hfew => ?_, fun hmany => ?_⟩, fun hwake hwait => ?_⟩
  · have hk := wake_keeps_coldReset { s.enabledAt n with sup := { (s.enabledAt n).sup with slotSample := BitVec.ofNat 6 n } }
    have hexec := exec_pwrEnRise (n := n) hoff hlow
    rw [tryWake_of_ready (s := s.enabledAt n) hoff rfl hgood] at hexec
    refine ⟨_, hexec, (wake_sup _).1, (wake_sup _).2.1, (wake_sup _).2.2, ?_, hk .mem (by decide), hk .pending (by decide),
      hk .fuses (by decide)⟩
    rw [wake_sup_eq]
    rfl
  · have hexec := exec_pwrEnRise (n := n) hoff hlow
    rw [tryWake_of_not (s := s.enabledAt n) (by simp [State.enabledAt, hbad])] at hexec
    exact ⟨_, hexec, hoff, rfl, enabledAt_keeps s n⟩
  · have hk := wake_keeps_coldReset { s.inputFound n with sup := { s.sup with slotSample := BitVec.ofNat 6 n } }
    refine ⟨_, exec_inputGood hoff hen, (wake_sup _).1, ?_, ?_⟩
    · rw [wake_sup_eq]
      rfl
    · rw [hk .pins (by decide)]
      change 42000 ≤ 42000 + Config.freeNat s.freeCount % 18001 ∧ 42000 + Config.freeNat s.freeCount % 18001 ≤ 60000
      omega
  · exact ⟨_, exec_wakeStepComplete hwake hgo hstep, rfl, hwake, rfl, fun h => by simp [State.wakeStepped, h],
      wakeStepped_keeps s⟩
  · obtain ⟨hboot, hopen⟩ := enterBoot_boot s
    have hre := enterBoot_reopens s
    exact ⟨_, exec_wakeStepComplete_last hwake hgo hstep, hboot, hopen, hre.locked, hre.entries, pending_of_fixed hre.fixed⟩
  · have hattempts : s.attemptFailed.sup.attempts = s.sup.attempts := (attemptFailed_spares s).sup (·.attempts) fun _ => rfl
    have hsp := attemptFailed_spares s
    refine ⟨_, (exec_wakeStepTimeout hwake hgo hlo hhi).trans (if_neg (by omega)), rfl,
      (hsp.sup (·.mstate) fun _ => rfl).trans hwake, hsp.sup (·.failedStep) fun _ => rfl, hsp.sup (·.hotSwap) fun _ => rfl,
      records_of_after (attemptFailed_records s) rfl,
      (attemptFailed_keeps s).trans' ((retryAwaited_keeps _).mono (by decide))⟩
  · have hattempts : s.attemptFailed.sup.attempts = s.sup.attempts := (attemptFailed_spares s).sup (·.attempts) fun _ => rfl
    exact ⟨_, (exec_wakeStepTimeout hwake hgo hlo hhi).trans (if_pos (by omega)), enterHold_sup _ _⟩
  · exact ⟨_, exec_wakeRetryTimer hwake hwait, rfl, rfl, rfl, retried_keeps s⟩

end Sys2Proof.Machine
end

section
/-!
Shutdown: SHUTDOWN-A with its restart records, its cancellation and its end (chapter 17).
-/
namespace Sys2Proof.Machine
open Sys2Proof

/-! ### SHUTDOWN-A begins (R598, R602, R603) -/

/-- The sequencer and the Field book as SHUTDOWN-A takes them. -/
def State.shutdownTaken (s : State) (c : ShutCause) : State :=
  let w := { s.fb.work with counts := s.fb.work.counts.set 3 (s.fb.work.counts.getD 3 0 + 1) }
  { s with
    fb := { s.fb with work := w, pendingBlock := if s.hnd.running then some w else s.fb.pendingBlock }
    sup := { s.sup with
      left := s.sup.mstate, hotSwap := false, shutCause := c, noCancel := c == ShutCause.pwrEn || !s.pins.pwrEn
      shutCount := s.sup.shutCount + 1, shutEpoch := s.epoch } }

/-- The event of an input fault or a fall of PWR_EN. -/
def shutdownEv (c : ShutCause) : Ev := { blk := .sup, nn := if c = ShutCause.overvoltage then 5 else 3 }

theorem shutdownEv_class (c : ShutCause) : (shutdownEv c).class = .reportOnly := by cases c <;> rfl

theorem enterShutdownA_eq (s : State) (c : ShutCause) :
    s.enterShutdownA c = (((s.shutdownTaken c).toState .shutdownA).report (shutdownEv c)).writeRestartRecords := rfl

/-- What the sequencer holds in SHUTDOWN-A, but for the records. -/
theorem shutdownReported_sup {α : Type} (s : State) (c : ShutCause) (f : Sup → α) (hf : ∀ x, f { x with service := false } = f x) :
    f (((s.shutdownTaken c).toState .shutdownA).report (shutdownEv c)).sup =
      f { (s.shutdownTaken c).sup with mstate := .shutdownA } := by
  rw [(report_spares (by simp [shutdownEv_class]) _).sup f hf, toState_sup]

theorem shutdownReported_hrd (s : State) (c : ShutCause) :
    (((s.shutdownTaken c).toState .shutdownA).report (shutdownEv c)).hrd = s.hrd :=
  (report_keeps (by simp [shutdownEv_class]) _ .hrd (by decide)).trans (toState_keeps _ _ .hrd (by decide))

theorem enterShutdownA_records (s : State) (c : ShutCause) :
    Records s (s.enterShutdownA c) ⟨.sup, if c = .overvoltage then 5 else 3⟩ .reportOnly .none [] := by
  have hk := toState_keeps (s.shutdownTaken c) .shutdownA
  have h := report_records (s := s) (e := shutdownEv c) (by simp [shutdownEv_class]) (hk .fns (by decide)) (hk .erl (by decide))
  rw [shutdownEv_class] at h
  exact records_of_after h rfl

/-! ### Input faults and the fall of PWR_EN (R585, R587, R607) -/

/-- The pins and the sequencer as a fault of cause `c` finds them. -/
structure FaultSeen (s u : State) (c : ShutCause) : Prop where
  keeps : Keeps [.pins, .sup, .freeCount] s u
  mstate : u.sup.mstate = s.sup.mstate
  shutCount : u.sup.shutCount = s.sup.shutCount
  pwrEn : u.pins.pwrEn = !(c == .pwrEn)

theorem exec_inputFault {s : State} {i : Instr} {c : ShutCause} (hi : (i = .pwrEnFall ∧ c = .pwrEn) ∨
    (i = .undervoltageFault ∧ c = .undervoltage) ∨ (i = .overvoltageFault ∧ c = .overvoltage)) (hen : s.pins.pwrEn = true) :
    ∃ u, exec i s = .next (u.inputFault c) ∧ FaultSeen s u c := by
  obtain ⟨rfl, rfl⟩ | ⟨rfl, rfl⟩ | ⟨rfl, rfl⟩ := hi
  · refine ⟨_, if_neg (by simp [hen]), ⟨?_, rfl, rfl, rfl⟩⟩
    intro p hp; cases p <;> simp_all [Part.same]
  · refine ⟨_, rfl, ⟨?_, rfl, rfl, hen⟩⟩
    intro p hp; cases p <;> simp_all [Part.same, State.vinIn]
  · refine ⟨_, rfl, ⟨?_, rfl, rfl, hen⟩⟩
    intro p hp; cases p <;> simp_all [Part.same, State.vinIn]

section
variable {s u : State} {c : ShutCause} (h : FaultSeen s u c)
include h

/-- With the rails up a fault is SHUTDOWN-A. -/
theorem inputFault_powered (hup : s.sup.mstate = .boot ∨ s.sup.mstate = .ready ∨ s.sup.mstate = .run) :
    u.inputFault c = u.enterShutdownA c := by
  unfold State.inputFault
  obtain hm | hm | hm := hup <;> rw [h.mstate, hm]

theorem inputFault_unpowered (hdown : s.sup.mstate = .wake ∨ s.sup.mstate = .hold) : u.inputFault c = u.goOff := by
  unfold State.inputFault
  obtain hm | hm := hdown <;> rw [h.mstate, hm]

theorem enterShutdownA_noCancel : (u.enterShutdownA c).sup.noCancel = true ↔ c = .pwrEn := by
  have hsup := shutdownReported_sup u c (·.noCancel) fun _ => rfl
  rw [enterShutdownA_eq]
  change (((u.shutdownTaken c).toState .shutdownA).report (shutdownEv c)).sup.noCancel = true ↔ _
  rw [hsup]
  simp [State.shutdownTaken, h.pwrEn]

theorem enterShutdownA_rrRecords : (u.enterShutdownA c).sup.rr.records =
    (Tab.keysWhere (fun _ x => x.st == .admitted || x.st == .suspended) s.hrd.ctxs).map
      (fun k => (u.enterShutdownA c).restartRecord k (u.enterShutdownA c).sup.shutCount) := by
  rw [enterShutdownA_eq, ← (h.keeps .hrd (by decide) : u.hrd = s.hrd), ← shutdownReported_hrd u c]
  rfl

theorem enterShutdownA_records_of_fault :
    Records s (u.enterShutdownA c) ⟨.sup, if c = .overvoltage then 5 else 3⟩ .reportOnly .none [] :=
  records_of_before (enterShutdownA_records u c) (fun hr => (ringsAtHost_congr (h.keeps .fns (by decide))).trans hr)
    (h.keeps .erl (by decide))

end

theorem smbusSettled_sup (s old : State) : (s.smbusSettled old).sup = s.sup := smbusSettled_keeps s old .sup (by decide)

theorem goOff_sup (s : State) : s.goOff.sup.mstate = .off ∧ s.goOff.sup.standby = false ∧ s.goOff.sup.rr = s.sup.rr := by
  unfold State.goOff
  dsimp only
  rw [smbusSettled_sup]
  exact ⟨rfl, rfl, rfl⟩

theorem goOff_mem (s : State) : s.goOff.mem = {} := smbusSettled_keeps _ _ .mem (by decide)

theorem goOff_pins (s : State) : s.goOff.pins = s.pins := smbusSettled_keeps _ _ .pins (by decide)

theorem goOff_pending (s : State) : s.goOff.pending = s.pending := smbusSettled_keeps _ _ .pending (by decide)

/-! ### The records (R603) -/

/-- Only some of the records were written in time. -/
def State.recordsCut (s : State) : State :=
  let n := Config.freeNat s.freeCount % (s.sup.rr.records.length + 1)
  State.takeFree { s with sup := { s.sup with rr := { s.sup.rr with records := s.sup.rr.records.take n, incomplete := true } } }

theorem recordsCut_keeps (s : State) : Keeps [.sup, .freeCount] s s.recordsCut := by
  intro p hp; cases p <;> simp_all [Part.same, State.recordsCut]

theorem exec_restartRecordTimeout {s : State} (hdown : s.sup.mstate = .shutdownA) (hwhole : s.sup.rr.incomplete = false) :
    exec .restartRecordTimeout s = .next (s.recordsCut.report { blk := .sup, nn := 9 }) :=
  if_neg (by simp [hdown, hwhole])

/-- The records cleared by the host. -/
def State.recordsCleared (s : State) : State := { s with sup := { s.sup with rr := { seq := s.sup.rr.seq } } }

theorem recordsCleared_keeps (s : State) : Keeps [.sup] s s.recordsCleared := by
  intro p hp; cases p <;> simp_all [Part.same, State.recordsCleared]

theorem exec_restartRecordsClear {s : State} (hreach : s.hostReach 0 = true) :
    exec (.restartRecordsClear 0) s = .next s.recordsCleared :=
  congrArg Host.Outcome.next (if_pos (by simp [hreach]))

/-! ### Cancellation (R599) -/

theorem exec_shutdownACancel_refused {s : State} (h : s.sup.noCancel = true ∨ s.pins.pwrEn = false) :
    exec .shutdownACancel s = .next s :=
  if_pos (by obtain h | h := h <;> simp [h])

/-- The dip counted and the records cancelled. -/
def State.dipCounted (s : State) : State :=
  let w := s.fb.work
  { s.vinIn 42000 18001 with
    fb := { s.fb with work := { w with counts := w.counts.set 4 (w.counts.getD 4 0 + 1) } }
    sup := { s.sup with
      hotSwap := true, rrWritten := false, rr := { s.sup.rr with cancelled := true }
      dips := satInc s.sup.dips, dipCancelled := true } }

theorem dipCounted_keeps (s : State) : Keeps [.pins, .freeCount, .fb, .sup] s s.dipCounted := by
  intro p hp; cases p <;> simp_all [Part.same, State.dipCounted, State.vinIn]

/-- The module back in the state it left, with SMBus settled. -/
def State.shutdownLeft (s : State) : State :=
  let t := s.dipCounted.toState s.sup.left
  State.smbusSettled { t with sup := { t.sup with heldInReset := t.sup.heldInReset && !t.pins.resetN } } t

theorem shutdownLeft_sup (s : State) : s.shutdownLeft.sup =
    { s.dipCounted.sup with mstate := s.sup.left, heldInReset := s.sup.heldInReset && !s.pins.resetN } := by
  have hpins : (s.dipCounted.toState s.sup.left).pins = s.dipCounted.pins := toState_keeps _ _ .pins (by decide)
  simp only [State.shutdownLeft, smbusSettled_sup, toState_sup, hpins]
  rfl

theorem shutdownLeft_keeps (s : State) : Keeps [.pins, .freeCount, .fb, .sup, .hnd, .out] s s.shutdownLeft := by
  refine Keeps.trans' ((dipCounted_keeps s).mono (by decide)) (Keeps.trans' ((toState_keeps _ s.sup.left).mono (by decide)) ?_)
  refine Keeps.trans' ?_ ((smbusSettled_keeps _ _).mono (by decide))
  intro p hp; cases p <;> simp_all [Part.same]

/-- The cancellation recorded, its cause cleared. -/
def State.shutdownCancelled (s : State) : State := (s.shutdownLeft.report { blk := .sup, nn := 4 }).dropAlert (2 ^ 1)

theorem dropAlert_keeps (s : State) (n : Nat) : Keeps [.erl] s (s.dropAlert n) := by
  intro p hp; cases p <;> simp_all [Part.same, State.dropAlert]

theorem shutdownCancelled_keeps (s : State) : Keeps ([.pins, .freeCount] ++ reportParts) s s.shutdownCancelled :=
  (report_keeps_of (by decide) (shutdownLeft_keeps s) (by decide) (by decide)).trans' ((dropAlert_keeps _ _).mono (by decide))

theorem shutdownCancelled_sup {α : Type} (s : State) (f : Sup → α) (hf : ∀ x, f { x with service := false } = f x) :
    f s.shutdownCancelled.sup = f s.shutdownLeft.sup :=
  (report_spares (by decide) s.shutdownLeft).sup f hf

/-- The causes that end with the shutdown leave the records. -/
theorem dropAlert_records {s t : State} {e : Err} {c : ErrClass} {u : UnitRef} {d : List Nat} (h : Records s t e c u d) (n : Nat) :
    Records s (t.dropAlert n) e c u d := h

theorem shutdownCancelled_records (s : State) : Records s s.shutdownCancelled ⟨.sup, 4⟩ .reportOnly .none [] :=
  dropAlert_records (report_records (e := { blk := .sup, nn := 4 }) (by decide) (shutdownLeft_keeps s .fns (by decide))
    (shutdownLeft_keeps s .erl (by decide))) _

theorem judgeAsks_of_none {s : State} (h : s.hrd.asks = []) : s.judgeAsks = s := by
  simp only [State.judgeAsks, h, List.foldl_nil]
  rw [← h]

/-- BOOT, and RUN with a context, stay as they are. -/
theorem settleRun_of_settled {s : State}
    (h : s.sup.mstate = .boot ∨ (s.sup.mstate = .run ∧ (s.hrd.ctxs.any fun p => p.2.st != .free) = true)) : s.settleRun = s := by
  unfold State.settleRun
  obtain hm | ⟨hm, hany⟩ := h
  · rw [hm]
  · rw [hm]; exact if_pos hany

theorem exec_shutdownACancel {s : State} (hdown : s.sup.mstate = .shutdownA) (hopen : s.sup.noCancel = false)
    (hen : s.pins.pwrEn = true) (hasks : s.hrd.asks = [])
    (hleft : s.sup.left = .boot ∨ (s.sup.left = .run ∧ (s.hrd.ctxs.any fun p => p.2.st != .free) = true)) :
    exec .shutdownACancel s = .next s.shutdownCancelled := by
  have hhrd : s.shutdownCancelled.hrd = s.hrd := shutdownCancelled_keeps s .hrd (by decide)
  have hm : s.shutdownCancelled.sup.mstate = s.sup.left := by
    rw [shutdownCancelled_sup s (·.mstate) fun _ => rfl, shutdownLeft_sup]
  have hexec : exec .shutdownACancel s = .next s.shutdownCancelled.judgeAsks.settleRun := if_neg (by simp [hdown, hopen, hen])
  rw [hexec, judgeAsks_of_none (by rw [hhrd]; exact hasks), settleRun_of_settled (by rw [hm, hhrd]; exact hleft)]

/-! ### SHUTDOWN-B and OFF (R601) -/

theorem exec_shutdownAExpiry {s : State} (hdown : s.sup.mstate = .shutdownA) : exec .shutdownAExpiry s =
    .next { (s.toState .shutdownB).loseRails with sup := { (s.toState .shutdownB).loseRails.sup with
      rrWritten := false, service := false, heldInReset := false, profileBusy := false } } :=
  if_neg (by simp [hdown])

theorem exec_shutdownBDone {s : State} (hdown : s.sup.mstate = .shutdownB) :
    exec .shutdownBDone s = .next s.goOff.tryWake :=
  congrArg Host.Outcome.next (if_pos hdown)

/-- From OFF the module wakes where it may, with its restart records. -/
theorem goOff_tryWake_sup (s : State) :
    s.goOff.tryWake.sup.mstate = (if s.pins.pwrEn = true ∧ s.pins.inputGood = true then .wake else .off) ∧
      s.goOff.tryWake.sup.rr = s.sup.rr := by
  obtain ⟨hoff, -, hrr⟩ := goOff_sup s
  split
  next h =>
    rw [tryWake_of_ready hoff (by rw [goOff_pins]; exact h.1) (by rw [goOff_pins]; exact h.2), wake_sup_eq]
    exact ⟨rfl, hrr⟩
  next h =>
    rw [tryWake_of_not (by rw [goOff_pins]; exact h)]
    exact ⟨hoff, hrr⟩

/-- Settles O42: each fault is SHUTDOWN-A or OFF by the state it finds, whose restart records are those of the contexts that no
report touches; a cancellation without open requests leaves the module as it left it. -/
theorem shutdownSavesRecordsAndEndsOff : Obligations.ShutdownSavesRecordsAndEndsOff := by
  unfold Obligations.ShutdownSavesRecordsAndEndsOff
  intro s
  refine ⟨fun i c hi hen => ⟨fun hup => ?_, fun hdown => ?_⟩, fun hdown hwhole => ?_, fun hdown hopen hen hasks hleft => ?_,
    exec_shutdownACancel_refused, fun hdown => ?_, fun hdown => ?_, fun hreach => ?_⟩
  · obtain ⟨u, hexec, h⟩ := exec_inputFault hi hen
    rw [inputFault_powered h hup] at hexec
    refine ⟨_, hexec, ?_, ?_, ?_, ?_, enterShutdownA_noCancel h, rfl, enterShutdownA_rrRecords h, ?_,
      enterShutdownA_records_of_fault h⟩
    · exact shutdownReported_sup u c (·.mstate) fun _ => rfl
    · exact (shutdownReported_sup u c (·.left) fun _ => rfl).trans h.mstate
    · exact shutdownReported_sup u c (·.shutCause) fun _ => rfl
    · exact shutdownReported_sup u c (·.hotSwap) fun _ => rfl
    · rw [← h.shutCount]; exact shutdownReported_sup u c (·.shutCount) fun _ => rfl
  · obtain ⟨u, hexec, h⟩ := exec_inputFault hi hen
    rw [inputFault_unpowered h hdown] at hexec
    obtain ⟨hoff, hstandby, -⟩ := goOff_sup u
    exact ⟨_, hexec, hoff, hstandby, goOff_mem u, (goOff_pending u).trans (h.keeps .pending (by decide))⟩
  · have hsp := report_spares (e := { blk := .sup, nn := 9 }) (by decide) s.recordsCut
    refine ⟨_, exec_restartRecordTimeout hdown hwhole, hsp.sup (·.rr.incomplete) fun _ => rfl, ?_,
      report_records (by decide) rfl rfl, report_keeps_of (by decide) (recordsCut_keeps s) (by decide) (by decide)⟩
    rw [hsp.sup (·.rr.records) fun _ => rfl]
    exact List.take_prefix _ _
  · refine ⟨_, exec_shutdownACancel hdown hopen hen hasks hleft, ?_, ?_, ?_, ?_, shutdownCancelled_records s,
      shutdownCancelled_keeps s⟩
    · rw [shutdownCancelled_sup s (·.mstate) fun _ => rfl, shutdownLeft_sup]
    · rw [shutdownCancelled_sup s (·.hotSwap) fun _ => rfl, shutdownLeft_sup]; rfl
    · rw [shutdownCancelled_sup s (·.dips) fun _ => rfl, shutdownLeft_sup]; rfl
    · rw [shutdownCancelled_sup s (·.rr.cancelled) fun _ => rfl, shutdownLeft_sup]; rfl
  · have hk := toState_keeps s .shutdownB
    refine ⟨_, exec_shutdownAExpiry hdown, toState_mstate _ _, rfl, rfl, ?_, hk .pending (by decide)⟩
    change (s.toState .shutdownB).sup.rr = s.sup.rr
    rw [toState_sup]
  · exact ⟨_, exec_shutdownBDone hdown, goOff_tryWake_sup s⟩
  · exact ⟨_, exec_restartRecordsClear hreach, rfl, rfl, recordsCleared_keeps s⟩

end Sys2Proof.Machine
end

section
/-!
What a message on a Traverse link changes: the virtual channels of the links it leaves on and what has been sent, and nothing
else of the Pack (R513, R516).
-/
namespace Sys2Proof.Machine
open Sys2Proof

theorem link_setLink_other (s : State) {p q : Nat} (x : PckPort) (h : q ≠ p) : (s.setLink p x).link q = s.link q :=
  Tab.getD_put_other _ _ _ _ _ h

/-- Messages left or wait on links: only virtual channels of ports and what has been sent differ. -/
structure Sends (s t : State) : Prop where
  keeps : Keeps [.pck, .out] s t
  pck : t.pck = { s.pck with ports := t.pck.ports }
  link : ∀ q, t.link q = { s.link q with chans := (t.link q).chans }
  out : s.out <+: t.out

namespace Sends

variable {s t u : State}

theorem rfl' (s : State) : Sends s s := ⟨Keeps.rfl' _ _, rfl, fun _ => rfl, List.prefix_refl _⟩

theorem trans (h : Sends s t) (k : Sends t u) : Sends s u where
  keeps := h.keeps.trans' k.keeps
  pck := by rw [k.pck, h.pck]
  link q := by rw [k.link q, h.link q]
  out := h.out.trans k.out

theorem foldl {α : Type} (g : State → α → State) (h : ∀ s a, Sends s (g s a)) (xs : List α) (s : State) :
    Sends s (xs.foldl g s) :=
  List.foldlRecOn (motive := Sends s) _ _ (rfl' s) fun t ht a _ => ht.trans (h t a)

/-- What does not depend on the ports is as it was. -/
theorem of_pck {α : Type} (h : Sends s t) (f : Pck → α) (hf : ∀ p ps, f { p with ports := ps } = f p) : f t.pck = f s.pck := by
  rw [h.pck]; exact hf _ _

end Sends

theorem setLink_chans_link (s : State) (p q : Nat) (c : Tab LinkChan) : (s.setLink p { s.link p with chans := c }).link q =
    { s.link q with chans := ((s.setLink p { s.link p with chans := c }).link q).chans } := by
  by_cases h : q = p
  · subst h; rw [State.link_setLink]
  · rw [link_setLink_other _ _ h]

/-! ### One message -/

section
variable {s : State} {q vc : Nat} (o : Out)

/-- A message that may leave at once: it spends a hop credit of its channel. -/
theorem sendLink_of_clear (h : (s.link q).clear vc = true) : s.sendLink q vc o =
    (s.setLink q ((s.link q).setChan vc { (s.link q).chan vc with credits := ((s.link q).chan vc).credits - 1 })).emit o := if_pos h

/-- A message that may not leave waits behind its channel's own. -/
theorem sendLink_of_not_clear (h : (s.link q).clear vc = false) : s.sendLink q vc o =
    s.setLink q ((s.link q).setChan vc { (s.link q).chan vc with waiting := ((s.link q).chan vc).waiting ++ [o] }) :=
  if_neg (by simp [h])

theorem sendLink_sends (s : State) (q vc : Nat) (o : Out) : Sends s (s.sendLink q vc o) := by
  refine ⟨sendLink_keeps _ _ _ _, ?_, fun k => ?_, ?_⟩ <;> cases h : (s.link q).clear vc
  · rw [sendLink_of_not_clear o h]; rfl
  · rw [sendLink_of_clear o h]; rfl
  · rw [sendLink_of_not_clear o h]; exact setLink_chans_link ..
  · rw [sendLink_of_clear o h]; exact setLink_chans_link ..
  · rw [sendLink_of_not_clear o h]; exact List.prefix_refl _
  · rw [sendLink_of_clear o h]; exact List.prefix_append _ _

theorem sendLink_out (h : (s.link q).clear vc = true) : (s.sendLink q vc o).out = s.out ++ [o] := by
  rw [sendLink_of_clear o h]; rfl

theorem sendLink_link_other (s : State) {q k : Nat} (vc : Nat) (o : Out) (h : k ≠ q) : (s.sendLink q vc o).link k = s.link k := by
  cases hc : (s.link q).clear vc
  · rw [sendLink_of_not_clear o hc]; exact link_setLink_other _ _ h
  · rw [sendLink_of_clear o hc]; exact link_setLink_other _ _ h

end

/-! ### Control messages along the tree -/

theorem sendControl_sends (s : State) (q : Nat) (m : LinkMsg) : Sends s (s.sendControl q m) := sendLink_sends ..

theorem sendControl_out {s : State} {q : Nat} (m : LinkMsg) (h : (s.link q).clear controlChannel = true) :
    (s.sendControl q m).out = s.out ++ [.link q m] := sendLink_out _ h

theorem toChildren_sends (s : State) (m : LinkMsg) : Sends s (s.toChildren m) := Sends.foldl _ (fun t q => sendControl_sends t q m) _ _

theorem toParent_sends (s : State) (m : LinkMsg) : Sends s (s.toParent m) := by
  unfold State.toParent
  split
  · exact sendControl_sends ..
  · exact .rfl' s

theorem toParent_eq {s : State} {q : Nat} (m : LinkMsg) (h : s.pck.parentPort s.pck.me = some q) :
    s.toParent m = s.sendControl q m := by unfold State.toParent; rw [h]

/-- Messages to distinct ports whose control channels are clear all leave at once. -/
theorem foldl_sendControl_out (m : LinkMsg) : ∀ (qs : List Nat) (s : State), qs.Nodup →
    (∀ q ∈ qs, (s.link q).clear controlChannel = true) →
    (qs.foldl (fun t q => t.sendControl q m) s).out = s.out ++ qs.map fun q => .link q m
  | [], _, _, _ => (List.append_nil _).symm
  | q :: qs, s, hnd, hclear => by
    obtain ⟨hq, hqs⟩ := List.nodup_cons.mp hnd
    rw [List.foldl_cons, foldl_sendControl_out m qs _ hqs fun k hk => ?_,
      sendControl_out m (hclear q List.mem_cons_self), List.map_cons, List.append_assoc, List.singleton_append]
    have hne : k ≠ q := fun h => hq (h ▸ hk)
    rw [State.sendControl, sendLink_link_other _ _ _ hne]
    exact hclear k (List.mem_cons_of_mem _ hk)

/-- A message down a tree whose links are clear leaves on every one. -/
theorem toChildren_out {s : State} (m : LinkMsg) (h : treeClear s) : (s.toChildren m).out = s.out ++ downTree s m :=
  foldl_sendControl_out m _ s (List.Nodup.filter _ List.nodup_range) h

/-! ### The tree depends on the shape and the member alone (R515, R518) -/

section
variable {p r : Pck} (hshape : r.shape = p.shape)
include hshape

theorem dim_congr (d : Nat) : r.dim d = p.dim d := by rw [Pck.dim, hshape, Pck.dim]

theorem stride_congr : ∀ d, r.stride d = p.stride d
  | 0 => rfl
  | d + 1 => by rw [Pck.stride, Pck.stride, stride_congr d, dim_congr hshape]

theorem coord_congr (m d : Nat) : r.coord m d = p.coord m d := by
  rw [Pck.coord, Pck.coord, stride_congr hshape, dim_congr hshape]

theorem neighbour_congr (m q : Nat) : r.neighbour m q = p.neighbour m q := by
  simp only [Pck.neighbour, Pck.withCoord, dim_congr hshape, stride_congr hshape, coord_congr hshape]

theorem parentPort_congr (m : Nat) : r.parentPort m = p.parentPort m := by
  simp only [Pck.parentPort, dim_congr hshape, coord_congr hshape]

theorem isChild_congr (m q : Nat) : r.isChild m q = p.isChild m q := by
  simp only [Pck.isChild, neighbour_congr hshape, parentPort_congr hshape]

variable (hmember : r.member = p.member)
include hmember

theorem childPorts_congr : r.childPorts = p.childPorts := by
  simp only [Pck.childPorts, Pck.me, hmember, isChild_congr hshape]

theorem cabledPorts_congr : r.cabledPorts = p.cabledPorts := by
  simp only [Pck.cabledPorts, Pck.me, hmember, neighbour_congr hshape]

end

/-- A message down the tree from a state with the same tree, messages sent and clear channels. -/
theorem toChildren_out_of {s t : State} (m : LinkMsg) (hshape : t.pck.shape = s.pck.shape) (hmember : t.pck.member = s.pck.member)
    (hclear : ∀ k, (t.link k).clear controlChannel = (s.link k).clear controlChannel) (hout : t.out = s.out) (h : treeClear s) :
    (t.toChildren m).out = s.out ++ downTree s m := by
  have hchild := childPorts_congr hshape hmember
  rw [toChildren_out m fun q hq => (hclear q).trans (h q (hchild ▸ hq)), hout, downTree, downTree, hchild]

/-! ### Several ports changed in turn -/

theorem modLinks_link (g : Nat → PckPort → PckPort) : ∀ (qs : List Nat) (s : State) (k : Nat), qs.Nodup →
    (qs.foldl (fun t q => t.modLink q (g q)) s).link k = if k ∈ qs then g k (s.link k) else s.link k
  | [], _, _, _ => (if_neg List.not_mem_nil).symm
  | q :: qs, s, k, hnd => by
    obtain ⟨hq, hqs⟩ := List.nodup_cons.mp hnd
    rw [List.foldl_cons, modLinks_link g qs _ k hqs, State.modLink]
    by_cases hk : k = q
    · subst hk; rw [if_neg hq, if_pos List.mem_cons_self, State.link_setLink]
    · rw [link_setLink_other _ _ hk]; simp [hk]

theorem modLinks_pck (g : Nat → PckPort → PckPort) (qs : List Nat) (s : State) :
    (qs.foldl (fun t q => t.modLink q (g q)) s).pck =
      { s.pck with ports := (qs.foldl (fun t q => t.modLink q (g q)) s).pck.ports } :=
  List.foldlRecOn (motive := fun t : State => t.pck = { s.pck with ports := t.pck.ports }) _ _ rfl fun t ht q _ => by
    have hport : (t.modLink q (g q)).pck = { t.pck with ports := (t.modLink q (g q)).pck.ports } := rfl
    rw [hport, ht]

theorem modLinks_keeps (g : Nat → PckPort → PckPort) (qs : List Nat) (s : State) :
    Keeps [.pck] s (qs.foldl (fun t q => t.modLink q (g q)) s) := Keeps.foldl _ _ (fun t q => setLink_keeps t q _) _ _

end Sys2Proof.Machine
end

section
/-!
The sources of the epoch clock (O38): syntonisation, announced rates, loads and external sources (R520, R521, R523, R528).
-/
namespace Sys2Proof.Machine
open Sys2Proof

/-- A state that differs in its Pack's part alone. -/
theorem setPck_keeps (s : State) (p : Pck) : Keeps [.pck] s { s with pck := p } := by
  intro q hq; cases q <;> simp_all [Part.same]

/-- A report after a change of the Pack's part. -/
theorem report_setPck_keeps {e : Ev} (hcls : e.class ≠ .moduleFatal) (s : State) (p : Pck) :
    Keeps ([.pck] ++ reportParts) s (State.report { s with pck := p } e) :=
  report_keeps_of hcls (setPck_keeps s p) (by decide) (by decide)

theorem report_setPck_records {e : Ev} (hcls : e.class ≠ .moduleFatal) (s : State) (p : Pck) :
    Records s (State.report { s with pck := p } e) e.err e.class e.unit e.detail := report_records hcls rfl rfl

theorem report_setPck_pck {e : Ev} (hcls : e.class ≠ .moduleFatal) (s : State) (p : Pck) :
    (State.report { s with pck := p } e).pck = p := report_keeps hcls { s with pck := p } .pck (by decide)

/-! ### A Pack's code (Table 15.9) -/

section
variable {nn : Nat} {u : UnitRef} (hcls : ({ blk := .pck, nn := nn, unit := u } : Ev).class ≠ .moduleFatal) (s : State)
include hcls

theorem pckReport_pck : (s.pckReport nn u none none).pck = { s.pck with code := BitVec.ofNat 8 nn } := report_setPck_pck hcls s _

theorem pckReport_keeps : Keeps ([.pck] ++ reportParts) s (s.pckReport nn u none none) := report_setPck_keeps hcls s _

theorem pckReport_records : Records s (s.pckReport nn u none none) ⟨.pck, nn⟩
    ({ blk := .pck, nn := nn, unit := u } : Ev).class u [] := report_setPck_records hcls s _

end

/-! ### The record of a locked write (Table 15.9) -/

theorem lockedEv_class (fn : Nat) (d : List Nat) :
    ({ blk := .pck, nn := 15, func := some fn, detail := d } : Ev).class ≠ .moduleFatal := fun h => nomatch h

theorem pckLocked_keeps (s : State) (fn off value : Nat) : Keeps ([.pck] ++ reportParts) s (s.pckLocked fn off value) :=
  report_setPck_keeps (lockedEv_class fn _) s _

theorem pckLocked_pck (s : State) (fn off value : Nat) :
    (s.pckLocked fn off value).pck = { s.pck with fieldLocked := true, code := 15 } :=
  report_setPck_pck (lockedEv_class fn _) s _

theorem pckLocked_records (s : State) (fn off : Nat) {value : Nat} (hval : value < 2 ^ 32) :
    Records s (s.pckLocked fn off value) ⟨.pck, 15⟩ .reportOnly .none [off, value] := by
  have hrec := report_setPck_records (lockedEv_class fn [off, value % 2 ^ 32]) s { s.pck with fieldLocked := true, code := 15 }
  simp only [Nat.mod_eq_of_lt hval] at hrec
  rw [State.pckLocked, State.lockedRecord, Nat.mod_eq_of_lt hval]
  exact hrec

/-! ### Syntonisation and rates -/

section
variable {s : State}

theorem exec_syntonisationLock {q : Nat} (halive : s.alive = true) (hfol : s.pck.followsParent = true)
    (hpar : s.pck.parentPort s.pck.me = some q) (hgr : (s.link q).greeted = true) : exec .syntonisationLock s =
    .next { s with pck := { s.pck with epoch := { s.pck.epoch with syntLock := true, ratePpb := 0 } } } := by
  change execSyntonisationLock s = _
  unfold execSyntonisationLock
  rw [if_neg (by simp [halive, hfol]), hpar]
  exact congrArg Host.Outcome.next (if_pos hgr)

theorem exec_syntonisationLoss (halive : s.alive = true) (hfol : s.pck.followsParent = true)
    (hlock : s.pck.epoch.syntLock = true) : exec .syntonisationLoss s =
    .next { s with pck := { s.pck with syntFault := true, epoch := { s.pck.epoch with syntLock := false } } } :=
  congrArg Host.Outcome.next (if_pos (by simp [halive, hfol, hlock]))

/-- The announced rate held until its time. -/
def State.rateHeld (s : State) (ppb : Int) (e : DWord) : State :=
  { s with pck := { s.pck with epoch := { s.pck.epoch with pendingRate := some (ppb, e) } } }

theorem exec_rateAnnounceReceive {q : Nat} (ppb : Int) (e : DWord) (halive : s.alive = true)
    (hfol : s.pck.followsParent = true) (hpar : s.pck.parentPort s.pck.me = some q) :
    exec (.rateAnnounceReceive q ppb e) s = .next ((s.rateHeld ppb e).toChildren (.rate ppb e)) :=
  if_neg (by simp [halive, hfol, hpar])

theorem exec_rateChangeApply {ppb : Int} {e : DWord} (halive : s.alive = true)
    (hpend : s.pck.epoch.pendingRate = some (ppb, e)) : exec .rateChangeApply s = .next (if e.toNat ≤ s.epoch.toNat then
      { s with pck := { s.pck with epoch := { s.pck.epoch with ratePpb := ppb, pendingRate := none } } } else s) := by
  change execRateChangeApply s = _
  unfold execRateChangeApply
  rw [hpend]
  simp [halive]

/-! ### Loads and external sources -/

theorem loadEpoch_epoch (s : State) : s.loadEpoch.epoch = s.pck.epochSet := by
  have hset : s.pck.epochSet.toNat < 2 ^ 64 := s.pck.epochSet.isLt
  apply BitVec.eq_of_toNat_eq
  simp only [State.loadEpoch, State.epoch, BitVec.toNat_ofNat]
  omega

theorem loadEpoch_keeps (s : State) : Keeps [.pck] s s.loadEpoch := by
  intro q hq; cases q <;> simp_all [Part.same, State.loadEpoch]

theorem exec_epochLoadRequest_busy (hreach : s.hostReach 0 = true) (hbusy : s.pck.busy = true) :
    exec (.epochLoadRequest 0) s = .next (s.pckLocked 0 epochCfgOff (2 + bitAt 0 s.pck.srcExternal)) :=
  (if_neg (by simp [hreach])).trans (if_pos hbusy)

theorem exec_epochLoadRequest_free (hreach : s.hostReach 0 = true) (hfree : s.pck.busy = false)
    (hsrc : s.pck.srcExternal = false) : exec (.epochLoadRequest 0) s = .next s.loadEpoch :=
  (if_neg (by simp [hreach])).trans ((if_neg (by simp [hfree])).trans (if_neg (by simp [hsrc])))

theorem exec_epochLoadRequest_external (hreach : s.hostReach 0 = true) (hfree : s.pck.busy = false)
    (hsrc : s.pck.srcExternal = true) (hext : s.pck.epoch.ext = .locked) : exec (.epochLoadRequest 0) s =
    .next { s with pck := { s.pck with epoch := { s.pck.epoch with loadPending := true } } } :=
  (if_neg (by simp [hreach])).trans ((if_neg (by simp [hfree])).trans (if_pos (by simp [hsrc, hext])))

/-- An edge noted, with the epoch's offset. -/
def State.ppsNoted (s : State) : State :=
  { s with
    pins := { s.pins with lastPps := some s.now }
    pck := { s.pck with epoch := { s.pck.epoch with extOffset := extOffsetOf s.secondOffset } } }

theorem ppsNoted_keeps (s : State) : Keeps [.pck, .pins] s s.ppsNoted := by
  intro q hq; cases q <;> simp_all [Part.same, State.ppsNoted]

theorem exec_epochPpsEdge_own (halive : s.alive = true) (hext : s.pck.external = false) :
    exec .epochPpsEdge s = .next s.ppsNoted :=
  (if_neg (Bool.eq_false_iff.mp (congrArg not halive))).trans (if_pos (congrArg not hext))

theorem exec_epochPpsEdge_load (halive : s.alive = true) (hext : s.pck.external = true)
    (hpend : s.pck.epoch.loadPending = true) (hlock : s.pck.epoch.ext = .locked) (hfree : s.pck.busy = false) :
    exec .epochPpsEdge s = .next s.ppsNoted.loadEpoch :=
  have hload : (s.ppsNoted.pck.epoch.loadPending && s.ppsNoted.pck.epoch.ext == .locked && !s.ppsNoted.pck.busy) = true := by
    simp [show s.ppsNoted.pck.epoch.loadPending = true from hpend, show s.ppsNoted.pck.epoch.ext = .locked from hlock,
      show s.ppsNoted.pck.busy = false from hfree]
  (if_neg (Bool.eq_false_iff.mp (congrArg not halive))).trans
    ((if_neg (Bool.eq_false_iff.mp (congrArg not hext))).trans (if_pos hload))

theorem exec_externalSourceTimeout (halive : s.alive = true) (hext : s.pck.external = true)
    (hnot : s.pck.epoch.ext ≠ .holdover) : exec .externalSourceTimeout s = .next (State.pckReport
      { s with pck := { s.pck with epoch := { s.pck.epoch with ext := .holdover, ppsRun := 0 } } } 12 .none none none) :=
  if_neg (by simp [halive, hext, hnot])

end

/-- Settles O38: each command is one change of the epoch clock, with the report or the message down the tree that R520 to R528
give it. -/
theorem epochClockFollowsItsSource : Obligations.EpochClockFollowsItsSource := by
  unfold Obligations.EpochClockFollowsItsSource
  intro s q
  refine ⟨fun halive hfol hpar hgr => ?_, fun halive hfol hlock => ?_, fun ppb e halive hfol hpar => ?_,
    fun ppb e halive hpend => ⟨fun hdue => ?_, fun hearly => ?_⟩,
    fun hreach => ⟨fun hbusy => ?_, fun hfree hsrc => ?_, fun hfree hsrc hext => ?_⟩,
    fun halive => ⟨fun hext => ?_, fun hext hpend hlock hfree => ?_⟩, fun halive hext hnot => ?_⟩
  · exact ⟨_, exec_syntonisationLock halive hfol hpar hgr, rfl, rfl, setPck_keeps _ _⟩
  · exact ⟨_, exec_syntonisationLoss halive hfol hlock, rfl, by simp [Pck.skewFault], setPck_keeps _ _⟩
  · have hsent := toChildren_sends (s.rateHeld ppb e) (.rate ppb e)
    exact ⟨_, exec_rateAnnounceReceive ppb e halive hfol hpar, hsent.of_pck (·.epoch.pendingRate) fun _ _ => rfl,
      toChildren_out_of _ rfl rfl (fun _ => rfl) rfl, ((setPck_keeps _ _).mono (by decide)).trans' hsent.keeps⟩
  · exact ⟨_, (exec_rateChangeApply halive hpend).trans (congrArg _ (if_pos hdue)), rfl, rfl, setPck_keeps _ _⟩
  · exact (exec_rateChangeApply halive hpend).trans (congrArg _ (if_neg (by omega)))
  · have hval : 2 + bitAt 0 s.pck.srcExternal < 2 ^ 32 := by cases s.pck.srcExternal <;> decide
    have hpck := pckLocked_pck s 0 epochCfgOff (2 + bitAt 0 s.pck.srcExternal)
    exact ⟨_, exec_epochLoadRequest_busy hreach hbusy, congrArg (·.epoch) hpck, congrArg (·.fieldLocked) hpck,
      pckLocked_records s 0 epochCfgOff hval, pckLocked_keeps _ _ _ _⟩
  · exact ⟨_, exec_epochLoadRequest_free hreach hfree hsrc, loadEpoch_epoch s, loadEpoch_keeps s⟩
  · exact ⟨_, exec_epochLoadRequest_external hreach hfree hsrc hext, rfl, setPck_keeps _ _⟩
  · exact ⟨_, exec_epochPpsEdge_own halive hext, rfl, ppsNoted_keeps s⟩
  · exact ⟨_, exec_epochPpsEdge_load halive hext hpend hlock hfree, loadEpoch_epoch s.ppsNoted, rfl,
      (ppsNoted_keeps s).trans' ((loadEpoch_keeps _).mono (by decide))⟩
  · have hcls : ({ blk := .pck, nn := 12 } : Ev).class ≠ .moduleFatal := by decide
    have hmid := setPck_keeps s { s.pck with epoch := { s.pck.epoch with ext := .holdover, ppsRun := 0 } }
    exact ⟨_, exec_externalSourceTimeout halive hext hnot, congrArg (·.epoch.ext) (pckReport_pck hcls _),
      records_of_before (pckReport_records hcls _) id rfl, (hmid.mono (by decide)).trans' (pckReport_keeps hcls _)⟩

end Sys2Proof.Machine
end

section
/-!
Traverse links (O40): hop credits, flits, replays, retraining and the loss of a link (R511 to R513, R547, R548).
-/
namespace Sys2Proof.Machine
open Sys2Proof

/-! ### One channel of a link (R513) -/

/-- The messages that its credits allow have left a channel. -/
def LinkChan.drained (c : LinkChan) : LinkChan :=
  { credits := c.credits - min c.credits c.waiting.length, waiting := c.waiting.drop (min c.credits c.waiting.length) }

theorem drained_waiting (c : LinkChan) : c.drained.waiting <:+ c.waiting := List.drop_suffix _ _

/-- A drained channel has no credit left, or nothing waits on it. -/
theorem drained_spent (c : LinkChan) : c.drained.credits = 0 ∨ c.drained.waiting = [] := by
  rcases Nat.le_total c.credits c.waiting.length with h | h
  · exact .inl (by simp [LinkChan.drained, h])
  · exact .inr (by simp [LinkChan.drained, h])

theorem drained_of_none {c : LinkChan} (h : min c.credits c.waiting.length = 0) : c.drained = c := by
  simp only [LinkChan.drained, h, List.drop_zero, Nat.sub_zero]

theorem drainChan_of_none {s : State} {q vc : Nat}
    (h : min ((s.link q).chan vc).credits ((s.link q).chan vc).waiting.length = 0) : State.drainChan q s vc = s := if_pos h

theorem drainChan_of_some {s : State} {q vc : Nat}
    (h : min ((s.link q).chan vc).credits ((s.link q).chan vc).waiting.length ≠ 0) : State.drainChan q s vc =
    { s.setLink q ((s.link q).setChan vc ((s.link q).chan vc).drained) with
      out := s.out ++ ((s.link q).chan vc).waiting.take (min ((s.link q).chan vc).credits ((s.link q).chan vc).waiting.length) } :=
  if_neg h

theorem drainChan_sends (q : Nat) (s : State) (vc : Nat) : Sends s (State.drainChan q s vc) := by
  by_cases h : min ((s.link q).chan vc).credits ((s.link q).chan vc).waiting.length = 0
  · rw [drainChan_of_none h]; exact .rfl' s
  · refine ⟨drainChan_keeps q s vc, ?_, fun k => ?_, ?_⟩ <;> rw [drainChan_of_some h]
    · rfl
    · exact setLink_chans_link ..
    · exact List.prefix_append _ _

theorem drainChan_chan (q : Nat) (s : State) (vc w : Nat) : ((State.drainChan q s vc).link q).chan w =
    if w = vc then ((s.link q).chan vc).drained else (s.link q).chan w := by
  by_cases h : min ((s.link q).chan vc).credits ((s.link q).chan vc).waiting.length = 0
  · rw [drainChan_of_none h, drained_of_none h]
    split
    next hw => rw [hw]
    · rfl
  · rw [drainChan_of_some h]
    change ((s.setLink q _).link q).chan w = _
    rw [State.link_setLink, chan_setChan]

theorem drainChan_link_other {q k : Nat} (s : State) (vc : Nat) (hk : k ≠ q) : (State.drainChan q s vc).link k = s.link k := by
  by_cases h : min ((s.link q).chan vc).credits ((s.link q).chan vc).waiting.length = 0
  · rw [drainChan_of_none h]
  · rw [drainChan_of_some h]; exact link_setLink_other _ _ hk

/-! ### The channels of a link, drained in turn -/

theorem drainChans_chan (q : Nat) : ∀ (vs : List Nat) (s : State) (w : Nat), vs.Nodup →
    ((vs.foldl (State.drainChan q) s).link q).chan w =
      if w ∈ vs then ((s.link q).chan w).drained else (s.link q).chan w
  | [], _, _, _ => (if_neg (List.not_mem_nil)).symm
  | v :: vs, s, w, hnd => by
    obtain ⟨hv, hvs⟩ := List.nodup_cons.mp hnd
    rw [List.foldl_cons, drainChans_chan q vs _ w hvs, drainChan_chan]
    by_cases hw : w = v
    · subst hw; simp [hv]
    · simp [hw]

theorem drainLink_of_up {s : State} {q : Nat} (h : (s.link q).retraining = false) :
    s.drainLink q = (List.range 5).foldl (State.drainChan q) s := if_neg (by simp [h])

theorem drainLink_sends (s : State) (q : Nat) : Sends s (s.drainLink q) := by
  cases h : (s.link q).retraining
  · rw [drainLink_of_up h]; exact Sends.foldl _ (fun t v => drainChan_sends q t v) _ _
  · rw [State.drainLink, if_pos h]; exact .rfl' s

theorem drainLink_chan {s : State} {q vc : Nat} (h : (s.link q).retraining = false) (hvc : vc < 5) :
    ((s.drainLink q).link q).chan vc = ((s.link q).chan vc).drained := by
  rw [drainLink_of_up h, drainChans_chan q _ s vc List.nodup_range, if_pos (List.mem_range.mpr hvc)]

theorem drainLink_link_other {s : State} {q k : Nat} (h : (s.link q).retraining = false) (hk : k ≠ q) :
    (s.drainLink q).link k = s.link k := by
  rw [drainLink_of_up h]
  exact List.foldlRecOn (motive := fun t => t.link k = s.link k) _ _ rfl fun t ht v _ =>
    (drainChan_link_other t v hk).trans ht

/-- Where nothing waits on a link, nothing leaves. -/
theorem drainLink_of_none_waiting {s : State} {q : Nat} (h : ∀ vc, vc < 5 → ((s.link q).chan vc).waiting = []) :
    s.drainLink q = s := by
  cases hr : (s.link q).retraining
  · rw [drainLink_of_up hr]
    refine List.foldlRecOn (motive := fun t => t = s) _ _ rfl fun t ht v hv => ?_
    rw [ht]
    exact drainChan_of_none (by simp [h v (List.mem_range.mp hv)])
  · exact if_pos hr

/-! ### Flits -/

/-- The credits that came back with a flit, before anything leaves. -/
def State.creditsBack (s : State) (q : Nat) : State :=
  s.takeFree.modLink q fun x => { x with
    chans := Tab.mapVal (fun vc c => c.credited (Config.freeNat s.freeCount / 8192 ^ vc % 8192)) x.chans }

theorem creditsBack_waiting (s : State) (q vc : Nat) :
    (((s.creditsBack q).link q).chan vc).waiting = ((s.link q).chan vc).waiting := by
  rw [State.creditsBack, State.modLink, State.link_setLink]
  unfold PckPort.chan
  exact Tab.getD_mapVal_map LinkChan.waiting (g := fun vc c => c.credited (Config.freeNat s.freeCount / 8192 ^ vc % 8192))
    (fun _ _ => rfl) (s.link q).chans vc {}

theorem creditsBack_retraining (s : State) (q : Nat) : ((s.creditsBack q).link q).retraining = (s.link q).retraining := by
  rw [State.creditsBack, State.modLink, State.link_setLink]; rfl

theorem creditsBack_rxSeq (s : State) (q : Nat) : ((s.creditsBack q).link q).rxSeq = (s.link q).rxSeq := by
  rw [State.creditsBack, State.modLink, State.link_setLink]; rfl

theorem returnCredits_eq (s : State) (q : Nat) : s.returnCredits q = (s.creditsBack q).drainLink q := rfl

/-- A flit taken in order and acknowledged. -/
def State.flitTaken (s : State) (q : Nat) : State :=
  (s.setLink q { s.link q with rxSeq := (s.link q).rxSeq + 1 }).emit (.linkAck q (s.link q).rxSeq)

theorem flitTaken_link (s : State) (q : Nat) : (s.flitTaken q).link q = { s.link q with rxSeq := (s.link q).rxSeq + 1 } :=
  State.link_setLink ..

theorem flitTaken_keeps (s : State) (q : Nat) : Keeps [.pck, .out] s (s.flitTaken q) :=
  ((setLink_keeps _ _ _).mono (by decide)).trans' ((emit_keeps _ _).mono (by decide))

section
variable {s : State} {q : Nat} (halive : s.alive = true) (hup : (s.link q).link = true)
  (hrun : (s.link q).retraining = false)
include halive hup hrun

theorem exec_flitReceive_inOrder (d : List Byte) : exec (.flitReceive q (s.link q).rxSeq d true) s =
    .next ((s.flitTaken q).returnCredits q) :=
  (if_neg (by simp [halive, hup, hrun])).trans (if_pos ⟨rfl, rfl⟩)

theorem exec_flitReceive_other {n : Nat} {ok : Bool} (d : List Byte) (h : ok = false ∨ n ≠ (s.link q).rxSeq) :
    exec (.flitReceive q n d ok) s = .next (s.emit (.linkReplayRequest q (s.link q).rxSeq)) :=
  (if_neg (by simp [halive, hup, hrun])).trans (if_neg (by rintro ⟨hok, hn⟩; simp [hok, hn] at h))

/-- A flit in order is acknowledged; every channel then sends what its credits allow. -/
theorem flitReceive_drains (d : List Byte) :
    ∃ t, exec (.flitReceive q (s.link q).rxSeq d true) s = .next t ∧ (t.link q).rxSeq = (s.link q).rxSeq + 1 ∧
      s.out ++ [.linkAck q (s.link q).rxSeq] <+: t.out ∧
      ((∀ vc, vc < 5 → ((s.link q).chan vc).waiting = []) → t.out = s.out ++ [.linkAck q (s.link q).rxSeq]) ∧
      (∀ vc, vc < 5 → ((t.link q).chan vc).waiting <:+ ((s.link q).chan vc).waiting ∧
        (((t.link q).chan vc).credits = 0 ∨ ((t.link q).chan vc).waiting = [])) ∧
      (∀ k, k ≠ q → t.link k = s.link k) ∧ Keeps [.pck, .out, .freeCount] s t := by
  have hwait : ∀ vc, ((((s.flitTaken q).creditsBack q).link q).chan vc).waiting = ((s.link q).chan vc).waiting := fun vc => by
    rw [creditsBack_waiting, flitTaken_link]; rfl
  have hrun' : (((s.flitTaken q).creditsBack q).link q).retraining = false := by
    rw [creditsBack_retraining, flitTaken_link]; exact hrun
  have hsent := drainLink_sends ((s.flitTaken q).creditsBack q) q
  refine ⟨_, exec_flitReceive_inOrder halive hup hrun d, ?_, hsent.out, fun hnone => ?_, fun vc hvc => ?_, fun k hk => ?_, ?_⟩
  · rw [returnCredits_eq, hsent.link q]
    change (((s.flitTaken q).creditsBack q).link q).rxSeq = _
    rw [creditsBack_rxSeq, flitTaken_link]
  · rw [returnCredits_eq, drainLink_of_none_waiting fun vc hvc => (hwait vc).trans (hnone vc hvc)]
    rfl
  · rw [returnCredits_eq, drainLink_chan hrun' hvc, ← hwait vc]
    exact ⟨drained_waiting _, drained_spent _⟩
  · rw [returnCredits_eq, drainLink_link_other hrun' hk]
    exact (link_setLink_other _ _ hk).trans (link_setLink_other s _ hk)
  · exact ((flitTaken_keeps s q).mono (by decide)).trans' (returnCredits_keeps _ _)

/-! ### Replays and retraining (R511, R512) -/

/-- The consecutive replays of flit `n` that a request for it makes. -/
def PckPort.runOf (x : PckPort) (n : Nat) : Nat := if x.replayRun ≠ 0 ∧ x.replayOf = n then x.replayRun + 1 else 1

/-- A port after one more replay. -/
def PckPort.replayed (x : PckPort) (n : Nat) : PckPort :=
  { x with replays := satInc x.replays, replayOf := n, replayRun := x.runOf n, retraining := decide (16 ≤ x.runOf n) }

theorem exec_replayRequestReceive (n : Nat) : exec (.replayRequestReceive q n) s =
    .next ((s.setLink q ((s.link q).replayed n)).emit (.linkReplay q n)) :=
  if_neg (by simp [halive, hup, hrun])

end

section
variable {s : State} {q : Nat}

theorem exec_fecLockLossTimeout (halive : s.alive = true) (hup : (s.link q).link = true) :
    exec (.fecLockLossTimeout q) s = .next (s.setLink q { s.link q with retraining := true }) :=
  congrArg Host.Outcome.next (if_pos (by simp [halive, hup]))

/-- A port whose retraining has succeeded. -/
def PckPort.retrained (x : PckPort) : PckPort := { x with retraining := false, replayRun := 0, retrains := satInc x.retrains }

theorem exec_retrainDone_up (halive : s.alive = true) (hup : (s.link q).link = true) (hre : (s.link q).retraining = true) :
    exec (.retrainDone q true) s =
      .next (((s.setLink q (s.link q).retrained).pckReport 13 (.traverse q) none none).drainLink q) :=
  (if_neg (by simp [halive, hup, hre])).trans (if_pos rfl)

end

/-! ### A link down (R547, R548) -/

/-- The Pack after a link to member `m` went down while it was FORMING or FORMED. -/
def Pck.linkLost (p : Pck) (q m : Nat) : Pck :=
  { p with
    ports := Tab.put p.ports q (Tab.getD p.ports q {}).down, linkDowns := satInc p.linkDowns, state := .failed, lead := 0
    failCode := 8, failMember := BitVec.ofNat 11 m, failPort := BitVec.ofNat 3 q, code := 8 }

section
variable {s : State} {q m : Nat}

theorem linkFell_of_busy (hm : s.pck.neighbour s.pck.me q = some m) (hbusy : s.pck.busy = true) :
    s.linkFell q = State.report { s with pck := s.pck.linkLost q m } { blk := .pck, nn := 8, unit := .traverse q } := by
  have hm' : (s.modLink q PckPort.down).pck.neighbour (s.modLink q PckPort.down).pck.me q = some m :=
    (neighbour_congr (r := (s.modLink q PckPort.down).pck) (p := s.pck) rfl _ _).trans hm
  unfold State.linkFell
  dsimp only
  rw [hm']
  exact if_pos hbusy

theorem linkEv_class (nn q : Nat) (h : nn = 8 ∨ nn = 13 ∨ nn = 16) :
    ({ blk := .pck, nn := nn, unit := .traverse q } : Ev).class = .reportOnly := by
  obtain rfl | rfl | rfl := h <;> rfl

theorem linkEv_class_ne (nn q : Nat) (h : nn = 8 ∨ nn = 13 ∨ nn = 16) :
    ({ blk := .pck, nn := nn, unit := .traverse q } : Ev).class ≠ .moduleFatal := by
  rw [linkEv_class nn q h]; decide

theorem pckReport_link {nn k : Nat} {u : UnitRef} (hcls : ({ blk := .pck, nn := nn, unit := u } : Ev).class ≠ .moduleFatal)
    (s : State) : (s.pckReport nn u none none).link k = s.link k := by
  rw [State.link, pckReport_pck hcls]; rfl

theorem linkFell_pck (hm : s.pck.neighbour s.pck.me q = some m) (hbusy : s.pck.busy = true) :
    (s.linkFell q).pck = s.pck.linkLost q m := by
  rw [linkFell_of_busy hm hbusy]
  exact report_setPck_pck (linkEv_class_ne 8 q (by decide)) s _

theorem linkFell_link (hm : s.pck.neighbour s.pck.me q = some m) (hbusy : s.pck.busy = true) :
    (s.linkFell q).link q = (s.link q).down := by
  rw [State.link, linkFell_pck hm hbusy]
  exact Tab.getD_put_same ..

theorem linkFell_keeps (hm : s.pck.neighbour s.pck.me q = some m) (hbusy : s.pck.busy = true) :
    Keeps ([.pck] ++ reportParts) s (s.linkFell q) := by
  rw [linkFell_of_busy hm hbusy]
  exact report_setPck_keeps (linkEv_class_ne 8 q (by decide)) s _

theorem linkFell_records (hm : s.pck.neighbour s.pck.me q = some m) (hbusy : s.pck.busy = true) :
    Records s (s.linkFell q) ⟨.pck, 8⟩ .reportOnly (.traverse q) [] := by
  rw [linkFell_of_busy hm hbusy]
  exact report_setPck_records (linkEv_class_ne 8 q (by decide)) s _

theorem exec_traverseLinkDown (halive : s.alive = true) (hq : q < 8) (hup : (s.link q).link = true) :
    exec (.traverseLinkDown q) s = .next (s.linkFell q) :=
  (if_neg (by simp [halive])).trans ((if_neg (by omega)).trans (congrArg Host.Outcome.next (if_pos hup)))

theorem exec_retrainDone_down (halive : s.alive = true) (hup : (s.link q).link = true) (hre : (s.link q).retraining = true) :
    exec (.retrainDone q false) s = .next (s.linkFell q) :=
  (if_neg (by simp [halive, hup, hre])).trans (if_neg (by simp))

theorem exec_portStateFatal (halive : s.alive = true) (hq : q < 8) (hup : (s.link q).link = true) :
    exec (.portStateFatal q) s = .next ((s.pckReport 16 (.traverse q) none none).linkFell q) :=
  congrArg Host.Outcome.next (if_pos (by simp [halive, hq, hup]))

end

/-- Settles O40: each channel is drained apart from the others, and each other command is one change of its port, with the
message or the report that R511 to R513, R547 and R548 give it. -/
theorem linksReplayRetrainFall : Obligations.LinksReplayRetrainFall := by
  unfold Obligations.LinksReplayRetrainFall
  intro s q halive hq hup
  refine ⟨fun vc o => ⟨fun k hk => ?_, fun hclear => ⟨sendLink_out o hclear, ?_⟩, fun hnot => ⟨?_, ?_⟩⟩,
    fun d hrun => ⟨flitReceive_drains halive hup hrun d, fun n ok hbad => ?_⟩, fun n hrun => ?_, ?_, fun hre => ?_,
    fun i m hi hm hbusy => ?_, fun m hm hbusy => ?_⟩
  · cases hc : (s.link q).clear vc
    · rw [sendLink_of_not_clear o hc, State.link_setLink, chan_setChan, if_neg hk]
    · rw [sendLink_of_clear o hc]
      change ((s.setLink q _).link q).chan k = _
      rw [State.link_setLink, chan_setChan, if_neg hk]
  · have hpos : 0 < ((s.link q).chan vc).credits := by simp [PckPort.clear] at hclear; omega
    rw [sendLink_of_clear o hclear]
    change (((s.setLink q _).link q).chan vc).credits + 1 = _
    rw [State.link_setLink, chan_setChan, if_pos rfl]
    exact Nat.sub_add_cancel hpos
  · rw [sendLink_of_not_clear o hnot]; rfl
  · rw [sendLink_of_not_clear o hnot, State.link_setLink, chan_setChan, if_pos rfl]
  · exact ⟨_, exec_flitReceive_other halive hup hrun d hbad, rfl, emit_keeps _ _⟩
  · have hlink : ((s.setLink q ((s.link q).replayed n)).emit (.linkReplay q n)).link q = (s.link q).replayed n :=
      State.link_setLink ..
    refine ⟨_, exec_replayRequestReceive halive hup hrun n, congrArg (·.replays) hlink, rfl, fun hof hfifteen => ?_,
      fun hof => ?_, ((setLink_keeps _ _ _).mono (by decide)).trans' ((emit_keeps _ _).mono (by decide))⟩
    · rw [hlink]; simp [PckPort.replayed, PckPort.runOf, hof, hfifteen]
    · rw [hlink]; simp [PckPort.replayed, PckPort.runOf, hof]
  · exact ⟨_, exec_fecLockLossTimeout halive hup, State.link_setLink .., setLink_keeps _ _ _⟩
  · have hcls := linkEv_class_ne 13 q (by decide)
    have hset := setLink_keeps s q (s.link q).retrained
    have hsent := drainLink_sends ((s.setLink q (s.link q).retrained).pckReport 13 (.traverse q) none none) q
    have hlink := hsent.link q
    rw [pckReport_link hcls, State.link_setLink] at hlink
    exact ⟨_, exec_retrainDone_up halive hup hre, congrArg (·.retraining) hlink, (congrArg (·.link) hlink).trans hup,
      congrArg (·.retrains) hlink,
      records_of_after (records_of_before (pckReport_records hcls (s.setLink q (s.link q).retrained)) id rfl)
        (hsent.keeps .erl (by decide)),
      ((hset.mono (by decide)).trans' (pckReport_keeps hcls _)).trans' (hsent.keeps.mono (by decide))⟩
  · have hexec : exec i s = .next (s.linkFell q) := by
      obtain rfl | ⟨rfl, hre⟩ := hi
      · exact exec_traverseLinkDown halive hq hup
      · exact exec_retrainDone_down halive hup hre
    have hpck := linkFell_pck hm hbusy
    exact ⟨_, hexec, congrArg (·.link) (linkFell_link hm hbusy), congrArg (·.state) hpck, congrArg (·.lead) hpck,
      congrArg (·.failCode) hpck, congrArg (·.linkDowns) hpck, linkFell_records hm hbusy, linkFell_keeps hm hbusy⟩
  · have hcls := linkEv_class_ne 16 q (by decide)
    have hmid := pckReport_pck hcls s
    have hm' : (s.pckReport 16 (.traverse q) none none).pck.neighbour (s.pckReport 16 (.traverse q) none none).pck.me q =
        some m := by
      rw [hmid]; exact (neighbour_congr (r := { s.pck with code := 16 }) (p := s.pck) rfl _ _).trans hm
    have hbusy' : (s.pckReport 16 (.traverse q) none none).pck.busy = true := by rw [hmid]; exact hbusy
    have hpck := linkFell_pck hm' hbusy'
    exact ⟨_, exec_portStateFatal halive hq hup, congrArg (·.link) (linkFell_link hm' hbusy'), congrArg (·.state) hpck,
      congrArg (·.failCode) hpck, (pckReport_keeps hcls s).trans' (linkFell_keeps hm' hbusy')⟩

end Sys2Proof.Machine
end

section
/-!
Formation of a Pack (O36): FORM, LEAVE, links and greetings (R510, R529, R530, R532, R549).
-/
namespace Sys2Proof.Machine
open Sys2Proof

/-! ### A failure of the Pack (R548) -/

/-- The event of a Pack failure that no context is part of. -/
def packEv (nn port : Nat) : Ev :=
  { blk := .pck, nn := nn, unit := if 8 ≤ nn ∧ nn ≠ 9 ∧ nn ≠ 10 ∧ nn ≠ 12 then .traverse port else .none }

/-- The Pack with a failure noted. -/
def Pck.failNoted (p : Pck) (nn member port : Nat) : Pck :=
  { p with
    failCode := BitVec.ofNat 8 nn, failMember := BitVec.ofNat 11 member, failPort := BitVec.ofNat 3 port, code := BitVec.ofNat 8 nn }

section
variable {nn port : Nat} (hcls : (packEv nn port).class ≠ .moduleFatal) (s : State) (member : Nat)
include hcls

theorem pckFail_pck : (s.pckFail nn member port none none).pck = s.pck.failNoted nn member port := report_setPck_pck hcls s _

theorem pckFail_keeps : Keeps ([.pck] ++ reportParts) s (s.pckFail nn member port none none) := report_setPck_keeps hcls s _

theorem pckFail_records :
    Records s (s.pckFail nn member port none none) ⟨.pck, nn⟩ (packEv nn port).class (packEv nn port).unit [] :=
  report_setPck_records hcls s _

theorem packFailed_pck : (s.packFailed nn member port).pck = { s.pck with state := .failed, lead := 0 }.failNoted nn member port :=
  pckFail_pck hcls _ member

theorem packFailed_keeps : Keeps ([.pck] ++ reportParts) s (s.packFailed nn member port) :=
  ((setPck_keeps s _).mono (by decide)).trans' (pckFail_keeps hcls _ member)

theorem packFailed_records :
    Records s (s.packFailed nn member port) ⟨.pck, nn⟩ (packEv nn port).class (packEv nn port).unit [] :=
  records_of_before (pckFail_records hcls { s with pck := { s.pck with state := .failed, lead := 0 } } member) id rfl

end

theorem packEv_eight (port : Nat) : (packEv 8 port).class ≠ .moduleFatal := fun h => nomatch h

theorem linkFell_frame (s : State) (q : Nat) : Keeps ([.pck] ++ reportParts) s (s.linkFell q) := by
  have hdown : Keeps ([.pck] ++ reportParts) s (s.modLink q PckPort.down) := (setLink_keeps _ _ _).mono (by decide)
  unfold State.linkFell
  dsimp only
  split
  · exact hdown
  · have hcount := hdown.trans' ((setPck_keeps (s.modLink q PckPort.down) { (s.modLink q PckPort.down).pck with
      linkDowns := satInc (s.modLink q PckPort.down).pck.linkDowns }).mono (by decide))
    split
    · exact hcount.trans' (packFailed_keeps (packEv_eight q) _ _)
    · exact hcount.trans' (pckFail_keeps (packEv_eight q) _ _)

/-! ### FORM -/

theorem mem_cabledPorts {p : Pck} {q : Nat} (hq : q < 8) : p.cabledPorts.contains q = (p.neighbour p.me q).isSome := by
  rw [Bool.eq_iff_iff]
  simp [Pck.cabledPorts, hq]

/-- The Pack as a formation begins. -/
def Pck.formBegun (p : Pck) (ids : List DWord) (hash : DWord) : Pck :=
  { p with
    state := .forming, admitHash := hash, admitIds := ids, syntFault := false, ready := p.isMaster, reported := false
    lead := 0, epoch := { p.epoch with syntLock := false } }

/-- Every port as a formation begins. -/
def State.portsForming (s : State) (ids : List DWord) (hash : DWord) : State :=
  (List.range 8).foldl (fun t q => t.modLink q fun x => x.forming ((s.pck.formBegun ids hash).cabledPorts.contains q))
    { s with pck := s.pck.formBegun ids hash }

theorem portsForming_pck (s : State) (ids : List DWord) (hash : DWord) : (s.portsForming ids hash).pck =
    { s.pck.formBegun ids hash with ports := (s.portsForming ids hash).pck.ports } := modLinks_pck _ _ _

theorem portsForming_link (s : State) (ids : List DWord) (hash : DWord) {q : Nat} (hq : q < 8) :
    (s.portsForming ids hash).link q = (s.link q).forming (s.pck.neighbour s.pck.me q).isSome := by
  have hcab := cabledPorts_congr (r := s.pck.formBegun ids hash) (p := s.pck) rfl rfl
  rw [State.portsForming, modLinks_link (fun q x => x.forming ((s.pck.formBegun ids hash).cabledPorts.contains q)) _ _ _
    List.nodup_range, if_pos (List.mem_range.mpr hq), hcab, mem_cabledPorts hq]
  rfl

theorem portsForming_keeps (s : State) (ids : List DWord) (hash : DWord) : Keeps [.pck] s (s.portsForming ids hash) :=
  (setPck_keeps s _).trans' (modLinks_keeps _ _ _)

/-- The ports of a forming Pack, then greetings on the links that are up. -/
theorem form_sends (s : State) (ids : List DWord) (hash : DWord) : Sends (s.portsForming ids hash) (s.form ids hash) :=
  Sends.foldl _ (fun t q => sendControl_sends t q _) _ _

section
variable {s : State}

theorem exec_packForm (hreach : s.hostReach 0 = true) (hfree : s.pck.busy = false) : exec (.packForm 0) s =
    match s.formCheck with
    | some r => .next (s.form r.1 r.2)
    | none => .next (State.pckFail { s with pck := { s.pck with state := .idle } } 1 s.pck.me 0 none none) :=
  if_neg (by simp [hreach, hfree])

theorem packForm_forms {r : List DWord × DWord} (hreach : s.hostReach 0 = true) (hfree : s.pck.busy = false)
    (hcheck : s.formCheck = some r) :
    ∃ t, exec (.packForm 0) s = .next t ∧ t.pck.state = .forming ∧ t.pck.admitIds = r.1 ∧ t.pck.admitHash = r.2 ∧
      t.pck.lead = 0 ∧ (∀ q, q < 8 → (t.link q).en = ((s.link q).en || (s.pck.neighbour s.pck.me q).isSome)) ∧
      Keeps [.pck, .out] s t := by
  have hsent := form_sends s r.1 r.2
  have hpck := hsent.pck
  rw [portsForming_pck] at hpck
  refine ⟨s.form r.1 r.2, by rw [exec_packForm hreach hfree, hcheck], congrArg (·.state) hpck, congrArg (·.admitIds) hpck,
    congrArg (·.admitHash) hpck, congrArg (·.lead) hpck, fun q hq => ?_,
    ((portsForming_keeps s _ _).mono (by decide)).trans' hsent.keeps⟩
  rw [hsent.link q, portsForming_link s _ _ hq]
  rfl

theorem packForm_refused (hreach : s.hostReach 0 = true) (hfree : s.pck.busy = false) (hcheck : s.formCheck = none) :
    ∃ t, exec (.packForm 0) s = .next t ∧ t.pck.state = .idle ∧ t.pck.failCode = 1 ∧ t.pck.code = 1 ∧
      t.pck.ports = s.pck.ports ∧ Records s t ⟨.pck, 1⟩ .reportOnly .none [] ∧ Keeps ([.pck] ++ reportParts) s t := by
  have hcls : (packEv 1 0).class ≠ .moduleFatal := by decide
  have hpck := pckFail_pck hcls { s with pck := { s.pck with state := .idle } } s.pck.me
  have hrec := pckFail_records hcls { s with pck := { s.pck with state := .idle } } s.pck.me
  exact ⟨_, by rw [exec_packForm hreach hfree, hcheck], congrArg (·.state) hpck, congrArg (·.failCode) hpck,
    congrArg (·.code) hpck, congrArg (·.ports) hpck, records_of_before hrec id rfl,
    ((setPck_keeps s _).mono (by decide)).trans' (pckFail_keeps hcls _ _)⟩

/-! ### LEAVE (R549) -/

/-- Every link that was up has gone down. -/
def State.linksFallen (s : State) : State := (s.pck.cabledPorts.filter fun q => (s.link q).link).foldl (fun t q => t.linkFell q) s

/-- Every port is disabled. -/
def State.portsDisabled (s : State) : State := (List.range 8).foldl (fun t q => t.modLink q fun x => { x.down with en := false }) s

/-- The Pack as it is left. -/
def Pck.left (p : Pck) : Pck :=
  { p with
    state := .idle, lead := 0, ready := false, reported := false, syntFault := false, epoch := { p.epoch with syntLock := false } }

theorem leavePack_eq (s : State) :
    s.leavePack = { s.linksFallen.portsDisabled with pck := s.linksFallen.portsDisabled.pck.left } := rfl

theorem portsDisabled_link (s : State) {q : Nat} (hq : q < 8) : s.portsDisabled.link q = { (s.link q).down with en := false } := by
  rw [State.portsDisabled, modLinks_link (fun _ x => { x.down with en := false }) _ _ _ List.nodup_range,
    if_pos (List.mem_range.mpr hq)]

theorem leavePack_pck (s : State) : s.leavePack.pck = s.linksFallen.portsDisabled.pck.left := by rw [leavePack_eq]

theorem leavePack_link (s : State) {q : Nat} (hq : q < 8) :
    s.leavePack.link q = { (s.linksFallen.link q).down with en := false } := by
  rw [State.link, leavePack_pck]; exact portsDisabled_link s.linksFallen hq

theorem leavePack_keeps (s : State) : Keeps ([.pck] ++ reportParts) s s.leavePack := by
  have hfell : Keeps ([.pck] ++ reportParts) s s.linksFallen := Keeps.foldl _ _ (fun t q => linkFell_frame t q) _ _
  have hoff : Keeps [.pck] s.linksFallen s.linksFallen.portsDisabled := modLinks_keeps _ _ _
  rw [leavePack_eq]
  exact (hfell.trans' (hoff.mono (by decide))).trans' ((setPck_keeps _ _).mono (by decide))

theorem exec_packLeave (hreach : s.hostReach 0 = true) : exec (.packLeave 0) s = .next s.leavePack :=
  congrArg Host.Outcome.next (if_pos (by simp [hreach]))

/-! ### Links and greetings -/

/-- A port whose link has come up. -/
def State.linkUp (s : State) (q : Nat) : State := s.modLink q fun x => { x.down with link := true, moduleOk := true }

theorem linkUp_link (s : State) (q : Nat) : (s.linkUp q).link q = { (s.link q).down with link := true, moduleOk := true } :=
  State.link_setLink ..

variable {q : Nat}

theorem exec_traverseLinkUp_true (halive : s.alive = true) (hq : q < 8) (hen : (s.link q).en = true)
    (hdown : (s.link q).link = false) : exec (.traverseLinkUp q true) s =
    .next (if (s.linkUp q).pck.state == .forming && (s.linkUp q).pck.cabledPorts.contains q then (s.linkUp q).greet q
      else s.linkUp q) :=
  (if_neg (by simp [halive, hq, hen, hdown])).trans (if_neg (by simp))

theorem exec_traverseLinkUp_false (halive : s.alive = true) (hq : q < 8) (hen : (s.link q).en = true)
    (hdown : (s.link q).link = false) : exec (.traverseLinkUp q false) s =
    .next ((s.setLink q { s.link q with moduleOk := false }).pckReport 11 (.traverse q) none none) :=
  (if_neg (by simp [halive, hq, hen, hdown])).trans (if_pos (by simp))

/-- A link that has come up is up, whether it greets or not. -/
theorem linkUp_greets (b : Bool) : ∃ t, t = (if b then (s.linkUp q).greet q else s.linkUp q) ∧ Sends (s.linkUp q) t ∧
    ∀ k, k ≠ q → t.link k = (s.linkUp q).link k := by
  cases b
  · exact ⟨_, rfl, .rfl' _, fun _ _ => rfl⟩
  · exact ⟨_, rfl, sendControl_sends .., fun k hk => sendLink_link_other _ _ _ hk⟩

theorem traverseLinkUp_rises (halive : s.alive = true) (hq : q < 8) (hen : (s.link q).en = true)
    (hdown : (s.link q).link = false) :
    ∃ t, exec (.traverseLinkUp q true) s = .next t ∧ (t.link q).link = true ∧ (t.link q).moduleOk = true ∧
      (∀ k, k ≠ q → t.link k = s.link k) ∧ Keeps [.pck, .out] s t := by
  obtain ⟨t, ht, hsent, hother⟩ := linkUp_greets (s := s) (q := q)
    ((s.linkUp q).pck.state == .forming && (s.linkUp q).pck.cabledPorts.contains q)
  have hlink := hsent.link q
  rw [linkUp_link] at hlink
  exact ⟨t, by rw [exec_traverseLinkUp_true halive hq hen hdown, ht], congrArg (·.link) hlink, congrArg (·.moduleOk) hlink,
    fun k hk => (hother k hk).trans (link_setLink_other _ _ hk),
    ((setLink_keeps _ _ _).mono (by decide)).trans' hsent.keeps⟩

theorem traverseLinkUp_refused (halive : s.alive = true) (hq : q < 8) (hen : (s.link q).en = true)
    (hdown : (s.link q).link = false) :
    ∃ t, exec (.traverseLinkUp q false) s = .next t ∧ (t.link q).link = false ∧ t.pck.code = 11 ∧
      Records s t ⟨.pck, 11⟩ .reportOnly (.traverse q) [] ∧ Keeps ([.pck] ++ reportParts) s t := by
  have hcls : ({ blk := .pck, nn := 11, unit := .traverse q } : Ev).class ≠ .moduleFatal := fun h => nomatch h
  refine ⟨_, exec_traverseLinkUp_false halive hq hen hdown, ?_, congrArg (·.code) (pckReport_pck hcls _),
    records_of_before (pckReport_records hcls _) id rfl,
    ((setLink_keeps _ _ _).mono (by decide)).trans' (pckReport_keeps hcls _)⟩
  rw [pckReport_link hcls, State.link_setLink]
  exact hdown

section
variable {m : Nat} {id pid : DWord} {asym : Word} {rtt : Nat} (halive : s.alive = true) (hform : s.pck.state = .forming)
  (hup : (s.link q).link = true) (hcab : s.pck.cabledPorts.contains q = true)
include halive hform hup hcab

theorem exec_linkGreetingReceive : exec (.linkGreetingReceive q id pid m asym rtt) s =
    if s.greetingOk q id pid m asym rtt then .next (s.setLink q { s.link q with greeted := true })
    else .next (s.packFailed 2 m q) :=
  if_neg (by simp [halive, hform, hup, List.contains_iff_mem.mp hcab])

theorem linkGreetingReceive_taken (hok : s.greetingOk q id pid m asym rtt = true) :
    ∃ t, exec (.linkGreetingReceive q id pid m asym rtt) s = .next t ∧
      t.link q = { s.link q with greeted := true } ∧ t.pck.state = .forming ∧ Keeps [.pck] s t :=
  ⟨_, (exec_linkGreetingReceive halive hform hup hcab).trans (if_pos hok), State.link_setLink .., hform, setLink_keeps _ _ _⟩

theorem linkGreetingReceive_refused (hbad : s.greetingOk q id pid m asym rtt = false) :
    ∃ t, exec (.linkGreetingReceive q id pid m asym rtt) s = .next t ∧ t.pck.state = .failed ∧ t.pck.failCode = 2 ∧
      Records s t ⟨.pck, 2⟩ .reportOnly .none [] ∧ Keeps ([.pck] ++ reportParts) s t := by
  have hcls : (packEv 2 q).class ≠ .moduleFatal := fun h => nomatch h
  have hpck := packFailed_pck hcls s m
  exact ⟨_, (exec_linkGreetingReceive halive hform hup hcab).trans (if_neg (by simp [hbad])), congrArg (·.state) hpck,
    congrArg (·.failCode) hpck, packFailed_records hcls s m, packFailed_keeps hcls s m⟩

end

end

/-- Settles O36: FORM enables every cabled port before any greeting leaves, and each failure is one report after the Pack's
state. -/
theorem formationBeginsGreetsEnds : Obligations.FormationBeginsGreetsEnds := by
  unfold Obligations.FormationBeginsGreetsEnds
  intro s
  refine ⟨fun hreach hfree => ⟨fun r hcheck => packForm_forms hreach hfree hcheck, packForm_refused hreach hfree⟩,
    fun hreach => ?_, fun q halive hq hen hdown => ⟨traverseLinkUp_rises halive hq hen hdown,
      traverseLinkUp_refused halive hq hen hdown⟩,
    fun q m id pid asym rtt halive hform hup hcab => ⟨fun hgood => ?_, fun hbad => ?_⟩, fun halive hform => ?_⟩
  · have hpck := leavePack_pck s
    exact ⟨_, exec_packLeave hreach, congrArg (·.state) hpck, congrArg (·.lead) hpck, fun q hq =>
      ⟨congrArg (·.en) (leavePack_link s hq), congrArg (·.link) (leavePack_link s hq)⟩, leavePack_keeps s⟩
  · obtain ⟨hm, hpid, hid, hasym, hrtt⟩ := hgood
    exact linkGreetingReceive_taken halive hform hup hcab (by simp [State.greetingOk, hm, hpid, hid, hasym, hrtt])
  · refine linkGreetingReceive_refused halive hform hup hcab ?_
    obtain hrtt | hasym | hm := hbad
    · simp [State.greetingOk, Nat.not_le.mpr hrtt]
    · simp [State.greetingOk, hasym]
    · simp [State.greetingOk, hm]
  · have hcls : (packEv 4 0).class ≠ .moduleFatal := by decide
    have hpck := packFailed_pck hcls s s.pck.me
    exact ⟨_, congrArg Host.Outcome.next (if_pos (by simp [halive, hform])), congrArg (·.state) hpck,
      congrArg (·.failCode) hpck, congrArg (·.lead) hpck, packFailed_records hcls s _, packFailed_keeps hcls s _⟩

end Sys2Proof.Machine
end

section
/-!
Formation reports and calibration rounds (O37) over the time tree (R524, R525, R532, R533).
-/
namespace Sys2Proof.Machine
open Sys2Proof

/-! ### Reports (Table 15.5, steps 6 to 8) -/

section
variable {s : State} {q : Nat}

/-- A child's report kept. -/
def State.reportKept (s : State) (q : Nat) (r : PrintReport) : State := s.modLink q fun x => { x with report := some r }

theorem reportKept_clear (s : State) (q : Nat) (r : PrintReport) (k vc : Nat) :
    ((s.reportKept q r).link k).clear vc = (s.link k).clear vc := by
  by_cases hk : k = q
  · subst hk; rw [State.reportKept, State.modLink, State.link_setLink]; rfl
  · rw [State.reportKept, State.modLink, link_setLink_other _ _ hk]

theorem exec_fingerprintReceive (print : List Byte) (delay : Nat) (df : Option Nat) (halive : s.alive = true)
    (hform : s.pck.state = .forming) (hchild : s.pck.childPorts.contains q = true) :
    exec (.fingerprintReceive q print delay df) s =
      .next (s.reportKept q { print := print, delay := delay, differs := df }).reportStep :=
  if_neg (by simp [halive, hform, List.contains_iff_mem.mp hchild])

/-- A member that is not ready reports nothing yet. -/
theorem reportStep_of_not_ready (h : s.pck.ready = false) : s.reportStep = s := if_pos (by simp [h])

/-- The Pack formed with a lead. -/
def State.packFormed (s : State) (lead : Nat) (e : DWord) : State :=
  { s with pck := { s.pck with state := .formed, lead := BitVec.ofNat 24 lead, formedAt := e } }

/-- The lead of a largest tree delay (R533). -/
def leadOf (delay : Nat) : Nat := (delay + 2 ^ 17 - 1) / 2 ^ 17 + 2000

/-- The master, told by every child and with no member that differs, forms the Pack. -/
theorem reportStep_of_agreed (hform : s.pck.state = .forming) (hready : s.pck.ready = true) (hnot : s.pck.reported = false)
    (hrounds : s.roundsMade = true) (hall : (s.pck.childPorts.all fun c => (s.link c).report.isSome) = true)
    (hmaster : s.pck.isMaster = true) (hsame : s.combineReports.2 = none) : s.reportStep =
    (State.packFormed { s with pck := { s.pck with reported := true } } (leadOf s.combineReports.1) s.epoch).toChildren
      (.formed (leadOf s.combineReports.1) s.epoch) := by
  unfold State.reportStep
  rw [if_neg (by simp only [hform, hready, hnot, hrounds, hall]; decide)]
  dsimp only
  refine (if_pos hmaster).trans ?_
  rw [hsame]
  rfl

theorem exec_formedReceive (lead : Nat) (e : DWord) (hfrom : s.formingFrom q = true) :
    exec (.formedReceive q lead e) s = .next ((s.packFormed lead e).toChildren (.formed lead e)) := if_neg (by simp [hfrom])

theorem exec_refusedReceive (m : Nat) (hfrom : s.formingFrom q = true) :
    exec (.refusedReceive q m) s = .next ((s.toChildren (.refused m)).packFailed 3 m 0) := if_neg (by simp [hfrom])

end

/-! ### Calibration rounds (R524, R525) -/

section
variable {s : State} {q : Nat}

/-- A port's round written. -/
def State.roundSet (s : State) (q : Nat) (r : Option Round) : State := s.modLink q fun x => { x with round := r }

theorem roundSet_link (s : State) (q : Nat) (r : Option Round) : (s.roundSet q r).link q = { s.link q with round := r } :=
  State.link_setLink ..

theorem roundSet_keeps (s : State) (q : Nat) (r : Option Round) : Keeps [.pck] s (s.roundSet q r) := setLink_keeps _ _ _

/-- A round written and a message sent on its port. -/
theorem roundSet_sendControl_round (s : State) (q : Nat) (r : Option Round) (m : LinkMsg) :
    (((s.roundSet q r).sendControl q m).link q).round = r := by
  rw [(sendControl_sends (s.roundSet q r) q m).link q, roundSet_link]

theorem roundSet_sendControl_out (r : Option Round) (m : LinkMsg) (h : (s.link q).clear controlChannel = true) :
    ((s.roundSet q r).sendControl q m).out = s.out ++ [.link q m] :=
  sendControl_out m (by rw [roundSet_link]; exact h)

theorem roundSet_sendControl_keeps (s : State) (q : Nat) (r : Option Round) (m : LinkMsg) :
    Keeps [.pck, .out] s ((s.roundSet q r).sendControl q m) :=
  ((roundSet_keeps s q r).mono (by decide)).trans' (sendControl_keeps _ _ _)

theorem exec_calibrationRoundStart (halive : s.alive = true) (hbusy : s.pck.busy = true) (hend : s.parentEnd q = true)
    (hready : s.pck.ready = true) (hnone : (s.link q).round = none) : exec (.calibrationRoundStart q) s =
    .next (s.roundSet q (some (Round.start (s.pck.state == .forming)))) :=
  congrArg Host.Outcome.next (if_pos (by simp [halive, hbusy, hend, hready, hnone]))

/-- A round after one more probe was sent. -/
def Round.probed (r : Round) (t1 : Nat) : Round := { r with sent := r.sent + 1, t1 := Tab.put r.t1 r.sent t1 }

theorem exec_probeSend {r : Round} (halive : s.alive = true) (hround : (s.link q).round = some r)
    (hend : s.parentEnd q = true) (hsent : r.sent < 64) : exec (.probeSend q) s =
    .next ((s.roundSet q (some (r.probed s.stamp))).sendControl q (.probe r.sent)) := by
  change execProbeSend q s = _
  unfold execProbeSend
  rw [hround]
  exact if_neg (by simp [halive, hend, hsent])

/-- The round that a received probe belongs to: the first probe of a round begins it. -/
def State.probedRound (s : State) (q n : Nat) : Round :=
  if n = 0 then Round.start (s.pck.state == .forming) else ((s.link q).round).getD (Round.start (s.pck.state == .forming))

theorem exec_probeReceive {n : Nat} (d : Nat) (halive : s.alive = true) (hbusy : s.pck.busy = true)
    (hend : s.pck.childEnd q = true) (hup : (s.link q).link = true) (hn : n < 64) : exec (.probeReceive q n d) s =
    .next ((s.roundSet q (some { s.probedRound q n with
      t23 := Tab.put (s.probedRound q n).t23 n (s.stamp, (s.stamp + d) % 2 ^ 64) })).sendControl q (.probeReply n)) :=
  if_neg (by simp [halive, hbusy, hend, hup, hn])

/-- The round at the parent end after a reply. -/
def Round.replied (r : Round) (n : Nat) : Option Round :=
  if r.done + 1 = 64 then none else some { r with done := r.done + 1, t1 := Tab.erase r.t1 n }

theorem exec_probeReplyReceive {r : Round} {n t1 : Nat} (halive : s.alive = true) (hround : (s.link q).round = some r)
    (ht1 : Tab.find? r.t1 n = some t1) (hend : s.parentEnd q = true) : exec (.probeReplyReceive q n) s =
    .next ((s.roundSet q (r.replied n)).sendControl q (.probeTimes n t1 s.stamp)) := by
  change execProbeReplyReceive q n s = _
  unfold execProbeReplyReceive
  rw [hround]
  dsimp only
  rw [ht1]
  exact if_neg (by simp [halive, hend])

/-- The round at the child end after an exchange. -/
def Round.exchanged (r : Round) (n : Nat) (e : Int × Int) : Round :=
  { r with done := r.done + 1, sumOff := r.sumOff + e.1, sumRtt := r.sumRtt + e.2, t23 := Tab.erase r.t23 n }

theorem exec_probeTimestampsReceive {r : Round} {n t1 t2 t3 t4 : Nat} (halive : s.alive = true)
    (hround : (s.link q).round = some r) (ht : Tab.find? r.t23 n = some (t2, t3)) (hbusy : s.pck.busy = true)
    (hend : s.pck.childEnd q = true) (ht1 : t1 < 2 ^ 64) (ht4 : t4 < 2 ^ 64) :
    exec (.probeTimestampsReceive q n t1 t4) s =
      if r.done + 1 = 64 then .next (s.roundDone q r.formation
        ((r.sumOff + (exchange t1 t2 t3 t4 (s.parentAsym q)).1) / 64)
        ((r.sumRtt + (exchange t1 t2 t3 t4 (s.parentAsym q)).2) / 64))
      else .next (s.roundSet q (some (r.exchanged n (exchange t1 t2 t3 t4 (s.parentAsym q))))) := by
  change execProbeTimestampsReceive q n t1 t4 s = _
  unfold execProbeTimestampsReceive
  rw [hround]
  dsimp only
  rw [ht]
  dsimp only
  rw [if_neg (by simp [halive, hbusy, hend]), Nat.mod_eq_of_lt ht1, Nat.mod_eq_of_lt ht4]
  rfl

/-- A port after a round that is not a formation's. -/
def PckPort.roundOver (x : PckPort) (bad rttBad : Bool) (offset : BitVec 32) (rtt : Int) : PckPort :=
  { x with
    round := none, offset := offset, rtt := BitVec.ofInt 64 rtt, formRtt := x.formRtt, offFault := bad
    rttFault := x.rttFault || rttBad }

def State.roundWritten (s : State) (q : Nat) (bad rttBad : Bool) (off rtt : Int) : State :=
  State.takeFree (s.setLink q ((s.link q).roundOver bad rttBad (s.offsetField off) rtt))

/-- The skew fault of a lost syntonisation ends with a round that is not bad, under a lock (R528). -/
def State.faultSettled (s : State) (bad : Bool) : State :=
  if !bad ∧ s.pck.epoch.syntLock then { s with pck := { s.pck with syntFault := false } } else s

theorem faultSettled_keeps (s : State) (bad : Bool) : Keeps [.pck] s (s.faultSettled bad) := by
  unfold State.faultSettled
  split
  · exact setPck_keeps _ _
  · exact Keeps.rfl' _ _

theorem faultSettled_ports (s : State) (bad : Bool) : (s.faultSettled bad).pck.ports = s.pck.ports := by
  unfold State.faultSettled
  split <;> rfl

/-- A round over the parent link within 500 ns of the last slews its offset in. -/
theorem roundDone_of_tree {off : Int} (rtt : Int) (hpar : s.pck.parentPort s.pck.me = some q) (hoff : off.natAbs ≤ 32768) :
    ∃ rttBad, s.roundDone q false off rtt = ((s.roundWritten q false rttBad off rtt).faultSettled false).slewEpoch (-off) := by
  refine ⟨match (s.link q).formRtt with
    | some f => !false && decide (131072 < (rtt - f).natAbs)
    | none => false, ?_⟩
  have hbad : (!false && decide ((if (s.pck.parentPort s.pck.me == some q) = true then 32768 else 98304) < off.natAbs)) = false := by
    simp [hpar, hoff]
  unfold State.roundDone
  dsimp only
  rw [hbad]
  refine (if_neg Bool.false_ne_true).trans ?_
  exact if_pos (by simp [hpar])

/-- A later state with the same ports shows the round over. -/
theorem roundWritten_link {t : State} {bad rttBad : Bool} {off rtt : Int}
    (h : t.pck.ports = (s.roundWritten q bad rttBad off rtt).pck.ports) :
    t.link q = (s.link q).roundOver bad rttBad (s.offsetField off) rtt := by
  rw [State.link, h]
  exact Tab.getD_put_same ..

theorem roundWritten_keeps (s : State) (q : Nat) (bad rttBad : Bool) (off rtt : Int) :
    Keeps [.pck, .freeCount] s (s.roundWritten q bad rttBad off rtt) :=
  ((setLink_keeps _ _ _).mono (by decide)).trans' ((takeFree_keeps _).mono (by decide))

end

/-- Settles O37: a report kept changes no channel, so what the master decides leaves on every clear tree link; a round is
followed exchange by exchange. -/
theorem formationReportsAndRounds : Obligations.FormationReportsAndRounds := by
  unfold Obligations.FormationReportsAndRounds
  intro s q halive
  have hfrom : s.pck.state = .forming → s.pck.parentPort s.pck.me = some q → s.formingFrom q = true := fun hform hpar => by
    simp [State.formingFrom, halive, hform, hpar]
  refine ⟨fun print delay df s' hform hchild hs' => ?_, fun lead e hform hpar => ?_, fun m hform hpar => ?_,
    fun hbusy hend hready hnone => ?_, fun r hround hend hsent => ?_, fun n d hbusy hend hup hn => ?_,
    fun r n t1 hround ht1 hend => ?_,
    fun r n t1 t2 t3 t4 hround ht hbusy hend ht1 ht4 => ⟨fun hmore => ?_, fun hlast hform hoff hpar => ?_⟩⟩
  · have hexec := exec_fingerprintReceive print delay df halive hform hchild
    replace hs' : s' = s.reportKept q { print := print, delay := delay, differs := df } := hs'
    rw [← hs'] at hexec
    have hpck : s'.pck = { s.pck with ports := s'.pck.ports } := by rw [hs']; rfl
    have hchildren := childPorts_congr (r := s'.pck) (p := s.pck) (congrArg (·.shape) hpck) (congrArg (·.member) hpck)
    refine ⟨fun hnot => ?_, fun hmaster hready hrep hrounds hall hsame => ?_⟩
    · rw [hexec, reportStep_of_not_ready ((congrArg (·.ready) hpck).trans hnot)]
    · rw [reportStep_of_agreed ((congrArg (·.state) hpck).trans hform) ((congrArg (·.ready) hpck).trans hready)
        ((congrArg (·.reported) hpck).trans hrep) hrounds (hchildren ▸ hall) (by rw [hpck]; exact hmaster) hsame] at hexec
      have hepoch : s'.epoch = s.epoch := by rw [State.epoch, hpck]; rfl
      rw [hepoch] at hexec
      have hkeeps : Keeps [.pck] s s' := hs' ▸ setLink_keeps _ _ _
      have hsent := toChildren_sends (State.packFormed { s' with pck := { s'.pck with reported := true } }
        (leadOf s'.combineReports.1) s.epoch) (.formed (leadOf s'.combineReports.1) s.epoch)
      refine ⟨_, _, hexec, rfl, hsent.of_pck (·.state) fun _ _ => rfl, hsent.of_pck (·.lead) fun _ _ => rfl,
        toChildren_out_of _ (congrArg (·.shape) hpck) (congrArg (·.member) hpck) (fun k => ?_)
          (hkeeps .out (by decide)), ?_⟩
      · change (s'.link k).clear controlChannel = _
        rw [hs', reportKept_clear]
      · exact ((hkeeps.trans' (setPck_keeps s' _)).mono (by decide)).trans' hsent.keeps
  · have hsent := toChildren_sends (s.packFormed lead e) (.formed lead e)
    exact ⟨_, exec_formedReceive lead e (hfrom hform hpar), hsent.of_pck (·.state) fun _ _ => rfl,
      hsent.of_pck (·.lead) fun _ _ => rfl, toChildren_out_of _ rfl rfl (fun _ => rfl) rfl,
      ((setPck_keeps s _).mono (by decide)).trans' hsent.keeps⟩
  · have hcls : (packEv 3 0).class ≠ .moduleFatal := by decide
    have hsent := toChildren_sends s (.refused m)
    have hpck := packFailed_pck hcls (s.toChildren (.refused m)) m
    exact ⟨_, exec_refusedReceive m (hfrom hform hpar), congrArg (·.state) hpck, congrArg (·.failCode) hpck,
      congrArg (·.failMember) hpck,
      records_of_before (packFailed_records hcls _ m) (fun hr => (ringsAtHost_congr (hsent.keeps .fns (by decide))).trans hr)
        (hsent.keeps .erl (by decide)),
      (hsent.keeps.mono (by decide)).trans' (packFailed_keeps hcls _ m)⟩
  · exact ⟨_, exec_calibrationRoundStart halive hbusy hend hready hnone, congrArg (·.round) (roundSet_link ..),
      roundSet_keeps _ _ _⟩
  · refine ⟨_, exec_probeSend halive hround hend hsent, ?_, roundSet_sendControl_out _ _, roundSet_sendControl_keeps _ _ _ _⟩
    rw [roundSet_sendControl_round]; rfl
  · refine ⟨_, exec_probeReceive d halive hbusy hend hup hn, ?_, roundSet_sendControl_out _ _, roundSet_sendControl_keeps _ _ _ _⟩
    rw [roundSet_sendControl_round]
    exact Tab.find?_put_same ..
  · refine ⟨_, exec_probeReplyReceive halive hround ht1 hend, ?_, roundSet_sendControl_out _ _, roundSet_sendControl_keeps _ _ _ _⟩
    rw [roundSet_sendControl_round, Round.replied]
    split <;> simp [*]
  · have hexec := (exec_probeTimestampsReceive halive hround ht hbusy hend ht1 ht4).trans (if_neg hmore)
    exact ⟨_, _, hexec, congrArg (·.round) (roundSet_link ..), rfl, rfl, rfl, roundSet_keeps _ _ _⟩
  · obtain ⟨rttBad, hdone⟩ := roundDone_of_tree ((r.sumRtt + (exchange t1 t2 t3 t4 (s.parentAsym q)).2) / 64) hpar hoff
    have hexec := (exec_probeTimestampsReceive halive hround ht hbusy hend ht1 ht4).trans (if_pos hlast)
    rw [hform, hdone] at hexec
    have hlink := roundWritten_link (faultSettled_ports (s.roundWritten q false rttBad
      ((r.sumOff + (exchange t1 t2 t3 t4 (s.parentAsym q)).1) / 64)
      ((r.sumRtt + (exchange t1 t2 t3 t4 (s.parentAsym q)).2) / 64)) false)
    refine ⟨_, hexec, congrArg (·.round) hlink, congrArg (·.rtt) hlink, rfl, ?_⟩
    exact (roundWritten_keeps _ _ _ _ _ _).trans' (((faultSettled_keeps _ _).trans' (setPck_keeps _ _)).mono (by decide))

end Sys2Proof.Machine
end

section
/-!
The Pack's jobs and its count of aborts, which the loss of frames leaves as they are (R296, R541).
-/
namespace Sys2Proof.Machine
open Sys2Proof

/-- The jobs of a Pack and its count of aborts. -/
def State.books (s : State) : Tab Job × BitVec 16 := (s.pck.jobs, s.pck.aborts)

theorem books_of_keeps {l : List Part} {s t : State} (h : Keeps l s t) (hl : Part.pck ∉ l) : t.books = s.books := by
  rw [State.books, h .pck hl, State.books]

theorem books_of_sends {s t : State} (h : Sends s t) : t.books = s.books := by rw [State.books, h.pck, State.books]

theorem foldl_books {α : Type} {g : State → α → State} (h : ∀ s a, (g s a).books = s.books) (xs : List α) (s : State) :
    (xs.foldl g s).books = s.books :=
  List.foldlRecOn (motive := fun t => t.books = s.books) _ _ rfl fun t ht a _ => (h t a).trans ht

theorem report_books {e : Ev} (hcls : e.class ≠ .moduleFatal) (s : State) : (s.report e).books = s.books :=
  books_of_keeps (report_keeps hcls s) (by decide)

@[simp] theorem modCtx_books (s : State) (c : Nat) (g : Ctx → Ctx) : (s.modCtx c g).books = s.books := rfl
@[simp] theorem modHead_books (s : State) (c : Nat) (g : Frame → Frame) : (s.modHead c g).books = s.books := rfl
@[simp] theorem modStat_books (s : State) (f c : Nat) (g : CtxStat → CtxStat) : (s.modStat f c g).books = s.books := rfl
@[simp] theorem setFn_books (s : State) (f : Nat) (x : Fn) : (s.setFn f x).books = s.books := rfl
@[simp] theorem setOq_books (s : State) (f r : Nat) (x : Oq) : (s.setOq f r x).books = s.books := rfl
@[simp] theorem modChan_books (s : State) (n : Nat) (g : Chan → Chan) : (s.modChan n g).books = s.books := rfl
@[simp] theorem lostCounted_books (s : State) : s.lostCounted.books = s.books := rfl

/-! ### Output rings (R494, R495) -/

theorem deny_books (s : State) (cls page : Nat) (write : Bool) (f ctx frame : Option Nat) :
    (s.deny cls page write .reportOnly f ctx frame).books = s.books := by
  have hcount : (s.countDenial cls page write).2.books = s.books := books_of_keeps (countDenial_keeps s cls page write) (by decide)
  unfold State.deny
  dsimp only
  split
  · exact (report_books (by simp [denialEv, Ev.class]) _).trans hcount
  · exact hcount

theorem memError_books (s : State) (nn g source : Nat) (newly : Bool) (e : Ev)
    (h : e.cls.getD (Err.cls ⟨.mem, nn⟩) ≠ .moduleFatal) : (s.memError nn g source newly e).books = s.books := by
  unfold State.memError
  refine Eq.trans (report_books ?_ _) ?_
  · exact h
  · cases newly <;> rfl

theorem ringWrite_books (s : State) (f : Nat) (host : Bool) (a : Nat) (d : List Byte) :
    (s.ringWrite f host a d).books = s.books := by
  unfold State.ringWrite
  split
  · exact books_of_keeps (hostWrite_keeps s f a d) (by decide)
  · exact (books_of_keeps (invalidate_keeps _ _) (by decide)).trans (books_of_keeps (writeDev_keeps s a d) (by decide))

theorem copyPublished_books (s : State) (copy : Option (Nat × Nat)) : (s.copyPublished copy).books = s.books := by
  cases copy <;> rfl

theorem copyFails_books (s : State) (copy : Option (Nat × Nat)) : (s.copyFails copy).books = s.books := by cases copy <;> rfl

theorem oqInterrupt_books (s : State) (f r : Nat) : (s.oqInterrupt f r).books = s.books :=
  books_of_keeps (oqInterrupt_keeps (s := s) (f := f) (r := r)) (by decide)

theorem oqPlace_books (s : State) (f r : Nat) (e : OqEntry) : (s.oqPlace f r e).books = s.books := by
  unfold State.oqPlace
  dsimp only
  split
  · rw [copyPublished_books, report_books (by simp [Ev.class, Ev.err, Err.cls]), deny_books, setOq_books]
  · have hwrites := foldl_books (g := fun t p => t.ringWrite f (s.oq f r).host ((s.oq f r).addr.toNat * 64 + 64 * p.1) p.2)
      (fun t p => ringWrite_books t _ _ _ _) ((s.oq f r).plan e).1 s
    split
    · rw [copyFails_books, memError_books _ _ _ _ _ _ (by simp [Err.cls]), hwrites]
    · have hwritten : ∀ w : State, w.books = s.books →
          (if (s.oq f r).en && ((s.oq f r).coalUs = 0 || (s.oq f r).count.toNat ≤ (s.oq f r).unsignalled + ((s.oq f r).plan e).2) then
            (w.copyPublished e.copy).oqInterrupt f r else w.copyPublished e.copy).books = s.books := fun w hw => by
        split
        · rw [oqInterrupt_books, copyPublished_books, hw]
        · rw [copyPublished_books, hw]
      refine hwritten _ ?_
      split
      · rw [report_books (by simp [Ev.class, Ev.err, Err.cls]), deny_books, setOq_books, setOq_books, hwrites]
      · rw [ringWrite_books, setOq_books, hwrites]

theorem oqPush_books (s : State) (f r : Nat) (lossy : Bool) (e : OqEntry) : (s.oqPush f r lossy e).books = s.books := by
  unfold State.oqPush
  dsimp only
  split
  · exact copyPublished_books _ _
  · split
    · exact oqPlace_books _ _ _ _
    · split
      · exact (report_books (by simp [Ev.class, Ev.err, Err.cls]) _).trans (copyPublished_books _ _)
      · rfl

theorem putRecord_books (s : State) (c : Nat) (f : Frame) (k flags code : Nat) : (s.putRecord c f k flags code).books = s.books := by
  unfold State.putRecord
  dsimp only
  split
  · split
    · rfl
    · exact oqPush_books _ _ _ _ _
  · rfl

/-! ### A frame that stops, and one that is lost (R279, R296) -/

theorem tellPeer_books (s : State) (k : Cmd) : (s.tellPeer k).books = s.books := by
  unfold State.tellPeer
  split
  · unfold State.sendMember
    split
    · exact books_of_sends (sendLink_sends ..)
    · rfl
  · rfl

theorem dropCommands_books (s : State) (c no : Nat) : (s.dropCommands c no).books = s.books := by
  unfold State.dropCommands
  exact foldl_books (fun t k => tellPeer_books t k) _ s

theorem runIdled_books (s : State) (c no : Nat) : (s.runIdled c no).books = s.books := by
  rw [State.runIdled, State.modRun, modHead_books, books_of_keeps (mapRoutes_keeps _ _ _) (by decide),
    books_of_keeps (dropEntries_keeps _ _ _) (by decide), dropCommands_books]

theorem stopRun_books (s : State) (c : Nat) : (s.stopRun c false).books = s.books := by
  have hcancel : (s.cancelRun c false).books = s.books := by
    cases h : (s.ctx c).running with
    | none => rw [cancelRun_of_idle s c false h]
    | some q => rw [cancelRun_eq s c false q.1 q.2 h]; exact runIdled_books s c q.1.no
  unfold State.stopRun
  split
  · rfl
  · rw [books_of_keeps (scheduleAll_keeps _ _) (by decide), modHead_books, hcancel]

theorem lossRecorded_books (s : State) (c : Nat) (f : Frame) (k flags code : Nat) :
    ((s.lostCounted.loseUnit c f code).putRecord c f k flags code).books = s.books :=
  calc ((s.lostCounted.loseUnit c f code).putRecord c f k flags code).books
      = (s.lostCounted.loseUnit c f code).books := putRecord_books _ _ _ _ _ _
    _ = s.lostCounted.books := books_of_keeps (loseUnit_keeps s.lostCounted c f code) (by decide)
    _ = s.books := lostCounted_books s

theorem loseOne_books (s : State) (c no code : Nat) : (s.loseOne c no code).books = s.books := by
  unfold State.loseOne
  split
  · rfl
  · refine (lossRecorded_books _ _ _ _ _ _).trans ?_
    rw [modCtx_books]
    split
    · exact stopRun_books s c
    · rfl

theorem loseUnheld_books (s : State) (c : Nat) (f : Frame) (code : Nat) : (s.loseUnheld c f code).books = s.books :=
  lossRecorded_books _ _ _ _ _ _

theorem loseAll_books (s : State) (c code : Nat) : (s.loseAll c code).books = s.books := by
  unfold State.loseAll
  dsimp only
  rw [modCtx_books, foldl_books fun t x => loseUnheld_books t c _ _, foldl_books fun t no => loseOne_books t c no code]

theorem failPuts_books (s : State) (c : Nat) : (s.failPuts c).books = s.books := by
  unfold State.failPuts
  split
  · rfl
  · exact foldl_books (fun t ch => report_books (by simp [Ev.class]) t) _ _

theorem beginEnd_books (s : State) (c : Nat) : (s.beginEnd c).books = s.books := by
  rw [State.beginEnd, books_of_keeps (kickAudits_keeps _) (by decide), modCtx_books]

/-! ### Every frame lost (R541) -/

/-- Frames lost one after another are held no more, and no other comes. -/
theorem loseEach_numbers (c code : Nat) : ∀ (ns : List Nat) (s : State) (no : Nat),
    no ∈ ((ns.foldl (fun t no => t.loseOne c no code) s).ctx c).numbers → no ∈ (s.ctx c).numbers ∧ no ∉ ns
  | [], _, _, h => ⟨h, List.not_mem_nil⟩
  | n :: ns, s, no, h => by
    obtain ⟨hin, hout⟩ := loseEach_numbers c code ns (s.loseOne c n code) no h
    refine ⟨FramesLeave.loseOne.held c hin, fun hmem => ?_⟩
    obtain rfl | htail := List.mem_cons.mp hmem
    · exact loseOne_not_mem s c no code hin
    · exact hout htail

theorem held_of_numbers {x : Ctx} (h : ∀ no, no ∉ x.numbers) : x.held = [] :=
  List.map_eq_nil_iff.mp (List.eq_nil_iff_forall_not_mem.mpr h)

/-- Every frame held, lost in turn. -/
def State.loseHeld (s : State) (c code : Nat) : State :=
  ((s.ctx c).held.map fun f => f.no).foldl (fun t no => t.loseOne c no code) s

theorem loseHeld_held (s : State) (c code : Nat) : ((s.loseHeld c code).ctx c).held = [] :=
  held_of_numbers fun no hno => by
    obtain ⟨hin, hout⟩ := loseEach_numbers c code _ s no hno
    exact hout hin

/-- What follows the held frames brings none back. -/
theorem loseAll_leaves (s : State) (c code : Nat) : FramesLeave (s.loseHeld c code) (s.loseAll c code) := by
  unfold State.loseAll
  rw [← State.loseHeld]
  exact (FramesLeave.foldl _ (fun t x => FramesLeave.lossRecorded) _ _).trans (.modCtx (List.Subset.refl _))

theorem loseAll_held (s : State) (c code : Nat) : ((s.loseAll c code).ctx c).held = [] :=
  held_of_numbers fun no hno => by
    have hmem := (loseAll_leaves s c code).held c hno
    rw [Ctx.numbers, loseHeld_held] at hmem
    exact List.not_mem_nil hmem

theorem loseAll_arriving (s : State) (c code : Nat) : ((s.loseAll c code).ctx c).arriving = [] := by
  unfold State.loseAll
  dsimp only
  rw [State.modCtx_eq, State.ctx_setCtx]

theorem beginEnd_waiting (s : State) (c : Nat) :
    ((s.beginEnd c).ctx c).held = (s.ctx c).held ∧ ((s.beginEnd c).ctx c).arriving = (s.ctx c).arriving := by
  rw [State.beginEnd, State.ctx_congr (congrArg Hrd.ctxs (kickAudits_keeps _ .hrd (by decide))), State.modCtx_eq, State.ctx_setCtx]
  split <;> exact ⟨rfl, rfl⟩

/-- After an instance's end no frame of it is held or on its way. -/
theorem endInstance_waiting (s : State) (c code : Nat) :
    ((s.endInstance c code).ctx c).held = [] ∧ ((s.endInstance c code).ctx c).arriving = [] := by
  obtain ⟨hheld, harr⟩ := beginEnd_waiting (s.loseAll c code) c
  exact ⟨hheld.trans (loseAll_held s c code), harr.trans (loseAll_arriving s c code)⟩

theorem endInstance_books (s : State) (c code : Nat) : (s.endInstance c code).books = s.books :=
  (beginEnd_books _ _).trans (loseAll_books s c code)

end Sys2Proof.Machine
end

section
/-!
The Whistle (O39): the barrier of a job's frame, its release, and the end of a job (R536 to R542).
-/
namespace Sys2Proof.Machine
open Sys2Proof

/-! ### What the members' arrivals say together (R536) -/

/-- This member's own part of an ARRIVE. -/
def State.ownArrive (s : State) (c frame : Nat) : Arrive :=
  { frame := frame, digest := s.digestOf c, epochOk := !s.pck.skewFault, differs := none, members := 1 }

/-- One child's arrival joined to what has been combined. -/
def State.joined (s : State) (own a : Arrive) (p : Nat × Arrive) : Arrive :=
  { a with
    epochOk := a.epochOk && p.2.epochOk
    differs := optMin a.differs (optMin p.2.differs
      (if p.2.frame = own.frame ∧ p.2.digest = own.digest then none else s.pck.neighbour s.pck.me p.1))
    members := a.members + p.2.members }

theorem combine_eq (s : State) (c frame : Nat) (as : List (Nat × Arrive)) :
    s.combine c frame as = as.foldl (s.joined (s.ownArrive c frame)) (s.ownArrive c frame) := rfl

/-- An arrival that agrees with a member's own. -/
def Arrive.agrees (a own : Arrive) : Prop := a.frame = own.frame ∧ a.digest = own.digest ∧ a.epochOk = true ∧ a.differs = none

/-- Arrivals that agree add their members alone. -/
theorem foldl_joined_of_agrees (s : State) (own : Arrive) : ∀ (as : List (Nat × Arrive)) (a : Arrive),
    a.epochOk = true → a.differs = none → (∀ p ∈ as, p.2.agrees own) →
    as.foldl (s.joined own) a = { a with members := a.members + (as.map fun p => p.2.members).sum }
  | [], _, _, _, _ => rfl
  | p :: as, a, hok, hdiff, hall => by
    obtain ⟨hframe, hdigest, hpok, hpdiff⟩ := hall p List.mem_cons_self
    have hone : s.joined own a p = { a with members := a.members + p.2.members } := by
      simp [State.joined, hok, hdiff, hframe, hdigest, hpok, hpdiff, optMin]
    rw [List.foldl_cons, hone, foldl_joined_of_agrees s own as { a with members := a.members + p.2.members } hok hdiff
      fun q hq => hall q (List.mem_cons_of_mem _ hq)]
    simp [Nat.add_assoc]

/-! ### The release of a frame (R536, R537) -/

theorem setWhistle_head {s : State} {c : Nat} {f : Frame} {rest : List Frame} (w : Whistle) (h : (s.ctx c).held = f :: rest) :
    ((s.setWhistle c w).ctx c).held.head?.bind (fun g => g.whistle) = some w := by
  rw [State.setWhistle, State.ctx_modHead, Ctx.modHead_of_cons h]
  rfl

theorem setWhistle_keeps (s : State) (c : Nat) (w : Whistle) : Keeps [.hrd] s (s.setWhistle c w) := modCtx_keeps _ _ _

/-- A job whose frame is released. -/
def Job.released (x : Job) (frame : Nat) : Job :=
  { x with barrier := none, running := true, frame := BitVec.ofNat 16 frame, failSent := none }

theorem releaseFrame_eq (s : State) (j frame : Nat) (t : DWord) : s.releaseFrame j frame t =
    (s.setJob j ((s.job j).released frame)).setWhistle (s.job j).ctx.toNat (.scheduled t) := rfl

theorem releaseFrame_held {s : State} {j : Nat} {f : Frame} {rest : List Frame} (frame : Nat) (t : DWord)
    (h : (s.ctx (s.job j).ctx.toNat).held = f :: rest) :
    ((s.releaseFrame j frame t).ctx (s.job j).ctx.toNat).held = { f with whistle := some (.scheduled t) } :: rest := by
  have hctx : ((s.setJob j ((s.job j).released frame)).ctx (s.job j).ctx.toNat).held = f :: rest := h
  rw [releaseFrame_eq, State.setWhistle, State.ctx_modHead, Ctx.modHead_of_cons hctx]

theorem releaseFrame_job (s : State) (j frame : Nat) (t : DWord) :
    (s.releaseFrame j frame t).job j = (s.job j).released frame := State.job_setJob ..

theorem releaseFrame_out (s : State) (j frame : Nat) (t : DWord) : (s.releaseFrame j frame t).out = s.out := rfl

theorem releaseFrame_keeps (s : State) (j frame : Nat) (t : DWord) : Keeps [.pck, .hrd, .out] s (s.releaseFrame j frame t) :=
  ((setJob_keeps s j _).mono (by decide)).trans' ((setWhistle_keeps _ _ _).mono (by decide))

theorem sends_job {s t : State} (h : Sends s t) (j : Nat) : t.job j = s.job j := by rw [State.job, h.pck, State.job]

/-- RELEASE goes down the tree and the frame is released for a time. -/
def State.treeRelease (s : State) (j frame : Nat) (t : DWord) : State :=
  (s.toChildren (.release j frame t)).releaseFrame j frame t

theorem treeRelease_job (s : State) (j frame : Nat) (t : DWord) : (s.treeRelease j frame t).job j = (s.job j).released frame := by
  rw [State.treeRelease, releaseFrame_job, sends_job (toChildren_sends ..)]

theorem treeRelease_keeps (s : State) (j frame : Nat) (t : DWord) : Keeps [.pck, .hrd, .out] s (s.treeRelease j frame t) :=
  ((toChildren_keeps s _).mono (by decide)).trans' (releaseFrame_keeps _ _ _ _)

theorem treeRelease_out (s : State) (j frame : Nat) (t : DWord) :
    (s.treeRelease j frame t).out = (s.toChildren (.release j frame t)).out := releaseFrame_out _ _ _ _

theorem treeRelease_held {s : State} {j : Nat} {f : Frame} {rest : List Frame} (frame : Nat) (t : DWord)
    (h : (s.ctx (s.job j).ctx.toNat).held = f :: rest) :
    ((s.treeRelease j frame t).ctx (s.job j).ctx.toNat).held = { f with whistle := some (.scheduled t) } :: rest := by
  have hsent := toChildren_sends s (.release j frame t)
  have hctxs : ((s.toChildren (.release j frame t)).hrd).ctxs = s.hrd.ctxs := congrArg Hrd.ctxs (hsent.keeps .hrd (by decide))
  have hheld := releaseFrame_held (s := s.toChildren (.release j frame t)) (j := j) (f := f) (rest := rest) frame t
  rw [sends_job hsent j, State.ctx_congr hctxs] at hheld
  exact hheld h

/-! ### The last ARRIVE at the master (R536) -/

section
variable {s : State} {j q : Nat}

/-- The master's barrier is complete and every member agrees. -/
theorem barrierStep_of_agreed {x : Job} {b : Barrier} (hjob : s.job j = x) (hb : x.barrier = some b)
    (hformed : s.pck.state = .formed) (hself : b.selfReady = true) (hsent : b.sentAt = none)
    (hall : (s.pck.childPorts.all fun p => b.arrivals.any fun a => a.1 == p) = true) (hmaster : s.pck.isMaster = true)
    (hdiff : (s.combine x.ctx.toNat b.frame b.arrivals).differs = none)
    (hsize : (s.combine x.ctx.toNat b.frame b.arrivals).members = s.pck.size)
    (hok : (s.combine x.ctx.toNat b.frame b.arrivals).epochOk = true) :
    s.barrierStep j = s.treeRelease j b.frame (s.epoch + s.pck.lead.setWidth 64) := by
  unfold State.barrierStep
  rw [hjob]
  dsimp only
  rw [hb]
  dsimp only
  rw [if_neg (by simp [hformed, hself, hsent, hall]), if_pos hmaster, hdiff]
  dsimp only
  rw [if_neg (by simp [hsize]), if_neg (by simp [hok])]
  rfl

/-- A child's ARRIVE joined to a job's barrier. -/
def State.arrived (s : State) (j : Nat) (x : Job) (b : Barrier) (q : Nat) (a : Arrive) : State :=
  s.setJob j { x with barrier := some { b with arrivals := b.arrivals ++ [(q, a)], timer := some (b.timer.getD s.now) } }

theorem exec_whistleArrive {x : Job} {b : Barrier} {no n : Nat} {dg : Word} {ok : Bool} {df : Option Nat}
    (halive : s.alive = true) (hjob : s.job j = x) (hvalid : x.valid = true) (hb : x.barrier = some b)
    (hbusy : s.pck.busy = true) (hchild : s.pck.childPorts.contains q = true)
    (hnew : (b.arrivals.any fun a => a.1 == q) = false) : exec (.whistleArrive q j no dg ok df n) s =
    .next ((s.arrived j x b q { frame := no, digest := dg, epochOk := ok, differs := df, members := n }).barrierStep j) := by
  change execWhistleArrive q j no dg ok df n s = _
  unfold execWhistleArrive
  rw [hjob]
  dsimp only
  rw [if_neg (by simp [halive, hvalid, hbusy, List.contains_iff_mem.mp hchild]), hb]
  exact if_neg (by simp only [Option.getD_some, hnew]; decide)

end

/-- The release and its time on a member (R537). -/
theorem exec_whistleRelease {s : State} {q j no : Nat} {x : Job} (tm : DWord) (halive : s.alive = true) (hjob : s.job j = x)
    (hvalid : x.valid = true) (hpar : s.pck.parentPort s.pck.me = some q) (hawaits : x.awaits no = true) :
    exec (.whistleRelease q j no tm) s = if s.epoch.toNat ≤ tm.toNat then .next (s.treeRelease j no tm) else
      .next (((s.treeRelease j no tm).setWhistle x.ctx.toNat .released).pckReport 14 .none (some x.ctx.toNat) (some no)) := by
  have hepoch : (s.treeRelease j no tm).epoch = s.epoch := by
    have hp : (s.treeRelease j no tm).pck.epoch = s.pck.epoch :=
      (toChildren_sends s (.release j no tm)).of_pck (·.epoch) fun _ _ => rfl
    rw [State.epoch, hp, State.epoch]
  change execWhistleRelease q j no tm s = _
  unfold execWhistleRelease
  rw [hjob]
  dsimp only
  rw [if_neg (by simp [halive, hpar, hvalid, hawaits]), ← State.treeRelease, hepoch]

/-- No Pack code is fatal to the module (Table 15.9). -/
theorem pckClass {e : Ev} (hblk : e.blk = .pck) (hcls : e.cls = none) : e.class ≠ .moduleFatal := by
  unfold Ev.class Err.cls Ev.err
  rw [hcls, hblk]
  simp only [Option.getD_none]
  split <;> decide

theorem pckReportOf_keeps (s : State) (nn : Nat) (u : UnitRef) (c frame : Option Nat) :
    Keeps ([.pck] ++ reportParts) s (s.pckReport nn u c frame) := report_setPck_keeps (pckClass rfl rfl) s _

theorem pckReportOf_records (s : State) (nn : Nat) (u : UnitRef) (c frame : Option Nat) :
    Records s (s.pckReport nn u c frame) ⟨.pck, nn⟩ (Err.cls ⟨.pck, nn⟩) u [] := report_setPck_records (pckClass rfl rfl) s _

theorem arrived_keeps (s : State) (j : Nat) (x : Job) (b : Barrier) (q : Nat) (a : Arrive) : Keeps [.pck] s (s.arrived j x b q a) :=
  setJob_keeps _ _ _

/-- The last ARRIVE at the master, where every member agrees, releases the frame. -/
theorem whistleArrive_releases {s : State} {q j no n : Nat} {x : Job} {dg : Word} {b : Barrier} {f : Frame} {rest : List Frame}
    (halive : s.alive = true) (hjob : s.job j = x) (hvalid : x.valid = true) (hformed : s.pck.state = .formed)
    (hmaster : s.pck.isMaster = true) (hb : x.barrier = some b) (hself : b.selfReady = true) (hsent : b.sentAt = none)
    (hframe : b.frame = no) (hnew : (b.arrivals.any fun a => a.1 == q) = false) (hchild : s.pck.childPorts.contains q = true)
    (hall : (s.pck.childPorts.all fun p => p == q || b.arrivals.any fun a => a.1 == p) = true)
    (hdg : dg = s.digestOf x.ctx.toNat) (hagree : ∀ a ∈ b.arrivals, a.2.frame = no ∧ a.2.digest = dg ∧ a.2.epochOk = true ∧
      a.2.differs = none) (hskew : s.pck.skewFault = false) (hheld : (s.ctx x.ctx.toNat).held = f :: rest)
    (hsize : 1 + (b.arrivals.map fun a => a.2.members).sum + n = s.pck.size) :
    ∃ t, exec (.whistleArrive q j no dg true none n) s = .next t ∧ (t.job j).barrier = none ∧ (t.job j).running = true ∧
      (t.ctx x.ctx.toNat).held.head?.bind (fun g => g.whistle) = some (.scheduled (s.epoch + s.pck.lead.setWidth 64)) ∧
      (treeClear s → t.out = s.out ++ downTree s (.release j no (s.epoch + s.pck.lead.setWidth 64))) ∧
      Keeps [.pck, .hrd, .out] s t := by
  have hexec := exec_whistleArrive (no := no) (n := n) (dg := dg) (ok := true) (df := none) halive hjob hvalid hb
    (by simp [Pck.busy, hformed]) hchild hnew
  generalize ha : ({ frame := no, digest := dg, epochOk := true, differs := none, members := n } : Arrive) = a at hexec
  have hagrees : ∀ p ∈ b.arrivals ++ [(q, a)], p.2.agrees ((s.arrived j x b q a).ownArrive x.ctx.toNat no) := by
    intro p hp
    obtain hp | hp := List.mem_append.mp hp
    · obtain ⟨hf, hd, hok, hdiff⟩ := hagree p hp
      exact ⟨hf, hd.trans hdg, hok, hdiff⟩
    · rw [List.mem_singleton.mp hp, ← ha]
      exact ⟨rfl, hdg, rfl, rfl⟩
  have hcombine := combine_eq (s.arrived j x b q a) x.ctx.toNat no (b.arrivals ++ [(q, a)])
  have hepochOk : ((s.arrived j x b q a).ownArrive x.ctx.toNat no).epochOk = true := congrArg not hskew
  rw [foldl_joined_of_agrees _ _ _ _ hepochOk rfl hagrees] at hcombine
  have hchildren : (s.arrived j x b q a).pck.childPorts = s.pck.childPorts := childPorts_congr rfl rfl
  have hall' : ((s.arrived j x b q a).pck.childPorts.all fun p => (b.arrivals ++ [(q, a)]).any fun a => a.1 == p) = true := by
    rw [hchildren, List.all_eq_true]
    intro p hp
    have hp' := List.all_eq_true.mp hall p hp
    rw [List.any_append, Bool.or_eq_true]
    obtain hpq | hin := Bool.or_eq_true_iff.mp hp'
    · exact .inr (by simp [eq_of_beq hpq])
    · exact .inl hin
  have hmembers : (1 + ((b.arrivals ++ [(q, a)]).map fun p => p.2.members).sum) = s.pck.size := by
    rw [← hsize, List.map_append, List.sum_append, ← ha]
    simp [Nat.add_assoc]
  have hstep := barrierStep_of_agreed (s := s.arrived j x b q a) (j := j) (State.job_setJob ..) rfl hformed hself hsent
    hall' hmaster (by rw [hframe]; exact congrArg Arrive.differs hcombine)
    (by rw [hframe]; exact (congrArg Arrive.members hcombine).trans hmembers)
    (by rw [hframe]; exact (congrArg Arrive.epochOk hcombine).trans hepochOk)
  rw [hstep, hframe] at hexec
  have hjob' : (s.arrived j x b q a).job j = _ := State.job_setJob ..
  have htree := treeRelease_job (s.arrived j x b q a) j no (s.epoch + s.pck.lead.setWidth 64)
  have hrel := treeRelease_held (s := s.arrived j x b q a) (j := j) no (s.epoch + s.pck.lead.setWidth 64) (by rw [hjob']; exact hheld)
  rw [hjob'] at hrel
  refine ⟨_, hexec, congrArg (·.barrier) htree, congrArg (·.running) htree, ?_, fun hclear => ?_,
    ((arrived_keeps s j x b q a).mono (by decide)).trans' (treeRelease_keeps _ _ _ _)⟩
  · exact congrArg (fun l => l.head?.bind fun g => g.whistle) hrel
  · exact (treeRelease_out ..).trans (toChildren_out_of _ rfl rfl (fun _ => rfl) rfl hclear)

theorem whistleReleases : WhistleReleasesFrames := by
  unfold WhistleReleasesFrames
  intro s q j no x halive hjob hvalid
  refine ⟨fun dg b f rest hformed hmaster hb hself hsent hframe hnew hchild hall hdg hagree hskew hheld n hsize =>
      whistleArrive_releases halive hjob hvalid hformed hmaster hb hself hsent hframe hnew hchild hall hdg hagree hskew hheld hsize,
    fun tm f rest hpar hawaits hheld => ?_, fun tm f rest hheld hwh => ?_⟩
  · have hexec := exec_whistleRelease tm halive hjob hvalid hpar hawaits
    subst hjob
    have hrel := treeRelease_held no tm hheld
    refine ⟨fun hdue => ?_, fun hlate => ?_⟩
    · have htree := treeRelease_job s j no tm
      refine ⟨_, hexec.trans (if_pos hdue), congrArg (·.barrier) htree, congrArg (·.running) htree, by rw [hrel]; rfl, ?_,
        treeRelease_keeps _ _ _ _⟩
      exact fun hclear => (treeRelease_out ..).trans (toChildren_out _ hclear)
    · have hset := setWhistle_keeps (s.treeRelease j no tm) (s.job j).ctx.toNat .released
      have hkeeps := (treeRelease_keeps s j no tm).trans' (hset.mono (by decide))
      refine ⟨_, hexec.trans (if_neg (by omega)), ?_, ?_⟩
      · rw [State.ctx_congr (congrArg Hrd.ctxs (pckReportOf_keeps _ 14 _ _ _ .hrd (by decide)))]
        exact setWhistle_head _ hrel
      · exact records_of_before (pckReportOf_records _ 14 _ _ _)
          (fun hr => (ringsAtHost_congr (hkeeps .fns (by decide))).trans hr) (hkeeps .erl (by decide))
  · have hexec : exec (.whistleReleaseTime j) s = .next (if s.alive ∧ tm.toNat ≤ s.epoch.toNat then
        s.setWhistle x.ctx.toNat .released else s) := by
      change execWhistleReleaseTime j s = _
      unfold execWhistleReleaseTime
      rw [hjob]
      dsimp only
      rw [hheld]
      simp only [List.head?_cons, Option.bind_some, hwh]
    refine ⟨fun hdue => ⟨_, hexec.trans (congrArg _ (if_pos ⟨halive, hdue⟩)), setWhistle_head _ hheld, setWhistle_keeps _ _ _⟩,
      fun hearly => hexec.trans (congrArg _ (if_neg (by rintro ⟨-, h⟩; omega)))⟩

/-! ### The end of a job (R540 to R542) -/

/-- A job that an abort has ended. -/
structure JobEnded (s : State) (j : Nat) (t : State) : Prop where
  invalid : (t.job j).valid = false
  stopped : (t.job j).running = false
  held : (t.ctx (s.job j).ctx.toNat).held = []
  arriving : (t.ctx (s.job j).ctx.toNat).arriving = []
  aborts : t.pck.aborts = satInc s.pck.aborts

theorem abortJob_ends (u : State) (j : Nat) (e : Err) : JobEnded u j (u.abortJob j e) := by
  have hbooks := (endInstance_books (u.failPuts (u.job j).ctx.toNat) (u.job j).ctx.toNat e.lossCode).trans (failPuts_books _ _)
  obtain ⟨hheld, harr⟩ := endInstance_waiting (u.failPuts (u.job j).ctx.toNat) (u.job j).ctx.toNat e.lossCode
  have haborts := congrArg Prod.snd hbooks
  unfold State.abortJob
  dsimp only
  generalize (u.failPuts (u.job j).ctx.toNat).endInstance (u.job j).ctx.toNat e.lossCode = w at *
  have hjob := State.job_setJob w j { u.job j with
    valid := false, ended := true, running := false, code := BitVec.ofNat 8 e.nn, barrier := none, failSent := none }
  exact ⟨congrArg (·.valid) hjob, congrArg (·.running) hjob, hheld, harr, congrArg satInc haborts⟩

/-- A state with the same books is where the job ends too. -/
theorem JobEnded.of_books {s u t : State} {j : Nat} (h : JobEnded u j t) (hbooks : u.books = s.books) : JobEnded s j t := by
  have hjob : u.job j = s.job j := congrArg (fun b : Tab Job × BitVec 16 => Tab.getD b.1 j {}) hbooks
  exact ⟨h.invalid, h.stopped, hjob ▸ h.held, hjob ▸ h.arriving, h.aborts.trans (congrArg (fun b => satInc b.2) hbooks)⟩

theorem pckFail_books (s : State) (nn member port : Nat) (c frame : Option Nat) : (s.pckFail nn member port c frame).books = s.books :=
  report_books (pckClass rfl rfl) _

theorem hrdReport_books (s : State) (c nn : Nat) (frame : Option Nat) : (s.hrdReport c nn frame).books = s.books := by
  unfold State.hrdReport
  rw [report_hrdCode _ _ rfl rfl, books_of_keeps (reportWith_keeps 3 _ _) (by decide), modStat_books]

theorem abortHere_ends (s : State) (j frame code member : Nat) : JobEnded s j (s.abortHere j frame code member) := by
  unfold State.abortHere
  dsimp only
  refine (abortJob_ends _ j _).of_books ?_
  split
  · exact hrdReport_books ..
  · exact pckFail_books ..

theorem masterAbort_ends (s : State) (j frame code member : Nat) : JobEnded s j (s.masterAbort j frame code member) :=
  (abortHere_ends _ j frame code member).of_books (books_of_sends (toChildren_sends _ _))

section
variable {s : State} {q j no code : Nat} (halive : s.alive = true) (hvalid : (s.job j).valid = true)
include halive hvalid

/-- Each way a job ends: an ABORT, a time-out or a FAIL. -/
theorem exec_endsJob {i : Instr}
    (hi : (i = .whistleAbort q j no code ∧ s.pck.parentPort s.pck.me = some q) ∨
      (∃ b, i = .barrierTimeout j ∧ (s.job j).barrier = some b ∧ b.timer.isSome = true ∧ s.pck.isMaster = true) ∨
      (∃ b, i = .arriveTimeout j ∧ (s.job j).barrier = some b ∧ b.sentAt.isSome = true) ∨
      (i = .whistleFail q j no code ∧ s.pck.childPorts.contains q = true ∧ s.pck.isMaster = true) ∨
      (i = .failTimeout j ∧ (s.job j).failSent.isSome = true)) : ∃ t, exec i s = .next t ∧ JobEnded s j t := by
  obtain ⟨rfl, hpar⟩ | ⟨b, rfl, hb, htimer, hmaster⟩ | ⟨b, rfl, hb, hsent⟩ | ⟨rfl, hchild, hmaster⟩ | ⟨rfl, hfail⟩ := hi
  · exact ⟨_, if_neg (by simp [halive, hpar, hvalid]), masterAbort_ends s j no code 0⟩
  · refine ⟨_, ?_, masterAbort_ends s j b.frame 7 0⟩
    change execBarrierTimeout j s = _
    unfold execBarrierTimeout
    rw [hb]
    exact congrArg Host.Outcome.next (if_pos (by simp [halive, hvalid, hmaster, htimer]))
  · refine ⟨_, ?_, abortHere_ends s j b.frame 7 0⟩
    change execArriveTimeout j s = _
    unfold execArriveTimeout
    rw [hb]
    exact congrArg Host.Outcome.next (if_pos (by simp [halive, hvalid, hsent]))
  · exact ⟨_, (if_neg (by simp [halive, hvalid, List.contains_iff_mem.mp hchild])).trans (if_pos hmaster),
      masterAbort_ends s j no 11 0⟩
  · exact ⟨_, congrArg Host.Outcome.next (if_pos (by simp [halive, hvalid, hfail])), abortHere_ends s j (s.job j).frame.toNat 11 0⟩

theorem exec_whistleFail_member (hchild : s.pck.childPorts.contains q = true) (hmember : s.pck.isMaster = false) :
    exec (.whistleFail q j no code) s = .next ((s.toParent (.fail j no code)).modJob j fun x => { x with failSent := some s.now }) :=
  (if_neg (by simp [halive, hvalid, List.contains_iff_mem.mp hchild])).trans (if_neg (by simp [hmember]))

end

theorem abortsEnd : AbortsEndTheJob := by
  unfold AbortsEndTheJob
  intro s q j no code x halive hjob hvalid
  subst hjob
  refine ⟨fun i hi => ?_, fun hchild hmember => ?_⟩
  · obtain ⟨t, hexec, h⟩ := exec_endsJob halive hvalid hi
    exact ⟨t, hexec, h.invalid, h.stopped, h.held, h.arriving, h.aborts⟩
  · have hsent := toParent_sends s (.fail j no code)
    refine ⟨_, exec_whistleFail_member halive hvalid hchild hmember, ?_, fun p hpar hclear => ?_, ?_⟩
    · rw [State.modJob, State.job_setJob, sends_job hsent]
    · have hout : (s.toParent (.fail j no code)).out = s.out ++ [.link p (.fail j no code)] := by
        rw [toParent_eq _ hpar]; exact sendControl_out _ hclear
      exact hout
    · exact hsent.keeps.trans' ((setJob_keeps _ _ _).mono (by decide))

/-- Settles O39: a barrier that is complete and alike is released down the tree; every other end of a job is one abort, which
loses every frame its context holds. -/
theorem whistleReleasesFramesOrAborts : Obligations.WhistleReleasesFramesOrAborts := ⟨whistleReleases, abortsEnd⟩

end Sys2Proof.Machine
end

section
/-!
The time tree (O35): a member's coordinates as digits of its number, and the parent one digit nearer to the master (R514, R518).
-/
namespace Sys2Proof.Machine
open Sys2Proof

variable (p : Pck)

/-! ### Coordinates as digits -/

theorem dim_pos (d : Nat) : 0 < p.dim d := Nat.succ_pos _

theorem dim_le (d : Nat) : p.dim d ≤ 16 := Nat.mod_lt _ (by decide)

theorem stride_pos : ∀ d, 0 < p.stride d
  | 0 => Nat.one_pos
  | d + 1 => Nat.mul_pos (stride_pos d) (dim_pos p d)

theorem stride_dvd {d e : Nat} (h : d ≤ e) : p.stride d ∣ p.stride e := by
  induction h with
  | refl => exact Nat.dvd_refl _
  | step _ ih => exact ih.trans (Nat.dvd_mul_right _ _)

theorem size_eq_stride : p.size = p.stride 4 := by simp [Pck.size, Pck.stride]

theorem coord_lt (m d : Nat) : p.coord m d < p.dim d := Nat.mod_lt _ (dim_pos p d)

/-- The part of a member number above a dimension and the part below it. -/
theorem member_split (m d : Nat) :
    m = m % p.stride d + p.stride d * (p.coord m d + p.dim d * (m / p.stride (d + 1))) := by
  rw [Pck.stride, ← Nat.div_div_eq_div_mul, Pck.coord, Nat.mod_add_div, Nat.mod_add_div]

theorem withCoord_eq (m d x : Nat) :
    p.withCoord m d x = m % p.stride d + p.stride d * (x + p.dim d * (m / p.stride (d + 1))) := by
  have h := member_split p m d
  have hle : p.coord m d * p.stride d ≤ m := by
    conv_rhs => rw [h]
    rw [Nat.mul_add, Nat.mul_comm]
    omega
  rw [Pck.withCoord]
  have hm : m = m % p.stride d + p.coord m d * p.stride d + p.stride d * (p.dim d * (m / p.stride (d + 1))) := by
    conv_lhs => rw [h]
    ring
  have hx : m % p.stride d + p.stride d * (x + p.dim d * (m / p.stride (d + 1))) =
      m % p.stride d + p.stride d * (p.dim d * (m / p.stride (d + 1))) + x * p.stride d := by ring
  omega

/-- Below the dimension the member number stands. -/
theorem withCoord_mod (m d x : Nat) : p.withCoord m d x % p.stride d = m % p.stride d := by
  rw [withCoord_eq, Nat.add_mul_mod_self_left, Nat.mod_mod]

theorem withCoord_div (m d x : Nat) : p.withCoord m d x / p.stride d = x + p.dim d * (m / p.stride (d + 1)) := by
  rw [withCoord_eq, Nat.add_mul_div_left _ _ (stride_pos p d), Nat.div_eq_of_lt (Nat.mod_lt _ (stride_pos p d)), Nat.zero_add]

/-- Above the dimension the member number stands. -/
theorem withCoord_div_above {m d x e : Nat} (hx : x < p.dim d) (he : d < e) :
    p.withCoord m d x / p.stride e = m / p.stride e := by
  have hnext : p.withCoord m d x / p.stride (d + 1) = m / p.stride (d + 1) := by
    conv_lhs => rw [Pck.stride, ← Nat.div_div_eq_div_mul, withCoord_div, Nat.add_mul_div_left _ _ (dim_pos p d),
      Nat.div_eq_of_lt hx, Nat.zero_add]
  obtain ⟨k, hk⟩ := stride_dvd p (Nat.succ_le_of_lt he)
  rw [hk, ← Nat.div_div_eq_div_mul, hnext, Nat.div_div_eq_div_mul]

theorem coord_withCoord_same {m d x : Nat} (hx : x < p.dim d) : p.coord (p.withCoord m d x) d = x := by
  rw [Pck.coord, withCoord_div, Nat.add_mul_mod_self_left, Nat.mod_eq_of_lt hx]

theorem coord_withCoord_other {m d x e : Nat} (hx : x < p.dim d) (he : e ≠ d) : p.coord (p.withCoord m d x) e = p.coord m e := by
  rcases Nat.lt_or_gt_of_ne he with hlt | hgt
  · have hbelow : ∀ n, p.coord n e = n % p.stride d % p.stride (e + 1) / p.stride e := fun n => by
      rw [Nat.mod_mod_of_dvd _ (stride_dvd p hlt), Pck.stride, Nat.mod_mul_right_div_self, Pck.coord]
    rw [hbelow, hbelow, withCoord_mod]
  · rw [Pck.coord, withCoord_div_above p hx hgt, Pck.coord]

theorem withCoord_lt {m d x : Nat} (hx : x < p.dim d) (hd : d < 4) (hm : m < p.size) : p.withCoord m d x < p.size := by
  rw [size_eq_stride] at hm ⊢
  have h := withCoord_div_above p (m := m) hx hd
  rw [Nat.div_eq_of_lt hm] at h
  exact (Nat.div_eq_zero_iff_lt (stride_pos p 4)).mp h

/-- A coordinate set back gives the member again. -/
theorem withCoord_withCoord {m d x : Nat} (hx : x < p.dim d) : p.withCoord (p.withCoord m d x) d (p.coord m d) = m := by
  rw [withCoord_eq, withCoord_mod, withCoord_div_above p hx (Nat.lt_succ_self d), ← member_split]

/-- A member whose four coordinates are 0 is the master. -/
theorem eq_zero_of_coords {m : Nat} (hm : m < p.size) (h : ∀ d, d < 4 → p.coord m d = 0) : m = 0 := by
  rw [size_eq_stride] at hm
  have hdiv : ∀ d, d ≤ 4 → m % p.stride d = 0 := by
    intro d
    induction d with
    | zero => exact fun _ => Nat.mod_one m
    | succ d ih =>
      intro hd
      have hc := h d (by omega)
      rw [Pck.stride, Nat.mod_mul, ih (by omega)]
      rw [Pck.coord] at hc
      rw [hc]
      simp
  have h4 := hdiv 4 (Nat.le_refl _)
  rwa [Nat.mod_eq_of_lt hm] at h4

/-! ### The shorter way to the master -/

/-- The links from coordinate `c` to 0 in a ring of `n`. -/
def ringWay (n c : Nat) : Nat := min c (n - c)

/-- The coordinate one link nearer to 0, by the port R518 gives. -/
def nearer (n c : Nat) : Nat := if 2 * c ≤ n then c - 1 else (c + 1) % n

theorem nearer_lt {n c : Nat} (hc : c < n) : nearer n c < n := by
  unfold nearer
  split
  · omega
  · exact Nat.mod_lt _ (by omega)

theorem nearer_way {n c : Nat} (hc : c < n) (h0 : c ≠ 0) : ringWay n (nearer n c) + 1 = ringWay n c := by
  unfold nearer ringWay
  split
  · omega
  · rcases Nat.lt_or_ge (c + 1) n with h | h
    · rw [Nat.mod_eq_of_lt h]; omega
    · rw [show c + 1 = n by omega, Nat.mod_self]; omega

theorem ringWay_le (n c : Nat) : ringWay n c ≤ n / 2 := by unfold ringWay; omega

theorem depthOf_eq (m : Nat) : p.depthOf m = ringWay (p.dim 0) (p.coord m 0) + ringWay (p.dim 1) (p.coord m 1) +
    ringWay (p.dim 2) (p.coord m 2) + ringWay (p.dim 3) (p.coord m 3) := by
  simp [Pck.depthOf, ringWay, List.range_succ]

/-- Only one dimension's way is shorter, by one link. -/
theorem depthOf_withCoord {m d x : Nat} (hd : d < 4) (hx : x < p.dim d)
    (h : ringWay (p.dim d) x + 1 = ringWay (p.dim d) (p.coord m d)) : p.depthOf (p.withCoord m d x) + 1 = p.depthOf m := by
  rw [depthOf_eq, depthOf_eq]
  obtain rfl | rfl | rfl | rfl : d = 0 ∨ d = 1 ∨ d = 2 ∨ d = 3 := by omega
  all_goals
    simp only [coord_withCoord_same p hx, coord_withCoord_other p hx, ne_eq, Nat.reduceEqDiff, not_false_eq_true,
      OfNat.ofNat_ne_zero, OfNat.zero_ne_ofNat, OfNat.ofNat_ne_one, OfNat.one_ne_ofNat, zero_ne_one, one_ne_zero]
    omega

/-- The least product of two dimensions, by the sum of their halves. -/
def pairFloor (k : Nat) : Nat := if k ≤ 8 then max 1 (2 * k) else 32 * (k - 8)

theorem pairFloor_le : ∀ a, a < 9 → ∀ b, b < 9 → pairFloor (a + b) ≤ max 1 (2 * a) * max 1 (2 * b) := by decide

theorem pairFloor_large : ∀ a, a < 17 → ∀ b, b < 17 → 20 < a + b → 2048 < pairFloor a * pairFloor b := by decide

theorem pairFloor_dims {a b : Nat} (ha : 0 < a) (hb : 0 < b) (ha16 : a ≤ 16) (hb16 : b ≤ 16) :
    pairFloor (a / 2 + b / 2) ≤ a * b :=
  (pairFloor_le (a / 2) (by omega) (b / 2) (by omega)).trans (Nat.mul_le_mul (by omega) (by omega))

/-- In a Pack of at most 2,048 members no member is more than 20 links from the master. -/
theorem depthOf_le (m : Nat) (h : p.size ≤ 2048) : p.depthOf m ≤ 20 := by
  by_contra hdeep
  have hdim := fun d => dim_le p d
  have hpos := fun d => dim_pos p d
  have h01 := pairFloor_dims (hpos 0) (hpos 1) (hdim 0) (hdim 1)
  have h23 := pairFloor_dims (hpos 2) (hpos 3) (hdim 2) (hdim 3)
  have hsum : 20 < p.dim 0 / 2 + p.dim 1 / 2 + (p.dim 2 / 2 + p.dim 3 / 2) := by
    rw [depthOf_eq] at hdeep
    have h0 := ringWay_le (p.dim 0) (p.coord m 0)
    have h1 := ringWay_le (p.dim 1) (p.coord m 1)
    have h2 := ringWay_le (p.dim 2) (p.coord m 2)
    have h3 := ringWay_le (p.dim 3) (p.coord m 3)
    omega
  have hlarge := pairFloor_large _ (by have := hdim 0; have := hdim 1; omega) _ (by have := hdim 2; have := hdim 3; omega) hsum
  have hsize : p.size = p.dim 0 * p.dim 1 * (p.dim 2 * p.dim 3) := Nat.mul_assoc _ _ _
  have := Nat.mul_le_mul h01 h23
  omega

/-! ### The parent (R515, R518) -/

/-- The port towards the master in dimension `d`. -/
def Pck.towards (p : Pck) (m d : Nat) : Nat := if 2 * p.coord m d ≤ p.dim d then 2 * d else 2 * d + 1

variable {p}

/-- A member's highest dimension with a coordinate that is not 0. -/
structure HighestAt (p : Pck) (m d : Nat) : Prop where
  lt : d < 4
  ne : p.coord m d ≠ 0
  above : ∀ e, d < e → e < 4 → p.coord m e = 0

theorem exists_highest {m : Nat} (hm : m < p.size) (h0 : m ≠ 0) : ∃ d, HighestAt p m d := by
  by_cases h3 : p.coord m 3 = 0
  · by_cases h2 : p.coord m 2 = 0
    · by_cases h1 : p.coord m 1 = 0
      · by_cases hz : p.coord m 0 = 0
        · refine absurd (eq_zero_of_coords p hm fun d hd => ?_) h0
          obtain rfl | rfl | rfl | rfl : d = 0 ∨ d = 1 ∨ d = 2 ∨ d = 3 := by omega
          all_goals assumption
        · refine ⟨0, by omega, hz, fun e he he4 => ?_⟩
          obtain rfl | rfl | rfl : e = 1 ∨ e = 2 ∨ e = 3 := by omega
          all_goals assumption
      · refine ⟨1, by omega, h1, fun e he he4 => ?_⟩
        obtain rfl | rfl : e = 2 ∨ e = 3 := by omega
        all_goals assumption
    · refine ⟨2, by omega, h2, fun e he he4 => ?_⟩
      obtain rfl : e = 3 := by omega
      assumption
  · exact ⟨3, by omega, h3, fun e he he4 => by omega⟩

theorem parentPort_of_highest {m d : Nat} (h : HighestAt p m d) : p.parentPort m = some (p.towards m d) := by
  obtain ⟨hlt, hne, habove⟩ := h
  have hhalf : p.coord m d ≤ p.dim d / 2 ↔ 2 * p.coord m d ≤ p.dim d := by omega
  have hfind : [3, 2, 1, 0].find? (fun e => decide (p.coord m e ≠ 0)) = some d := by
    obtain rfl | rfl | rfl | rfl : d = 0 ∨ d = 1 ∨ d = 2 ∨ d = 3 := by omega
    · simp [habove 1, habove 2, habove 3, hne]
    · simp [habove 2, habove 3, hne]
    · simp [habove 3, hne]
    · simp [hne]
  rw [Pck.parentPort, hfind, Option.map_some, Pck.towards]
  simp only [hhalf]

/-- A dimension with a coordinate that is not 0 is cabled. -/
theorem two_le_dim {m d : Nat} (h : p.coord m d ≠ 0) : 2 ≤ p.dim d := by
  have := coord_lt p m d
  omega

theorem neighbour_even {m d : Nat} (hd : d < 4) (hdim : 2 ≤ p.dim d) :
    p.neighbour m (2 * d) = some (p.withCoord m d ((p.coord m d + p.dim d - 1) % p.dim d)) := by
  have hhalf : 2 * d / 2 = d := by omega
  simp only [Pck.neighbour, hhalf]
  rw [if_neg (by omega), if_neg (by omega)]

theorem neighbour_odd {m d : Nat} (hd : d < 4) (hdim : 2 ≤ p.dim d) :
    p.neighbour m (2 * d + 1) = some (p.withCoord m d ((p.coord m d + 1) % p.dim d)) := by
  have hhalf : (2 * d + 1) / 2 = d := by omega
  simp only [Pck.neighbour, hhalf]
  rw [if_neg (by omega), if_pos (by omega)]

/-- The neighbour through the port towards the master is one link nearer. -/
theorem neighbour_towards {m d : Nat} (hd : d < 4) (hne : p.coord m d ≠ 0) :
    p.neighbour m (p.towards m d) = some (p.withCoord m d (nearer (p.dim d) (p.coord m d))) := by
  have hlt := coord_lt p m d
  unfold Pck.towards nearer
  split
  · rw [neighbour_even hd (two_le_dim hne), show p.coord m d + p.dim d - 1 = p.coord m d - 1 + p.dim d by omega,
      Nat.add_mod_right, Nat.mod_eq_of_lt (by omega)]
  · rw [neighbour_odd hd (two_le_dim hne)]

/-- Back through the other end of the link is the member. -/
theorem neighbour_back {m d : Nat} (hd : d < 4) (hne : p.coord m d ≠ 0) :
    p.neighbour (p.withCoord m d (nearer (p.dim d) (p.coord m d))) (oppositePort (p.towards m d)) = some m := by
  have hlt := coord_lt p m d
  have hx := nearer_lt hlt
  have hsame := coord_withCoord_same p (m := m) hx
  have hback := withCoord_withCoord p (m := m) hx
  by_cases hhalf : 2 * p.coord m d ≤ p.dim d
  · have hport : oppositePort (p.towards m d) = 2 * d + 1 := by
      rw [Pck.towards, if_pos hhalf, oppositePort, if_neg (by omega)]
    have hring : (nearer (p.dim d) (p.coord m d) + 1) % p.dim d = p.coord m d := by
      rw [nearer, if_pos hhalf, show p.coord m d - 1 + 1 = p.coord m d by omega, Nat.mod_eq_of_lt hlt]
    rw [hport, neighbour_odd hd (two_le_dim hne), hsame, hring, hback]
  · have hport : oppositePort (p.towards m d) = 2 * d := by
      rw [Pck.towards, if_neg hhalf, oppositePort, if_pos (by omega)]; rfl
    have hring : (nearer (p.dim d) (p.coord m d) + p.dim d - 1) % p.dim d = p.coord m d := by
      rw [nearer, if_neg hhalf]
      rcases Nat.lt_or_ge (p.coord m d + 1) (p.dim d) with h | h
      · rw [Nat.mod_eq_of_lt h, show p.coord m d + 1 + p.dim d - 1 = p.coord m d + p.dim d by omega, Nat.add_mod_right,
          Nat.mod_eq_of_lt hlt]
      · rw [show p.coord m d + 1 = p.dim d by omega, Nat.mod_self, Nat.mod_eq_of_lt (by omega)]
        omega
    rw [hport, neighbour_even hd (two_le_dim hne), hsame, hring, hback]

theorem oppositePort_oppositePort (q : Nat) : oppositePort (oppositePort q) = q := by
  unfold oppositePort
  split <;> split <;> omega

/-- Settles O35: the port towards the master in the highest dimension leads to the member with that coordinate one link nearer,
and the ways of the dimensions add up to the depth. -/
theorem everyMemberHasAParent : Obligations.EveryMemberHasAParent := by
  unfold Obligations.EveryMemberHasAParent
  intro p m hm h0
  obtain ⟨d, h⟩ := exists_highest hm h0
  have hlt := coord_lt p m d
  have hx := nearer_lt hlt
  refine ⟨⟨d, p.towards m d, p.withCoord m d (nearer (p.dim d) (p.coord m d)), h.lt, h.ne, h.above, parentPort_of_highest h,
    neighbour_towards h.lt h.ne, withCoord_lt p hx h.lt hm, fun hhalf => ?_, fun hhalf => ?_,
    fun e _ he => coord_withCoord_other p hx he, depthOf_withCoord p h.lt hx (nearer_way hlt h.ne), ?_⟩,
    depthOf_eq p m, depthOf_le p m⟩
  · exact ⟨if_pos hhalf, (coord_withCoord_same p hx).trans (if_pos hhalf)⟩
  · exact ⟨if_neg (by omega), (coord_withCoord_same p hx).trans (if_neg (by omega))⟩
  · unfold Pck.isChild
    rw [neighbour_back h.lt h.ne]
    simp [parentPort_of_highest h, oppositePort_oppositePort]

end Sys2Proof.Machine
end

section
/-!
The refutation of O46: the E-HND-06 of a refused image is written to a log ring, and a ring in device memory that the Cadastre
denies raises a denial, which the Cadastre counts (R613, R623, R676).
-/
namespace Sys2Proof.Machine
open Sys2Proof

/-- A module in READY whose Handler runs, whose locked Cadastre has no entry, and whose physical function logs to device
memory. -/
def ringDenied : State :=
  let s : State := {}
  { s with
    sup := { s.sup with mstate := .ready }
    hnd := { s.hnd with running := true }
    cad := { s.cad with locked := true }
    fns := [(0, { ring := { en := true } })] }

/-- The denials a command leaves counted. -/
def denialsAfter (i : Instr) (s : State) : Option (BitVec 32) :=
  match exec i s with
  | .next t => some t.cad.denyCount
  | _ => none

theorem updateOpen_ringDenied : ringDenied.updateOpen = true := by decide +kernel

theorem not_passes_empty : (readFirmware []).passes ringDenied.fuses.svFloor.toNat = false := by decide +kernel

/-- The refused image is reported, and the report's own ring write is the first denial. -/
theorem denialsAfter_firmwareUpdate : denialsAfter (.firmwareUpdate []) ringDenied = some 1 := by decide +kernel

theorem denyCount_ringDenied : ringDenied.cad.denyCount = 0 := rfl

/-- Refutes O46: an image that is refused leaves the Cadastre's denial count one higher where the physical function's log ring
lies in device memory that the Cadastre denies. -/
theorem not_cadastreWritesAndUpdates : ¬ Obligations.CadastreWritesAndUpdates := by
  unfold Obligations.CadastreWritesAndUpdates
  intro h
  obtain ⟨-, -, hupdates, -⟩ := h ringDenied
  obtain ⟨-, -, -, hrefused⟩ := hupdates [] updateOpen_ringDenied
  obtain ⟨t, hexec, hcad, -⟩ := hrefused not_passes_empty
  have hcount := denialsAfter_firmwareUpdate
  rw [denialsAfter, hexec] at hcount
  have hsame : t.cad.denyCount = 1 := Option.some.inj hcount
  rw [hcad, denyCount_ringDenied] at hsame
  exact absurd hsame (by decide)

end Sys2Proof.Machine
end

section
/-!
Records, log rings, the Field book and alerts (O48): R668, R676 to R685.
-/
namespace Sys2Proof.Machine
open Sys2Proof

/-! ### A report leaves how a log ring is laid out to its function (R676) -/

/-- A log ring without what the module itself moves. -/
def LogRing.laid (g : LogRing) : LogRing := { g with en := false, head := 0, drops := 0, overflow := false, lost := false }

/-- Every function's log ring is laid out as it was. -/
def RingsStand (s t : State) : Prop := ∀ f, (t.fn f).ring.laid = (s.fn f).ring.laid

namespace RingsStand
variable {s t u : State}

theorem of_fns (h : t.fns = s.fns) : RingsStand s t := fun f => by rw [State.fn_congr h]

theorem trans (h : RingsStand s t) (k : RingsStand t u) : RingsStand s u := fun f => (k f).trans (h f)

theorem foldl {α : Type} (g : State → α → State) (h : ∀ s a, RingsStand s (g s a)) (xs : List α) (s : State) :
    RingsStand s (xs.foldl g s) :=
  List.foldlRecOn (motive := RingsStand s) _ _ (of_fns rfl) fun t ht a _ => ht.trans (h t a)

theorem setFn {f : Nat} {x : Fn} (h : x.ring.laid = (s.fn f).ring.laid) : RingsStand s (s.setFn f x) := by
  intro k
  by_cases hk : k = f
  · subst hk; rw [State.fn_setFn, h]
  · rw [State.fn_setFn_other _ _ _ _ hk]

end RingsStand

theorem msix_ring (s : State) (f v g : Nat) : ((s.msix f v).fn g).ring = (s.fn g).ring := by
  unfold State.msix
  dsimp only
  split
  · rfl
  · split
    · by_cases hg : g = f
      · subst hg; rw [State.modFn, State.fn_setFn]
      · rw [State.modFn, State.fn_setFn_other _ _ _ _ hg]
    · rfl

/-- A record written into a ring: its bytes sent or stored, then the ring moved on, then the interrupt. -/
theorem ringPut_of_written {s : State} {f : Nat} {r : Rec} (h : s.ringTry f = .written) : ∃ u, u.fns = s.fns ∧
    (u = if (s.fn f).ring.host then s.hostWrite f ((s.fn f).ring.slotAddr (s.fn f).ring.head.toNat) (r.bytes (s.fn f).ring.lost)
      else s.write ((s.fn f).ring.slotAddr (s.fn f).ring.head.toNat) (r.bytes (s.fn f).ring.lost)) ∧
    ∃ t, t = u.modFn f (fun x => { x with ring := { (s.fn f).ring with
      head := BitVec.ofNat 16 (((s.fn f).ring.head.toNat + 1) % 2 ^ (s.fn f).ring.log2.toNat), lost := false } }) ∧
      s.ringPut f r = if (t.fn f).hst.errEn then t.msix f (t.fn f).hst.errVec.toNat else t := by
  refine ⟨_, ?_, rfl, _, rfl, ?_⟩
  · split
    · exact emitIf_keeps _ _ _ .fns (by decide)
    · exact by simp
  · unfold State.ringPut
    rw [h]

theorem ringPut_full {s : State} {f : Nat} {r : Rec} (h : s.ringTry f = .full) : s.ringPut f r =
    s.modFn f fun x => { x with
      ring := { (s.fn f).ring with drops := satInc (s.fn f).ring.drops, overflow := true, lost := true } } := by
  unfold State.ringPut
  rw [h]

theorem ringPut_ringsStand (s : State) (f : Nat) (r : Rec) : RingsStand s (s.ringPut f r) := by
  cases h : s.ringTry f with
  | off => unfold State.ringPut; rw [h]; exact .of_fns rfl
  | full => rw [ringPut_full h]; exact .setFn rfl
  | denied p => unfold State.ringPut; rw [h]; exact .setFn rfl
  | written =>
    obtain ⟨u, hfns, -, t, ht, heq⟩ := ringPut_of_written (r := r) h
    have hmoved : RingsStand s t := ht ▸ RingsStand.trans (.of_fns hfns) (.setFn (by rw [State.fn_congr hfns]; rfl))
    rw [heq]
    split
    · exact hmoved.trans fun g => by rw [msix_ring]
    · exact hmoved

theorem ringStep_ringsStand {rep : Ev → State → State} (hrep : ∀ e s, RingsStand s (rep e s)) (r : Rec) (s : State) (f : Nat) :
    RingsStand s (ringStep rep r s f) := by
  unfold ringStep
  split
  next p _ =>
    have hdenied : RingsStand s ((s.ringPut f r).countDenial f p true).2 := (ringPut_ringsStand s f r).trans (.of_fns rfl)
    refine .trans ?_ (hrep _ _)
    split
    · exact hdenied.trans (hrep _ _)
    · exact hdenied
  · exact ringPut_ringsStand s f r

theorem reportWith_ringsStand (n : Nat) : ∀ (e : Ev) (s : State), RingsStand s (reportWith n e s) := by
  induction n with
  | zero => exact fun _ _ => .of_fns rfl
  | succ n ih =>
    intro e s
    have hraise : (s.raiseFor e).fns = s.fns := raiseFor_keeps s e .fns (by decide)
    unfold reportWith
    dsimp only
    split
    · exact .of_fns hraise
    · refine .trans (.of_fns ?_) (.foldl _ (fun t f => ringStep_ringsStand ih _ t f) _ _)
      exact (recordShare_keeps _ e _ .fns (by decide)).trans hraise

theorem report_ringsStand {e : Ev} (hcls : e.class ≠ .moduleFatal) (s : State) : RingsStand s (s.report e) := by
  rw [report_eq s e fun h => absurd h hcls]
  exact reportWith_ringsStand 3 e s

/-! ### The physical function's log ring (R674 to R677) -/

theorem setErl_keeps (s : State) (x : Erl) : Keeps reportParts s { s with erl := x } := by
  intro p hp; cases p <;> simp_all [Part.same, reportParts]

/-- A record of the physical function alone, all enabled rings at the host: the newest record, put into its ring. -/
theorem reportWith_putsRing {n : Nat} {e : Ev} {s : State} (hr : ringsAtHost s = true) (hl : limited s e.err e.unit = false)
    (hrings : e.rings = [0]) : ∃ u r, reportWith (n + 1) e s = u.ringPut 0 r ∧ r.err = e.err ∧ u.erl.history.head? = some r ∧
      Keeps reportParts s u ∧ u.fns = s.fns := by
  have hraise := raiseFor_keeps s e
  have hlim : (if e.limited then rateLimit (s.raiseFor e).now e.class e.err e.unit (s.raiseFor e).erl.rate
      else (some 0, (s.raiseFor e).erl.rate)).1 = some 0 := by
    split
    · rw [(raiseFor_erl s e).1]; exact rateLimit_new _ _ _ _ _ hl
    · rfl
  unfold reportWith
  dsimp only
  rw [hlim, hrings]
  dsimp only [List.foldl_cons, List.foldl_nil]
  refine ⟨_, _, ringStep_atHost _ _ _ _ ?_, rfl, ?_, ?_, ?_⟩
  · refine (ringsAtHost_congr (s := s) ?_).trans hr
    exact (recordShare_keeps _ e _ .fns (by decide)).trans (hraise .fns (by decide))
  · rw [recordShare_keeps _ e _ .erl (by decide)]
    rfl
  · refine (hraise.mono (by decide)).trans' (.trans' (setErl_keeps _ _) ((recordShare_keeps _ e _).mono (by decide)))
  · exact (recordShare_keeps _ e _ .fns (by decide)).trans (hraise .fns (by decide))

section
variable {s : State} (hen : (s.fn 0).ring.en = true)
include hen

theorem ringTry_full (h : ((s.fn 0).ring.head.toNat + 1) % 2 ^ (s.fn 0).ring.log2.toNat = (s.fn 0).ring.tail.toNat) :
    s.ringTry 0 = .full := (if_neg (by simp [hen])).trans (if_pos h)

theorem ringTry_written (h : ((s.fn 0).ring.head.toNat + 1) % 2 ^ (s.fn 0).ring.log2.toNat ≠ (s.fn 0).ring.tail.toNat)
    (hhost : (s.fn 0).ring.host = true) : s.ringTry 0 = .written :=
  (if_neg (by simp [hen])).trans ((if_neg h).trans (if_pos hhost))

/-- A full ring counts the record as dropped. -/
theorem ringPut_drops (r : Rec) (h : ((s.fn 0).ring.head.toNat + 1) % 2 ^ (s.fn 0).ring.log2.toNat = (s.fn 0).ring.tail.toNat) :
    ((s.ringPut 0 r).fn 0).ring =
      { (s.fn 0).ring with drops := satInc (s.fn 0).ring.drops, overflow := true, lost := true } := by
  rw [ringPut_full (ringTry_full hen h), State.modFn, State.fn_setFn]

/-- A ring at the host with room takes the record. -/
theorem ringPut_writes (r : Rec) (h : ((s.fn 0).ring.head.toNat + 1) % 2 ^ (s.fn 0).ring.log2.toNat ≠ (s.fn 0).ring.tail.toNat)
    (hhost : (s.fn 0).ring.host = true) (hup : s.hst.linkUp = true) :
    Out.hostWrite 0 ((s.fn 0).ring.slotAddr (s.fn 0).ring.head.toNat) (r.bytes (s.fn 0).ring.lost) ∈ (s.ringPut 0 r).out ∧
      ((s.ringPut 0 r).fn 0).ring = { (s.fn 0).ring with
        head := BitVec.ofNat 16 (((s.fn 0).ring.head.toNat + 1) % 2 ^ (s.fn 0).ring.log2.toNat), lost := false } := by
  obtain ⟨u, hfns, hu, t, ht, hput⟩ := ringPut_of_written (r := r) (ringTry_written hen h hhost)
  have hsent : Out.hostWrite 0 ((s.fn 0).ring.slotAddr (s.fn 0).ring.head.toNat) (r.bytes (s.fn 0).ring.lost) ∈ t.out := by
    rw [ht, hu, if_pos hhost, State.hostWrite, hup]
    exact List.mem_append_right _ List.mem_cons_self
  have hring : (t.fn 0).ring = { (s.fn 0).ring with
      head := BitVec.ofNat 16 (((s.fn 0).ring.head.toNat + 1) % 2 ^ (s.fn 0).ring.log2.toNat), lost := false } := by
    rw [ht, State.modFn, State.fn_setFn]
  rw [hput]
  split
  · exact ⟨(msix_spares _ _ _).out.mem hsent, (msix_ring _ _ _ _).trans hring⟩
  · exact ⟨hsent, hring⟩

end

/-- The readback's record, as the physical function's ring takes it. -/
theorem exec_readbackCheck_putsRing {s : State} (hstandby : s.sup.standby = true) (hr : ringsAtHost s = true)
    (hl : limited s ⟨.sys, 43⟩ .none = false) : ∃ (u : State) (r : Rec), exec (.readbackCheck true) s = .next (u.ringPut 0 r) ∧
      r.err = ⟨.sys, 43⟩ ∧ u.erl.history.head? = some r ∧ u.hst = s.hst ∧ u.fns = s.fns := by
  obtain ⟨u, r, heq, herr, hhead, hkeeps, hfns⟩ := reportWith_putsRing (n := 2) (e := { blk := .sys, nn := 43 })
    (s := s.readbackFailed) hr hl rfl
  refine ⟨u, r, ?_, herr, hhead, hkeeps .hst (by decide), hfns⟩
  rw [exec_readbackCheck_mismatch hstandby, report_eq _ _ (by decide), heq]

/-! ### The Field book's flash (R682, R685) -/

section
variable {s : State} (halive : s.alive = true) (hrun : s.hnd.running = true)
include halive hrun

theorem exec_fieldBookPeriodicWrite (n : Nat) :
    exec (.fieldBookPeriodicWrite n) s = .next (s.flashWrite n s.fb.save s.fb) :=
  congrArg Host.Outcome.next (if_pos (by simp [halive, hrun]))

theorem exec_fieldBookAppend (n : Nat) {r : Rec} {rest : List Rec} (hq : s.fb.queue = r :: rest) :
    exec (.fieldBookAppend n) s =
      .next (s.flashWrite n { s.fb.append r with queue := rest } { s.fb with queue := rest }) := by
  change execFieldBookAppend n s = _
  unfold execFieldBookAppend
  rw [hq]
  exact congrArg Host.Outcome.next (if_pos (by simp [halive, hrun]))

end

theorem setFb_keeps (s : State) (b : FieldBook) : Keeps [.fb] s { s with fb := b } := by
  intro p hp; cases p <;> simp_all [Part.same]

/-- The flash with no spare left. -/
def State.sparesSpent (s : State) (lost : FieldBook) : State := { s with fb := { lost with retired := Config.flashSpares } }

theorem flashWrite_lost {s : State} {n : Nat} (good lost : FieldBook) (h : s.fb.sparesFor n = false) :
    s.flashWrite n good lost = (s.sparesSpent lost).report { blk := .erl, nn := 4 } := if_neg (by simp [h])

theorem save_work (b : FieldBook) : b.save.work = { b.work with seq := (b.current.elim 0 fun c => c.seq) + 1 } := by
  unfold FieldBook.save
  dsimp only
  split <;> rfl

theorem save_copies (b : FieldBook) : (b.currentB = false → b.save.copyA = b.copyA ∧ b.save.copyB = some b.save.work) ∧
    (b.currentB = true → b.save.copyB = b.copyB ∧ b.save.copyA = some b.save.work) := by
  unfold FieldBook.save
  dsimp only
  constructor <;> intro h <;> simp [h]

/-- The newest record is the last entry of the event log. -/
theorem append_getLast? (b : FieldBook) (r : Rec) : (b.append r).log.getLast? = some r := by
  have hroom : ¬(b.log ++ [r]).length ≤ (b.log ++ [r]).length - 65536 := by
    have : (b.log ++ [r]).length = b.log.length + 1 := List.length_append
    omega
  simp only [FieldBook.append, List.getLast?_drop, if_neg hroom, List.getLast?_append, List.getLast?_singleton]
  rfl

theorem append_eventTotal (b : FieldBook) (r : Rec) : (b.append r).work.eventTotal = b.work.eventTotal + 1 := by
  simp only [FieldBook.append]

/-! ### ERL_ALERT and ERL_RING_CFG (R676, R679) -/

theorem exec_alertClear {s : State} (v : Word) (hreach : s.hostReach 0 = true) :
    exec (.alertClear 0 v) s = .next (s.clearAlerts v.toNat) := congrArg Host.Outcome.next (if_pos (by simp [hreach]))

section
variable {s : State} {fn : Nat} (v : Word) (hreach : s.hostReach fn = true)
include hreach

theorem exec_errorRingEnable_rises (hoff : (s.fn fn).ring.en = false) (hv : v.getLsbD 4 = true) :
    exec (.errorRingEnable fn v) s = .next (s.modFn fn fun x => { x with ring := { (s.fn fn).ring with
      log2 := ringLog2 v.toNat, en := true, head := 0, tail := 0 } }) := by
  change execErrorRingEnable fn v s = _
  unfold execErrorRingEnable
  rw [hv]
  exact (if_neg (by simp [hreach])).trans (if_neg (by simp [hoff]))

/-- EN written on a ring that is enabled, whose LOG2 stays locked. -/
def State.ringKept (s : State) (fn : Nat) (en : Bool) : State :=
  (s.modFn fn fun x => { x with ring := { x.ring with en := en } }).modFn fn fun x => { x with ring := { x.ring with fieldLocked := true } }

theorem exec_errorRingEnable_locked (hon : (s.fn fn).ring.en = true) : exec (.errorRingEnable fn v) s =
    .next (State.lockedRecord (s.ringKept fn (v.getLsbD 4)) .erl 9 fn 0x1C00018 v.toNat) :=
  (if_neg (by simp [hreach])).trans (if_pos hon)

end

theorem ringKept_ring (s : State) (fn : Nat) (en : Bool) :
    ((s.ringKept fn en).fn fn).ring = { (s.fn fn).ring with en := en, fieldLocked := true } := by
  rw [State.ringKept, State.modFn, State.fn_setFn, State.modFn, State.fn_setFn]

theorem ringKept_keeps (s : State) (fn : Nat) (en : Bool) : Keeps reportParts s (s.ringKept fn en) :=
  ((setFn_keeps s fn _).mono (by decide)).trans' ((setFn_keeps _ fn _).mono (by decide))

theorem erlLocked_class (fn : Nat) (d : List Nat) :
    ({ blk := .erl, nn := 9, func := some fn, detail := d } : Ev).class ≠ .moduleFatal := fun h => nomatch h

theorem ringLog2_bounds (v : Nat) : 6 ≤ (ringLog2 v).toNat ∧ (ringLog2 v).toNat ≤ 14 := by
  have hval : (ringLog2 v).toNat = max 6 (min 14 (v % 16)) := by
    rw [ringLog2, BitVec.toNat_ofNat, Nat.mod_eq_of_lt (by omega)]
  omega

/-! ### A quarter's fatal error (R668) -/

theorem countFatal_sup {α : Type} (s : State) (f : Sup → α) (hf : ∀ x, f { x with service := false } = f x) :
    f s.countFatal.sup = f s.sup := by
  have hreport : ∀ (b : Bool) (v : State), f (if b then reportWith 3 { blk := .erl, nn := 7 } v else v).sup = f v.sup := by
    intro b v
    cases b
    · rfl
    · exact (reportWith_spares 3 _ v).sup f hf
  exact hreport _ _

/-- Where the module dispatches or boots, a module-fatal report takes it to HOLD with the cause of its block. -/
theorem report_holds {s : State} {e : Ev} (hfatal : e.class = .moduleFatal ∧ ¬e.blk = .sup)
    (hup : s.sup.mstate = .boot ∨ s.sup.mstate = .ready ∨ s.sup.mstate = .run) :
    ∃ u : State, s.report e = u.enterHold e.holdCause ∧ u.pending = s.pending ∧ u.sup.tripLatch = s.sup.tripLatch := by
  obtain ⟨u, hu⟩ : ∃ u, u = ((reportWith 3 e s).emitIf (reportWith 3 e s).hst.linkUp .aerFatal).countFatal := ⟨_, rfl⟩
  have hsup : ∀ {α : Type} (f : Sup → α), (∀ x, f { x with service := false } = f x) → f u.sup = f s.sup := by
    intro α f hf
    rw [hu, countFatal_sup _ f hf, (emitIf_spares _ _ _).sup f hf, (reportWith_spares 3 e s).sup f hf]
  have hreport : s.report e = u.enterHold e.holdCause := by
    unfold State.report
    rw [if_pos hfatal]
    dsimp only
    rw [← hu]
    obtain h | h | h := hup <;> rw [(hsup (·.mstate) fun _ => rfl).trans h]
  have hstand : u.standing = s.standing := by rw [hu]; simp
  exact ⟨u, hreport, congrArg Standing.pending hstand, hsup (·.tripLatch) fun _ => rfl⟩

/-- Where the module dispatches or boots, a quarter's fatal error takes it to HOLD. -/
theorem quarterFatal_holds {s : State} (q : Nat) (halive : s.alive = true)
    (hup : s.sup.mstate = .boot ∨ s.sup.mstate = .ready ∨ s.sup.mstate = .run) :
    ∃ u : State, exec (.quarterFatalError q) s = .next (u.enterHold 0x11) ∧ u.pending = s.pending := by
  have hexec : exec (.quarterFatalError q) s = .next (s.report { blk := .erl, nn := 1, quarter := some q }) :=
    congrArg Host.Outcome.next (if_pos halive)
  obtain ⟨u, hreport, hpend, -⟩ := report_holds (e := { blk := .erl, nn := 1, quarter := some q }) ⟨rfl, fun h => nomatch h⟩ hup
  exact ⟨u, hexec.trans (congrArg _ hreport), hpend⟩

/-- Settles O48: where every ring is at the host a report ends by putting its record into the physical function's; a flash write
is the write asked for or one report; the fatal error's own report enters HOLD. -/
theorem recordsRingsAndFieldBook : Obligations.RecordsRingsAndFieldBook := by
  unfold Obligations.RecordsRingsAndFieldBook
  intro s
  refine ⟨fun hstandby hen hhost hr hl => ?_, fun n halive hrun hspare => ?_, fun n halive hrun hnone => ?_,
    fun n r rest halive hrun hq hspare => ?_, fun v hreach => ?_, fun fn v hreach => ⟨fun hoff hv => ?_, fun hon => ?_⟩,
    fun q halive hup => ?_⟩
  · obtain ⟨u, r, hexec, herr, hhead, hhst, hfns⟩ := exec_readbackCheck_putsRing hstandby hr hl
    have hfn : u.fn 0 = s.fn 0 := State.fn_congr hfns 0
    rw [← hfn] at hen hhost ⊢
    refine ⟨fun hfull => ?_, fun hroom hlink => ?_⟩
    · have hring := ringPut_drops hen r hfull
      exact ⟨_, hexec, congrArg (·.drops) hring, congrArg (·.overflow) hring, congrArg (·.lost) hring, congrArg (·.head) hring⟩
    · obtain ⟨hsent, hring⟩ := ringPut_writes hen r hroom hhost (by rw [hhst]; exact hlink)
      exact ⟨_, r, hexec, (congrArg (·.history.head?) (ringPut_keeps u 0 r .erl (by decide))).trans hhead, herr, hsent,
        congrArg (·.head) hring, congrArg (·.lost) hring⟩
  · have hexec := exec_fieldBookPeriodicWrite halive hrun n
    rw [flashWrite_good s n _ _ hspare] at hexec
    obtain ⟨hA, hB⟩ := save_copies s.fb
    exact ⟨_, hexec, rfl, hA, hB, save_work s.fb, setFb_keeps _ _⟩
  · have hexec := exec_fieldBookPeriodicWrite halive hrun n
    have hkeeps := flashWrite_keeps s n s.fb.save s.fb
    rw [flashWrite_lost _ _ hnone] at hexec hkeeps
    have hsp := report_spares (e := { blk := .erl, nn := 4 }) (by decide) (s.sparesSpent s.fb)
    exact ⟨_, hexec, hsp.fb (·.copyA) fun _ => rfl, hsp.fb (·.copyB) fun _ => rfl, hsp.fb (·.log) fun _ => rfl,
      report_records (by decide) rfl rfl, hkeeps⟩
  · have hexec := exec_fieldBookAppend halive hrun n hq
    rw [flashWrite_good s n _ _ hspare] at hexec
    refine ⟨_, hexec, ?_, ?_, ?_, ?_⟩
    · rfl
    · dsimp only; exact append_getLast? s.fb r
    · dsimp only; exact append_eventTotal s.fb r
    · exact setFb_keeps _ _
  · exact ⟨_, exec_alertClear v hreach, fun i hi => clearAlerts_alert s v.toNat i hi, clearAlerts_keeps s _⟩
  · have hring : ((s.modFn fn fun x => { x with ring := { (s.fn fn).ring with
        log2 := ringLog2 v.toNat, en := true, head := 0, tail := 0 } }).fn fn).ring =
        { (s.fn fn).ring with log2 := ringLog2 v.toNat, en := true, head := 0, tail := 0 } :=
      congrArg Fn.ring (State.fn_setFn _ _ _)
    obtain ⟨hlo, hhi⟩ := ringLog2_bounds v.toNat
    exact ⟨_, exec_errorRingEnable_rises v hreach hoff hv, congrArg (·.en) hring, congrArg (·.head) hring,
      congrArg (·.tail) hring, by rw [hring]; exact hlo, by rw [hring]; exact hhi, setFn_keeps _ _ _⟩
  · have hcls := erlLocked_class fn [0x1C00018, v.toNat % 2 ^ 32]
    have hstand := report_ringsStand hcls (s.ringKept fn (v.getLsbD 4)) fn
    have hring := ringKept_ring s fn (v.getLsbD 4)
    exact ⟨_, exec_errorRingEnable_locked v hreach hon, (congrArg (·.log2) hstand).trans (congrArg (·.log2) hring),
      (congrArg (·.fieldLocked) hstand).trans (congrArg (·.fieldLocked) hring),
      (ringKept_keeps s fn _).trans' (report_keeps hcls _)⟩
  · obtain ⟨u, hexec, hpend⟩ := quarterFatal_holds q halive hup
    obtain ⟨hhold, hcause, -⟩ := enterHold_sup u 0x11
    exact ⟨_, hexec, hhold, hcause, (congrArg Standing.pending (enterHold_standing u 0x11)).trans hpend⟩

end Sys2Proof.Machine
end

section
/-!
The mailbox (O51): what GO does to each of its commands, and their completion (R691, Table 20.10).
-/
namespace Sys2Proof.Machine
open Sys2Proof

section
variable {s : State} {fn : Nat}

/-! ### The mailbox of a function -/

/-- A function's mailbox written. -/
def State.setMailbox (s : State) (fn : Nat) (m : Mailbox) : State := s.modFn fn fun g => { g with mailbox := m }

theorem setMailbox_mailbox (s : State) (fn : Nat) (m : Mailbox) : ((s.setMailbox fn m).fn fn).mailbox = m := by
  rw [State.setMailbox, State.modFn, State.fn_setFn]

theorem setMailbox_keeps (s : State) (fn : Nat) (m : Mailbox) : Keeps [.fns] s (s.setMailbox fn m) := setFn_keeps s fn _

theorem setMailbox_atHost (m : Mailbox) (h : ringsAtHost s = true) : ringsAtHost (s.setMailbox fn m) = true :=
  ringsAtHost_setFn s h fn _ (ringsAtHost_fn s h fn)

/-- A report leaves every mailbox. -/
theorem report_mailbox {e : Ev} (hcls : e.class ≠ .moduleFatal) (u : State) (f : Nat) :
    ((u.report e).fn f).mailbox = (u.fn f).mailbox := by
  rw [report_eq u e fun h => absurd h hcls]
  have hsame := congrArg Fn.mailbox (reportWith_sameSettings 3 e u f)
  exact hsame

theorem mailboxAnswer_eq (s : State) (fn : Nat) (result : BitVec 4) (a b : Nat) : s.mailboxAnswer fn result a b =
    s.setMailbox fn { (s.fn fn).mailbox with todo := some (result, [BitVec.ofNat 64 a, BitVec.ofNat 64 b, 0, 0]) } := rfl

theorem mailboxAnswer_mailbox (s : State) (fn : Nat) (result : BitVec 4) (a b : Nat) :
    ((s.mailboxAnswer fn result a b).fn fn).mailbox =
      { (s.fn fn).mailbox with todo := some (result, [BitVec.ofNat 64 a, BitVec.ofNat 64 b, 0, 0]) } := by
  rw [mailboxAnswer_eq, setMailbox_mailbox]

theorem mailboxAnswer_keeps (s : State) (fn : Nat) (result : BitVec 4) (a b : Nat) :
    Keeps [.fns] s (s.mailboxAnswer fn result a b) := setMailbox_keeps _ _ _

/-! ### GO -/

/-- The command begun: BUSY, with its code. -/
def State.commandBegun (s : State) (fn code : Nat) : State :=
  s.setMailbox fn { (s.fn fn).mailbox with code := BitVec.ofNat 8 code, done := false, busy := true }

section
variable {code : Nat} (hreach : s.hostReach fn = true)
include hreach

theorem mailboxGo_busy (hbusy : (s.fn fn).mailbox.busy = true) :
    s.mailboxGo fn code = s.hndLocked fn 0x2400014 (2 ^ 31 + code) := (if_neg (by simp [hreach])).trans (if_pos hbusy)

theorem mailboxGo_absent (hfree : (s.fn fn).mailbox.busy = false) (hrun : s.hnd.running = false) : s.mailboxGo fn code =
    s.setMailbox fn { (s.fn fn).mailbox with code := BitVec.ofNat 8 code, done := true, result := 2 } :=
  (if_neg (by simp [hreach])).trans ((if_neg (by simp [hfree])).trans (if_pos (by simp [hrun])))

theorem mailboxGo_runs (hfree : (s.fn fn).mailbox.busy = false) (hrun : s.hnd.running = true) :
    s.mailboxGo fn code = (s.commandBegun fn code).mailboxRun fn code :=
  (if_neg (by simp [hreach])).trans ((if_neg (by simp [hfree])).trans (if_neg (by simp [hrun])))

end

/-- A locked write of the Handler's block. -/
def State.hndMarked (s : State) : State := { s with hnd := { s.hnd with fieldLocked := true } }

theorem hndMarked_keeps (s : State) : Keeps reportParts s s.hndMarked := by
  intro p hp; cases p <;> simp_all [Part.same, reportParts, State.hndMarked]

theorem hndLocked_class (fn : Nat) (d : List Nat) :
    ({ blk := .hnd, nn := 5, func := some fn, detail := d } : Ev).class ≠ .moduleFatal := fun h => nomatch h

/-- A GO on a busy mailbox is a locked write, and the mailbox stands. -/
theorem hndLocked_records {off value : Nat} (hval : value < 2 ^ 32) :
    ((s.hndLocked fn off value).fn fn).mailbox = (s.fn fn).mailbox ∧ (s.hndLocked fn off value).hnd.fieldLocked = true ∧
      Records s (s.hndLocked fn off value) ⟨.hnd, 5⟩ .reportOnly .none [off, value] ∧
      Keeps reportParts s (s.hndLocked fn off value) := by
  have hcls := hndLocked_class fn [off, value]
  have heq : s.hndLocked fn off value = s.hndMarked.report { blk := .hnd, nn := 5, func := some fn, detail := [off, value] } := by
    rw [State.hndLocked, State.lockedRecord, Nat.mod_eq_of_lt hval, State.hndMarked]
  rw [heq]
  exact ⟨report_mailbox hcls _ fn, (report_spares hcls s.hndMarked).hnd (·.fieldLocked) fun _ => rfl,
    report_records hcls rfl rfl, (hndMarked_keeps s).trans' (report_keeps hcls _)⟩

/-! ### NOTE -/

/-- The caller's 24 bytes as six words. -/
def noteWords (args : List DWord) : List Nat :=
  (List.range 6).map fun k => (args.getD (k / 2) 0).toNat / 2 ^ (32 * (k % 2)) % 2 ^ 32

def noteEv (fn : Nat) (args : List DWord) : Ev := { blk := .erl, nn := 8, func := some fn, detail := noteWords args }

theorem noteEv_class (fn : Nat) (args : List DWord) : (noteEv fn args).class ≠ .moduleFatal := fun h => nomatch h

theorem commandBegun_mailbox (s : State) (fn code : Nat) : ((s.commandBegun fn code).fn fn).mailbox =
    { (s.fn fn).mailbox with code := BitVec.ofNat 8 code, done := false, busy := true } := setMailbox_mailbox _ _ _

theorem commandBegun_keeps (s : State) (fn code : Nat) : Keeps [.fns] s (s.commandBegun fn code) := setMailbox_keeps _ _ _

theorem exec_note (hreach : s.hostReach fn = true) (hfree : (s.fn fn).mailbox.busy = false) (hrun : s.hnd.running = true) :
    exec (.note fn) s =
      .next (((s.commandBegun fn 3).report (noteEv fn (s.fn fn).mailbox.args)).mailboxAnswer fn 0 0 0) := by
  have hargs : ((s.commandBegun fn 3).fn fn).mailbox.args = (s.fn fn).mailbox.args := by rw [commandBegun_mailbox]
  change Host.Outcome.next (s.mailboxGo fn 3) = _
  rw [mailboxGo_runs hreach hfree hrun, ← hargs]
  rfl

/-! ### FB_COPY and FB_EXPORT -/

/-- The command's bytes at their destination, with its answer. -/
theorem mailboxWrite_lands {a : Nat} {d : List Byte} (hdev : inDev a d.length = true)
    (hgrant : s.cadDenied 0 a d.length true = none) (hclean : s.mem.poison = []) : s.mailboxWrite fn a d =
    ((s.writeDev a d).invalidate (pages a d.length)).mailboxAnswer fn 0 d.length 0 := by
  unfold State.mailboxWrite
  rw [if_neg (by simp [hdev]), hgrant, badGranule_of_clean hclean]

theorem landed_bytes (s : State) (fn a : Nat) (d : List Byte) :
    (((s.writeDev a d).invalidate (pages a d.length)).mailboxAnswer fn 0 d.length 0).mem.bytes = writeBytes s.mem.bytes a d :=
  (congrArg Mem.bytes (mailboxAnswer_keeps _ fn 0 d.length 0 .mem (by decide))).trans (invalidate_bytes _ _)

theorem landed_keeps (s : State) (fn a : Nat) (d : List Byte) :
    Keeps [.fns, .mem, .hrd, .ec] s (((s.writeDev a d).invalidate (pages a d.length)).mailboxAnswer fn 0 d.length 0) :=
  (((writeDev_keeps s a d).mono (by decide)).trans' ((invalidate_keeps _ _).mono (by decide))).trans'
    ((mailboxAnswer_keeps _ _ _ _ _).mono (by decide))

theorem landed_mailbox (s : State) (fn a : Nat) (d : List Byte) :
    ((((s.writeDev a d).invalidate (pages a d.length)).mailboxAnswer fn 0 d.length 0).fn fn).mailbox.todo =
      some (0, [BitVec.ofNat 64 d.length, 0, 0, 0]) :=
  congrArg (·.todo) (mailboxAnswer_mailbox _ fn 0 d.length 0)

theorem runFbCopy_events {dest first count : Nat} (halign : dest % 64 = 0) (hlo : 1 ≤ count) (hhi : count ≤ 4096)
    (hheld : first + count ≤ s.fb.log.length) :
    s.runFbCopy 0 dest 1 first count = s.mailboxWrite 0 dest (s.eventBytes first count) := by
  unfold State.runFbCopy
  rw [if_neg (by omega), if_neg (by decide), if_pos ⟨rfl, hlo, hhi, hheld⟩]

/-- The one frame of an export. -/
def State.exportRun (s : State) (cap first count : Nat) : DictRun :=
  compressRun (DictCtx.first 0 12 0) true false true cap (s.stateBlockBytes ++ s.eventBytes first count)

theorem runFbExport_eq {dest cap first count : Nat} (hhi : count ≤ 65536) (hheld : first + count ≤ s.fb.log.length) :
    s.runFbExport 0 dest cap first count = if (s.exportRun cap first count).full then s.mailboxAnswer 0 0 0 1
      else s.mailboxWrite 0 dest (s.exportRun cap first count).out.reverse := by
  unfold State.runFbExport
  rw [if_neg (by omega)]
  rfl

theorem mailboxRun_copy (s : State) : (s.commandBegun 0 1).mailboxRun 0 1 = (s.commandBegun 0 1).runFbCopy 0
    ((s.fn 0).mailbox.args.getD 0 0).toNat ((s.fn 0).mailbox.args.getD 1 0).toNat ((s.fn 0).mailbox.args.getD 2 0).toNat
    ((s.fn 0).mailbox.args.getD 3 0).toNat := by
  unfold State.mailboxRun
  rw [commandBegun_mailbox]
  rfl

theorem mailboxRun_export (s : State) : (s.commandBegun 0 2).mailboxRun 0 2 = (s.commandBegun 0 2).runFbExport 0
    ((s.fn 0).mailbox.args.getD 0 0).toNat ((s.fn 0).mailbox.args.getD 1 0).toNat ((s.fn 0).mailbox.args.getD 2 0).toNat
    ((s.fn 0).mailbox.args.getD 3 0).toNat := by
  unfold State.mailboxRun
  rw [commandBegun_mailbox]
  rfl

theorem exec_fbExport {a first count : Nat} {r : DictRun} (hreach : s.hostReach 0 = true)
    (hfree : (s.fn 0).mailbox.busy = false) (hrun : s.hnd.running = true) (ha : a = ((s.fn 0).mailbox.args.getD 0 0).toNat)
    (hfirst : first = ((s.fn 0).mailbox.args.getD 2 0).toNat) (hcount : count = ((s.fn 0).mailbox.args.getD 3 0).toNat)
    (hr : r = s.exportRun ((s.fn 0).mailbox.args.getD 1 0).toNat first count) (hhi : count ≤ 65536)
    (hheld : first + count ≤ s.fb.log.length) : exec (.fbExport 0) s =
    .next (if r.full then (s.commandBegun 0 2).mailboxAnswer 0 0 0 1 else (s.commandBegun 0 2).mailboxWrite 0 a r.out.reverse) := by
  have hsame : ∀ cap, (s.commandBegun 0 2).exportRun cap first count = s.exportRun cap first count := fun _ => rfl
  change Host.Outcome.next (s.mailboxGo 0 2) = _
  rw [mailboxGo_runs hreach hfree hrun, mailboxRun_export, ← ha, ← hfirst, ← hcount,
    runFbExport_eq (s := s.commandBegun 0 2) hhi hheld, hsame, ← hr]

/-! ### The completion -/

/-- The answer stands. -/
def Mailbox.answered (m : Mailbox) (x : BitVec 4 × List DWord) : Mailbox :=
  { m with rsp := x.2, result := x.1, done := true, busy := false, todo := none }

theorem exec_mailboxComplete {x : BitVec 4 × List DWord} (halive : s.alive = true) (hrun : s.hnd.running = true)
    (hbusy : (s.fn fn).mailbox.busy = true) (htodo : (s.fn fn).mailbox.todo = some x) : exec (.mailboxComplete fn) s =
    .next (if (s.fn fn).mailbox.vecEn then (s.setMailbox fn ((s.fn fn).mailbox.answered x)).msix fn (s.fn fn).mailbox.vec.toNat
      else s.setMailbox fn ((s.fn fn).mailbox.answered x)) := by
  change execMailboxComplete fn s = _
  unfold execMailboxComplete
  dsimp only
  rw [if_neg (by simp [halive, hrun, hbusy]), htodo]
  rfl

/-- The interrupt of a completion leaves the mailbox. -/
theorem completed_stands (u : State) (fn v : Nat) (b : Bool) :
    ((if b then u.msix fn v else u).fn fn).mailbox = (u.fn fn).mailbox ∧ Keeps [.fns, .out] u (if b then u.msix fn v else u) := by
  cases b
  · exact ⟨rfl, Keeps.rfl' _ _⟩
  · have hsame := congrArg Fn.mailbox (msix_sameSettings u fn v fn)
    exact ⟨hsame, msix_keeps u fn v⟩

end

/-- Settles O51: GO begins a command on a free mailbox and is a locked write on a busy one; the begun command reads the state as
it was, so its bytes are those of the Field book, and what it will answer stands until it completes. -/
theorem mailboxCommandsRun : Obligations.MailboxCommandsRun := by
  unfold Obligations.MailboxCommandsRun
  intro s fn m hm
  subst hm
  refine ⟨fun i code hreach hi => ⟨fun hbusy => ?_, fun hfree habsent => ?_⟩, fun hreach hfree hrun => ?_,
    fun a first count hreach hfn hfree hrun ha hfirst hcount hclean => ⟨fun halign hwhat hlo hhi hheld hdev hgrant => ?_,
      fun r hr hhi hheld => ⟨fun hfull => ?_, fun hfits hdev hgrant => ?_⟩⟩, fun x halive hrun hbusy htodo => ?_⟩
  · have hexec : exec i s = .next (s.mailboxGo fn code) := by obtain ⟨rfl, rfl⟩ | ⟨rfl, rfl⟩ | ⟨rfl, rfl⟩ := hi <;> rfl
    have hval : 2 ^ 31 + code < 2 ^ 32 := by obtain ⟨-, rfl⟩ | ⟨-, rfl⟩ | ⟨-, rfl⟩ := hi <;> decide
    exact ⟨_, hexec.trans (congrArg _ (mailboxGo_busy hreach hbusy)), hndLocked_records hval⟩
  · have hexec : exec i s = .next (s.mailboxGo fn code) := by obtain ⟨rfl, rfl⟩ | ⟨rfl, rfl⟩ | ⟨rfl, rfl⟩ := hi <;> rfl
    exact ⟨_, hexec.trans (congrArg _ (mailboxGo_absent hreach hfree habsent)), setMailbox_mailbox _ _ _, setMailbox_keeps _ _ _⟩
  · have hcls := noteEv_class fn (s.fn fn).mailbox.args
    have hbox : (((s.commandBegun fn 3).report (noteEv fn (s.fn fn).mailbox.args)).fn fn).mailbox = _ :=
      (report_mailbox hcls _ fn).trans (commandBegun_mailbox s fn 3)
    have hans := mailboxAnswer_mailbox ((s.commandBegun fn 3).report (noteEv fn (s.fn fn).mailbox.args)) fn 0 0 0
    rw [hbox] at hans
    refine ⟨_, exec_note hreach hfree hrun, congrArg (·.busy) hans, congrArg (·.done) hans, congrArg (·.todo) hans, ?_, ?_⟩
    · refine records_of_after ?_ (mailboxAnswer_keeps _ fn 0 0 0 .erl (by decide))
      exact records_of_before (report_records hcls rfl rfl) (setMailbox_atHost _) rfl
    · exact (((commandBegun_keeps s fn 3).mono (by decide)).trans' (report_keeps hcls _)).trans'
        ((mailboxAnswer_keeps _ _ _ _ _).mono (by decide))
  · subst hfn
    have hexec : exec (.fbCopy 0) s = .next ((s.commandBegun 0 1).runFbCopy 0 a 1 first count) := by
      change Host.Outcome.next (s.mailboxGo 0 1) = _
      rw [mailboxGo_runs hreach hfree hrun, mailboxRun_copy, ha, hfirst, hcount, hwhat]
    have hbytes : (s.commandBegun 0 1).eventBytes first count = s.eventBytes first count := rfl
    rw [runFbCopy_events halign hlo hhi (s := s.commandBegun 0 1) hheld, hbytes,
      mailboxWrite_lands (s := s.commandBegun 0 1) hdev hgrant hclean] at hexec
    exact ⟨_, hexec, landed_bytes _ _ _ _, landed_mailbox _ _ _ _,
      ((commandBegun_keeps s 0 1).mono (by decide)).trans' (landed_keeps _ _ _ _)⟩
  · subst hfn
    have hexec := exec_fbExport (s := s) hreach hfree hrun ha hfirst hcount hr hhi hheld
    rw [if_pos hfull] at hexec
    have hans := mailboxAnswer_mailbox (s.commandBegun 0 2) 0 0 0 1
    exact ⟨_, hexec, mailboxAnswer_keeps _ 0 0 0 1 .mem (by decide), congrArg (·.todo) hans,
      (commandBegun_keeps s 0 2).trans' (mailboxAnswer_keeps _ _ _ _ _)⟩
  · subst hfn
    have hexec := exec_fbExport (s := s) hreach hfree hrun ha hfirst hcount hr hhi hheld
    rw [if_neg (by rw [hfits]; decide), mailboxWrite_lands (s := s.commandBegun 0 2) (d := r.out.reverse)
      (by rw [List.length_reverse]; exact hdev) (by rw [List.length_reverse]; exact hgrant) hclean] at hexec
    exact ⟨_, hexec, landed_bytes _ _ _ _, ((commandBegun_keeps s 0 2).mono (by decide)).trans' (landed_keeps _ _ _ _)⟩
  · have hexec := exec_mailboxComplete halive hrun hbusy htodo
    obtain ⟨hbox, hkeeps⟩ := completed_stands (s.setMailbox fn ((s.fn fn).mailbox.answered x)) fn (s.fn fn).mailbox.vec.toNat
      (s.fn fn).mailbox.vecEn
    exact ⟨_, hexec, hbox.trans (setMailbox_mailbox _ _ _), ((setMailbox_keeps _ _ _).mono (by decide)).trans' hkeeps⟩

end Sys2Proof.Machine
end

section
/-!
The Handler-only reset and return (R637, R689, R690, Table 20.9): what the stop and the return leave, and that no report made
while the Handler runs adds to the pending area (R686).
-/
namespace Sys2Proof.Machine
open Sys2Proof

theorem Tab.getD_mapVal_default {α : Type} {g : Nat → α → α} (t : Tab α) (n : Nat) {d : α} (hd : g n d = d) :
    Tab.getD (Tab.mapVal g t) n d = g n (Tab.getD t n d) := by
  simp only [Tab.getD, Tab.find?_mapVal]
  cases Tab.find? t n with
  | none => exact hd.symm
  | some x => rfl

/-! ### The pending area while the Handler runs (R686) -/

/-- The Handler runs as before, and while it runs the pending area stands. -/
structure PendingStands (s t : State) : Prop where
  running : t.hnd.running = s.hnd.running
  pending : s.hnd.running = true → t.fb.pending = s.fb.pending

namespace PendingStands

variable {s t u : State}

theorem trans (h : PendingStands s t) (k : PendingStands t u) : PendingStands s u :=
  ⟨k.running.trans h.running, fun hrun => (k.pending (h.running.trans hrun)).trans (h.pending hrun)⟩

theorem of_spares (h : Spares s t) (hp : t.fb.pending = s.fb.pending) : PendingStands s t :=
  ⟨h.hnd (·.running) fun _ => rfl, fun _ => hp⟩

theorem of_keeps {l : List Part} (h : Keeps l s t) (hfb : Part.fb ∉ l) (hhnd : Part.hnd ∉ l) : PendingStands s t :=
  ⟨congrArg Hnd.running (h .hnd hhnd), fun _ => congrArg FieldBook.pending (h .fb hfb)⟩

theorem after (h : PendingStands t u) (hhnd : t.hnd = s.hnd) (hp : t.fb.pending = s.fb.pending) :
    PendingStands s u := trans ⟨congrArg Hnd.running hhnd, fun _ => hp⟩ h

theorem rfl' (s : State) : PendingStands s s := ⟨rfl, fun _ => rfl⟩

theorem foldl {α : Type} (g : State → α → State) (h : ∀ s a, PendingStands s (g s a)) (xs : List α) (s : State) :
    PendingStands s (xs.foldl g s) :=
  List.foldlRecOn (motive := PendingStands s) _ _ (rfl' s) fun t ht a _ => ht.trans (h t a)

end PendingStands

theorem platformEvent_pendingStands (s : State) (c : Nat) (b : List Byte) : PendingStands s (s.platformEvent c b) :=
  .of_spares (platformEvent_spares s c b) (congrArg FieldBook.pending (platformEvent_keeps s c b .fb (by decide)))

theorem raiseAlert_pendingStands (s : State) (n : Nat) : PendingStands s (s.raiseAlert n) :=
  .of_spares (raiseAlert_spares s n) (congrArg FieldBook.pending (raiseAlert_keeps s n .fb (by decide)))

theorem raiseReplace_pendingStands (s : State) (n : Nat) : PendingStands s (s.raiseReplace n) := by
  unfold State.raiseReplace
  split
  · exact .rfl' _
  · exact (raiseAlert_pendingStands _ _).after rfl rfl

theorem raiseFor_pendingStands (s : State) (e : Ev) : PendingStands s (s.raiseFor e) :=
  (raiseAlert_pendingStands s e.alerts).trans (raiseReplace_pendingStands _ _)

theorem fieldBookPut_pendingStands (s : State) {c : ErrClass} (hc : c ≠ .moduleFatal) (r : Rec) :
    PendingStands s (s.fieldBookPut c r) := by
  have hkeeps := fieldBookPut_keeps s c r
  refine ⟨congrArg Hnd.running (hkeeps .hnd (by decide)), fun hrun => ?_⟩
  unfold State.fieldBookPut
  split
  · rfl
  · rw [if_pos (by simp [hrun, hc])]

theorem recordShare_pendingStands (t : State) {e : Ev} (hcls : e.class ≠ .moduleFatal) (r : Rec) : PendingStands t
    (if e.class = .unitFatal ∨ e.class = .moduleFatal then
      (t.fieldBookPut e.class r).platformEvent 0xF0 (r.bytes false) else t.fieldBookPut e.class r) := by
  have hput := fieldBookPut_pendingStands t hcls r
  split
  · exact hput.trans (platformEvent_pendingStands _ _ _)
  · exact hput

theorem ringStep_pendingStands {rep : Ev → State → State}
    (hrep : ∀ e s, e.class ≠ .moduleFatal → PendingStands s (rep e s)) (r : Rec) (t : State) (f : Nat) :
    PendingStands t (ringStep rep r t f) := by
  have hput : PendingStands t (t.ringPut f r) := .of_keeps (ringPut_keeps t f r) (by decide) (by decide)
  unfold ringStep
  split
  next p _ =>
    have hdenied : PendingStands t ((t.ringPut f r).countDenial f p true).2 :=
      hput.trans (.of_keeps (countDenial_keeps _ f p true) (by decide) (by decide))
    refine .trans ?_ (hrep _ _ fun h => nomatch h)
    split
    · exact hdenied.trans (hrep _ _ fun h => nomatch h)
    · exact hdenied
  · exact hput

theorem reportWith_pendingStands (n : Nat) :
    ∀ (e : Ev) (s : State), e.class ≠ .moduleFatal → PendingStands s (reportWith n e s) := by
  induction n with
  | zero => exact fun _ s _ => .rfl' s
  | succ n ih =>
    intro e s hcls
    have hraise := raiseFor_pendingStands s e
    unfold reportWith
    dsimp only
    split
    · exact hraise.trans ⟨rfl, fun _ => rfl⟩
    · refine .trans (hraise.trans ?_) (.foldl _ (fun t f => ringStep_pendingStands ih _ t f) _ _)
      exact (recordShare_pendingStands _ hcls _).after rfl rfl

theorem report_pendingStands {e : Ev} (hcls : e.class ≠ .moduleFatal) (s : State) : PendingStands s (s.report e) := by
  rw [report_eq s e fun h => absurd h hcls]
  exact reportWith_pendingStands 3 e s hcls

/-! ### The agent that answers SMBus (R561) -/

theorem smbusAgent_powered {s : State} (h : s.sup.mstate.powered = true) :
    s.smbusAgent = if s.handlerRow then .responder else .handler := by
  unfold State.smbusAgent
  split <;> simp_all [ModState.powered]

theorem smbusSettled_released {s old : State} (hsome : old.smbusAgent ≠ .nobody) (hother : s.smbusAgent ≠ old.smbusAgent) :
    (s.smbusSettled old).out = s.out ++ [.smbusRelease] := by
  rw [State.smbusSettled, bne_iff_ne.mpr hsome, bne_iff_ne.mpr hother]
  rfl

/-! ### The stop (Table 20.9, steps 1 and 2) -/

section
variable (s : State)

theorem stopHandler_hnd : s.stopHandler.hnd = { s.hnd.cleared with
    fieldLocked := s.hnd.fieldLocked, resets := satInc s.hnd.resets, wdTimes := s.hnd.wdTimes, inReset := true
    updPolicy := s.hnd.updPolicy, updTransport := s.hnd.updTransport, updLast := s.hnd.updLast
    unfenceQueue := s.hnd.unfenceQueue } := smbusSettled_keeps _ _ .hnd (by decide)

theorem stopHandler_sup : s.stopHandler.sup = { s.sup with lastReset := 3 } := smbusSettled_keeps _ _ .sup (by decide)

theorem stopHandler_forecaster : s.stopHandler.thm.forecaster = false :=
  congrArg Thm.forecaster (smbusSettled_keeps _ _ .thm (by decide))

theorem stopHandler_hrd : s.stopHandler.hrd =
    { s.hrd with cores := Tab.mapVal (fun _ c => { c with underTest := false }) s.hrd.cores } :=
  smbusSettled_keeps _ _ .hrd (by decide)

theorem stopHandler_fns :
    s.stopHandler.fns = Tab.mapVal (fun _ g => { g with mailbox := g.mailbox.endWith 3 }) s.fns :=
  smbusSettled_keeps _ _ .fns (by decide)

theorem stopHandler_underTest (g : Nat) : (s.stopHandler.core g).underTest = false := by
  rw [State.core, stopHandler_hrd, Tab.getD_mapVal_default _ _ rfl]

theorem stopHandler_mailbox (f : Nat) : (s.stopHandler.fn f).mailbox = (s.fn f).mailbox.endWith 3 := by
  rw [State.fn, stopHandler_fns, Tab.getD_mapVal_default _ _ rfl]; rfl

theorem stopHandler_atHost (h : ringsAtHost s = true) : ringsAtHost s.stopHandler = true := by
  rw [ringsAtHost, stopHandler_fns, Tab.mapVal, List.all_map]; exact h

theorem stopHandler_keeps : Keeps [.hrd, .thm, .hnd, .fns, .sup, .fb, .out] s s.stopHandler := by
  refine .trans' ?_ ((smbusSettled_keeps _ _).mono (by decide))
  intro p hp; cases p <;> simp_all [Part.same]

/-- The status responder takes SMBus from a Handler that was up (R561). -/
theorem stopHandler_out {s : State} (hup : s.handlerUp = true) : s.stopHandler.out = s.out ++ [.smbusRelease] := by
  obtain ⟨hpowered, hfree, hin, hheld⟩ : s.sup.mstate.powered = true ∧ s.sup.heldInReset = false ∧ s.hnd.inReset = false ∧
      s.hnd.held = false := by simpa [State.handlerUp, State.alive, and_assoc] using hup
  refine (smbusSettled_released ?_ ?_).trans rfl
  · rw [smbusAgent_powered hpowered]; split <;> decide
  · rw [smbusAgent_powered hpowered, smbusAgent_powered (by exact hpowered)]
    simp [State.handlerRow, hfree, hin, hheld]

end

/-! ### The reset with its records (R689) -/

/-- The Handler has stopped in `t`, its reset counted, and nothing beyond what it holds differs from `s`. -/
structure HandlerStopped (s t : State) : Prop where
  inReset : t.hnd.inReset = true
  running : t.hnd.running = false
  resets : t.hnd.resets = satInc s.hnd.resets
  watchdogs : t.hnd.watchdogs = s.hnd.watchdogs
  forecaster : t.thm.forecaster = false
  underTest : ∀ g, (t.core g).underTest = false
  mailbox : ∀ f, (t.fn f).mailbox = (s.fn f).mailbox.endWith 3
  ctxs : t.hrd.ctxs = s.hrd.ctxs
  keeps : Keeps ([.hrd, .thm] ++ reportParts) s t

theorem stopHandler_stopped (s : State) : HandlerStopped s s.stopHandler where
  inReset := by rw [stopHandler_hnd]
  running := by rw [stopHandler_hnd]; rfl
  resets := by rw [stopHandler_hnd]
  watchdogs := by rw [stopHandler_hnd]; rfl
  forecaster := stopHandler_forecaster s
  underTest := stopHandler_underTest s
  mailbox := stopHandler_mailbox s
  ctxs := by rw [stopHandler_hrd]
  keeps := (stopHandler_keeps s).mono (by decide)

/-- A report after the stop leaves it. -/
theorem HandlerStopped.report {s t : State} (h : HandlerStopped s t) {e : Ev} (hcls : e.class ≠ .moduleFatal) :
    HandlerStopped s (t.report e) := by
  have hspares := report_spares hcls t
  have hkeeps := report_keeps hcls t
  have hhrd : (t.report e).hrd = t.hrd := hkeeps .hrd (by decide)
  exact {
    inReset := (hspares.hnd (·.inReset) fun _ => rfl).trans h.inReset
    running := (hspares.hnd (·.running) fun _ => rfl).trans h.running
    resets := (hspares.hnd (·.resets) fun _ => rfl).trans h.resets
    watchdogs := (hspares.hnd (·.watchdogs) fun _ => rfl).trans h.watchdogs
    forecaster := (congrArg Thm.forecaster (hkeeps .thm (by decide))).trans h.forecaster
    underTest := fun g => by rw [State.core, hhrd]; exact h.underTest g
    mailbox := fun f => (report_mailbox hcls t f).trans (h.mailbox f)
    ctxs := by rw [hhrd]; exact h.ctxs
    keeps := h.keeps.trans' (hkeeps.mono (by decide)) }

/-- The Handler is held in reset. -/
def State.handlerHeld (s : State) : State := { s with hnd := { s.hnd with held := true } }

theorem HandlerStopped.hold {s t : State} (h : HandlerStopped s t) : HandlerStopped s t.handlerHeld where
  inReset := h.inReset
  running := h.running
  resets := h.resets
  watchdogs := h.watchdogs
  forecaster := h.forecaster
  underTest := h.underTest
  mailbox := h.mailbox
  ctxs := h.ctxs
  keeps := h.keeps.trans' (by intro p hp; cases p <;> simp_all [Part.same, State.handlerHeld, reportParts])

theorem hndEv_class (nn : Nat) (h : nn = 1 ∨ nn = 2 ∨ nn = 3) : Ev.class { blk := .hnd, nn := nn } ≠ .moduleFatal := by
  obtain rfl | rfl | rfl := h <;> decide

/-- With no update under way the reset is the stop and its record. -/
theorem handlerReset_eq {s : State} (h : s.hnd.updState = 0) (nn : Nat) :
    s.handlerReset nn = s.stopHandler.report { blk := .hnd, nn := nn } := by
  unfold State.handlerReset
  simp [h]

theorem handlerReset_stopped {s : State} (h : s.hnd.updState = 0) (nn : Nat) (hnn : nn = 1 ∨ nn = 2 ∨ nn = 3) :
    HandlerStopped s (s.handlerReset nn) := by
  rw [handlerReset_eq h]
  exact (stopHandler_stopped s).report (hndEv_class nn hnn)

/-- The times of the watchdog resets within the last 600 s, with this one. -/
def State.watchdogTimes (s : State) : List Nat := s.now :: s.hnd.wdTimes.filter fun t => s.now < t + 600000000000

/-- A watchdog expiry counted. -/
def State.watchdogCounted (s : State) : State :=
  { s with hnd := { s.hnd with watchdogs := satInc s.hnd.watchdogs, wdTimes := s.watchdogTimes } }

theorem watchdogCounted_keeps (s : State) : Keeps ([.hrd, .thm] ++ reportParts) s s.watchdogCounted := by
  intro p hp; cases p <;> simp_all [Part.same, State.watchdogCounted, reportParts]

theorem watchdogReset_eq (s : State) : s.watchdogReset = if 3 ≤ s.watchdogTimes.length then
    (s.watchdogCounted.handlerReset 1).handlerHeld.report { blk := .hnd, nn := 3 } else s.watchdogCounted.handlerReset 1 := rfl

theorem handlerReset_held {s : State} (h : s.hnd.updState = 0) : (s.handlerReset 1).hnd.held = false := by
  rw [handlerReset_eq h]
  exact ((report_spares (hndEv_class 1 (.inl rfl)) _).hnd (·.held) fun _ => rfl).trans (by rw [stopHandler_hnd]; rfl)

/-- The third watchdog reset within 600 s holds the Handler in reset. -/
theorem watchdogReset_stopped {s : State} (h : s.hnd.updState = 0) :
    HandlerStopped s.watchdogCounted s.watchdogReset ∧ (s.watchdogReset.hnd.held = true ↔ 3 ≤ s.watchdogTimes.length) := by
  have hreset : HandlerStopped s.watchdogCounted (s.watchdogCounted.handlerReset 1) :=
    handlerReset_stopped (s := s.watchdogCounted) h 1 (.inl rfl)
  have hcls := hndEv_class 3 (.inr (.inr rfl))
  rw [watchdogReset_eq]
  by_cases hthird : 3 ≤ s.watchdogTimes.length
  · rw [if_pos hthird]
    exact ⟨hreset.hold.report hcls, fun _ => hthird, fun _ => (report_spares hcls _).hnd (·.held) fun _ => rfl⟩
  · rw [if_neg hthird]
    rw [handlerReset_held (s := s.watchdogCounted) h]
    exact ⟨hreset, by simpa using hthird⟩

/-! ### The return (Table 20.9, steps 3 to 6) -/

/-- The Handler runs a bank of the flash and takes SMBus. -/
def State.bankRun (s : State) (bank : Bool) : State :=
  let u := s.runBank bank false
  State.smbusSettled { u with hnd := { u.hnd with inReset := false } } u

/-- The Handler goes on after the boot ROM: it moves the pending area and the forecaster resumes. -/
def State.handlerResumed (s : State) : State :=
  { (State.movePending { s with hnd := { s.hnd with running := true } }) with thm := s.thm.resume }

theorem exec_handlerReturn {s : State} {b : Bool} (hret : s.handlerReturning = true) (hbank : s.chooseBank = some (b, false))
    (hwindow : s.cad.windowOpen = false) (hfw : s.cad.fwOk = true) :
    exec .handlerReturn s = .next ((s.bankRun b).handlerResumed.nextTest.raiseAlert (2 ^ 2)) := by
  change execHandlerReturn s = _
  unfold execHandlerReturn
  rw [hret, hbank, hwindow, hfw]
  rfl

theorem exec_handlerReturn_stuck {s : State} (hret : s.handlerReturning = true) (hbank : s.chooseBank = none) :
    exec .handlerReturn s = .next (reportWith 3 { blk := .cad, nn := 8 } { s with hnd := { s.hnd with stuck := true } }) := by
  change execHandlerReturn s = _
  unfold execHandlerReturn
  rw [hret, hbank]
  rfl

/-- The pending area and its maps are in the Field book. -/
def State.pendingMoved (s : State) : State :=
  let b := s.fb.pending.foldl FieldBook.append s.fb
  let b := if s.fb.pendingBlock.isSome || !s.fb.pendingFences.isEmpty then b.save else b
  { s with fb := { b with pending := [], pendingDropped := 0, pendingFences := [], pendingBlock := none } }

/-- Beyond the move only a report of the dropped records is made. -/
theorem movePending_cases (s : State) :
    s.movePending = s.pendingMoved ∨ ∃ d, s.movePending = s.pendingMoved.report { blk := .erl, nn := 5, detail := [d] } := by
  unfold State.movePending
  dsimp only
  split
  · exact .inl rfl
  · exact .inr ⟨_, rfl⟩

theorem movePending_after (s : State) : Spares s.pendingMoved s.movePending ∧ PendingStands s.pendingMoved s.movePending ∧
    Keeps reportParts s.pendingMoved s.movePending := by
  obtain heq | ⟨d, heq⟩ := movePending_cases s <;> rw [heq]
  · exact ⟨.rfl' _, .rfl' _, Keeps.rfl' _ _⟩
  · have hcls : Ev.class { blk := .erl, nn := 5, detail := [d] } ≠ .moduleFatal := fun h => nomatch h
    exact ⟨report_spares hcls _, report_pendingStands hcls _, report_keeps hcls _⟩

theorem bankRun_keeps (s : State) (b : Bool) : Keeps [.cad, .hnd, .out] s (s.bankRun b) := by
  refine .trans' ?_ ((smbusSettled_keeps _ _).mono (by decide))
  intro p hp; cases p <;> simp_all [Part.same, State.runBank]

theorem bankRun_out {s : State} (b : Bool) (hret : s.handlerReturning = true) : (s.bankRun b).out = s.out ++ [.smbusRelease] := by
  obtain ⟨hpowered, hfree, hin, hheld, -⟩ : s.sup.mstate.powered = true ∧ s.sup.heldInReset = false ∧ s.hnd.inReset = true ∧
      s.hnd.held = false ∧ s.hnd.stuck = false := by simpa [State.handlerReturning, State.alive, and_assoc] using hret
  refine (smbusSettled_released ?_ ?_).trans rfl
  · rw [smbusAgent_powered (by exact hpowered)]; split <;> decide
  · rw [smbusAgent_powered (by exact hpowered), smbusAgent_powered (by exact hpowered)]
    simp [State.handlerRow, State.runBank, hfree, hin, hheld]

theorem raiseAlert_alert (s : State) (n : Nat) : (s.raiseAlert n).erl.alert = s.erl.alert ||| BitVec.ofNat 13 n :=
  congrArg Erl.alert (foldl_platformEvent_erl _ _ _ _)

/-- The Handler goes on with the pending area moved, and nothing else but the forecaster changed. -/
structure HandlerBack (s t : State) : Prop where
  running : t.hnd.running = true
  inReset : t.hnd.inReset = s.hnd.inReset
  forecaster : t.thm.forecaster = true
  pending : t.fb.pending = []
  pendingFences : t.fb.pendingFences = []
  entries : t.cad.entries = s.cad.entries
  out : s.out <+: t.out
  keeps : Keeps ([.hrd, .thm] ++ reportParts) s t

theorem handlerResumed_back (s : State) : HandlerBack s s.handlerResumed := by
  obtain ⟨hspares, hpending, hkeeps⟩ := movePending_after { s with hnd := { s.hnd with running := true } }
  exact {
    running := hspares.hnd (·.running) fun _ => rfl
    inReset := hspares.hnd (·.inReset) fun _ => rfl
    forecaster := rfl
    pending := hpending.pending rfl
    pendingFences := hspares.fb (·.pendingFences) fun _ => rfl
    entries := hspares.cad (·.entries) fun _ => rfl
    out := hspares.out
    keeps := by
      intro p hp
      have hsame := fun h => hkeeps p h
      cases p <;> simp_all [Part.same, State.handlerResumed, State.pendingMoved, reportParts] }

/-- The next test and the alert of the return leave it. -/
theorem HandlerBack.alerted {s t : State} (h : HandlerBack s t) (n : Nat) : HandlerBack s (t.nextTest.raiseAlert n) := by
  have htest := nextTest_keeps t
  have halert := raiseAlert_keeps t.nextTest n
  have hspares := raiseAlert_spares t.nextTest n
  have hnd : t.nextTest.hnd = t.hnd := htest .hnd (by decide)
  have hfb : (t.nextTest.raiseAlert n).fb = t.fb := (halert .fb (by decide)).trans (htest .fb (by decide))
  exact {
    running := ((hspares.hnd (·.running) fun _ => rfl).trans (congrArg Hnd.running hnd)).trans h.running
    inReset := ((hspares.hnd (·.inReset) fun _ => rfl).trans (congrArg Hnd.inReset hnd)).trans h.inReset
    forecaster := (congrArg Thm.forecaster ((halert .thm (by decide)).trans (htest .thm (by decide)))).trans h.forecaster
    pending := by rw [hfb]; exact h.pending
    pendingFences := by rw [hfb]; exact h.pendingFences
    entries := (congrArg Cad.entries ((halert .cad (by decide)).trans (htest .cad (by decide)))).trans h.entries
    out := h.out.trans (by have hsent := hspares.out; rwa [htest .out (by decide)] at hsent)
    keeps := (h.keeps.trans' (htest.mono (by decide))).trans' (halert.mono (by decide)) }

/-- Settles O50: each reset is the stop of the Handler and its records, so what the stop ends stays ended; the return moves the
pending area while the Handler runs, so that no record of the return itself is left in it. -/
theorem handlerResetsAlone : Obligations.HandlerResetsAlone := by
  unfold Obligations.HandlerResetsAlone
  intro s
  refine ⟨fun i hidle hi => ?_, fun hreach hup hidle => ?_, fun b hret hbank hwindow hfw => ?_, fun hret hbank => ?_⟩
  · have hexec : exec i s = .next s.watchdogReset := by
      obtain ⟨rfl, hup⟩ | ⟨rfl, hret⟩ := hi
      · exact congrArg Host.Outcome.next (if_pos hup)
      · exact congrArg Host.Outcome.next (if_pos hret)
    obtain ⟨hstop, hheld⟩ := watchdogReset_stopped hidle
    refine ⟨_, hexec, hstop.inReset, hstop.running, hstop.resets, hstop.watchdogs, hstop.forecaster, hheld.trans ?_,
      fun f hbusy => ?_, hstop.underTest, hstop.ctxs, (watchdogCounted_keeps s).trans' hstop.keeps⟩
    · exact Nat.succ_le_succ_iff
    · have hbox : (s.watchdogReset.fn f).mailbox = (s.fn f).mailbox.endWith 3 := hstop.mailbox f
      rw [hbox, Mailbox.endWith, if_pos hbusy]
      exact ⟨rfl, rfl, rfl⟩
  · have hcls := hndEv_class 2 (.inr (.inl rfl))
    have hexec : exec (.handlerResetRequest 0) s = .next (s.stopHandler.report { blk := .hnd, nn := 2 }) := by
      rw [← handlerReset_eq hidle]
      exact congrArg Host.Outcome.next (if_pos (by rw [hreach, hup]; rfl))
    have hstop := (stopHandler_stopped s).report hcls
    have hspares := report_spares hcls s.stopHandler
    refine ⟨_, hexec, hstop.inReset, hstop.running, hstop.watchdogs, hstop.resets, ?_, ?_, ?_, hstop.keeps⟩
    · exact (hspares.sup (·.lastReset) fun _ => rfl).trans (by rw [stopHandler_sup])
    · rw [← stopHandler_out hup]; exact hspares.out
    · exact records_of_before (report_records hcls rfl rfl) (stopHandler_atHost s) (stopHandler_keeps s .erl (by decide))
  · have hback := (handlerResumed_back (s.bankRun b)).alerted (2 ^ 2)
    have hrun := bankRun_keeps s b
    refine ⟨_, exec_handlerReturn hret hbank hwindow hfw, hback.running, hback.inReset.trans ?_, hback.forecaster, hback.pending,
      hback.pendingFences, ?_, hback.entries.trans ?_, ?_, (hrun.mono (by decide)).trans' hback.keeps⟩
    · exact congrArg Hnd.inReset (smbusSettled_keeps _ _ .hnd (by decide))
    · rw [raiseAlert_alert, BitVec.getLsbD_or]; simp
    · exact (congrArg Cad.entries (smbusSettled_keeps _ _ .cad (by decide))).trans rfl
    · rw [← bankRun_out b hret]; exact hback.out
  · have hspares := reportWith_spares 3 { blk := .cad, nn := 8 } { s with hnd := { s.hnd with stuck := true } }
    have hin : s.hnd.inReset = true := by simp_all [State.handlerReturning]
    have hkeeps : Keeps reportParts s { s with hnd := { s.hnd with stuck := true } } := by
      intro p hp; cases p <;> simp_all [Part.same, reportParts]
    refine ⟨_, exec_handlerReturn_stuck hret hbank, hspares.hnd (·.stuck) fun _ => rfl,
      (hspares.hnd (·.inReset) fun _ => rfl).trans hin, ?_, hkeeps.trans' (reportWith_keeps 3 _ _)⟩
    exact records_of_before (reportWith_records 2 _ _) (fun h => h) rfl

end Sys2Proof.Machine
end

section
/-!
Thermal units under readings, forecasts and the throttle decision (R641 to R651): what each step leaves of a unit's reading,
forecast and clock ceiling.
-/
namespace Sys2Proof.Machine
open Sys2Proof

/-- Nothing but the thermal state, the free choices and a report's parts has changed, and neither the bias nor the profile. -/
structure ThmFrame (s t : State) : Prop where
  bias : t.thm.bias = s.thm.bias
  profile : t.sup.profile = s.sup.profile
  keeps : Keeps ([.thm, .freeCount] ++ reportParts) s t

namespace ThmFrame

variable {s t u : State}

theorem rfl' (s : State) : ThmFrame s s := ⟨rfl, rfl, Keeps.rfl' _ _⟩

theorem trans (h : ThmFrame s t) (k : ThmFrame t u) : ThmFrame s u :=
  ⟨k.bias.trans h.bias, k.profile.trans h.profile, h.keeps.trans' k.keeps⟩

theorem foldl {α : Type} (g : State → α → State) (h : ∀ s a, ThmFrame s (g s a)) (xs : List α) (s : State) :
    ThmFrame s (xs.foldl g s) :=
  List.foldlRecOn (motive := ThmFrame s) _ _ (rfl' s) fun t ht a _ => ht.trans (h t a)

theorem ceiling (h : ThmFrame s t) : t.profileCeiling = s.profileCeiling := by
  have hfuses : t.fuses = s.fuses := h.keeps .fuses (by decide)
  simp only [State.profileCeiling, h.profile, hfuses]

theorem thmUnit (h : ThmFrame s t) (hunits : t.thm.units = s.thm.units) (v : Nat) : t.thmUnit v = s.thmUnit v := by
  rw [State.thmUnit, hunits, h.ceiling, State.thmUnit]

theorem throttleable (h : ThmFrame s t) (v : Nat) : t.throttleable v = s.throttleable v := by
  have hfuses : t.fuses = s.fuses := h.keeps .fuses (by decide)
  have hhrd : t.hrd = s.hrd := h.keeps .hrd (by decide)
  simp only [State.throttleable, State.enabled, State.fenced, State.core, hfuses, hhrd]

end ThmFrame

/-- What a step publishes of a unit or moves: its reading, its forecast and its clock ceiling. -/
def ThmUnit.values (x : ThmUnit) : Int × Int × BitVec 7 := (x.reading, x.forecast, x.thr)

/-- Every unit's reading, forecast and clock ceiling stand. -/
structure ThrStands (s t : State) : Prop where
  frame : ThmFrame s t
  values : ∀ u, (t.thmUnit u).values = (s.thmUnit u).values

namespace ThrStands

variable {s t u : State}

theorem rfl' (s : State) : ThrStands s s := ⟨.rfl' s, fun _ => rfl⟩

theorem trans (h : ThrStands s t) (k : ThrStands t u) : ThrStands s u :=
  ⟨h.frame.trans k.frame, fun v => (k.values v).trans (h.values v)⟩

theorem after (k : ThrStands t u) (h : ThrStands s t) : ThrStands s u := h.trans k

theorem foldl {α : Type} (g : State → α → State) (h : ∀ s a, ThrStands s (g s a)) (xs : List α) (s : State) :
    ThrStands s (xs.foldl g s) :=
  List.foldlRecOn (motive := ThrStands s) _ _ (rfl' s) fun t ht a _ => ht.trans (h t a)

theorem of_units (h : ThmFrame s t) (hunits : t.thm.units = s.thm.units) : ThrStands s t :=
  ⟨h, fun v => congrArg ThmUnit.values (h.thmUnit hunits v)⟩

/-- A change of other thermal state. -/
theorem setThm (s : State) (x : Thm) (hbias : x.bias = s.thm.bias) (hunits : x.units = s.thm.units) :
    ThrStands s { s with thm := x } := by
  refine of_units ⟨hbias, rfl, ?_⟩ hunits
  intro p hp; cases p <;> simp_all [Part.same]

theorem report {e : Ev} (hcls : e.class ≠ .moduleFatal) (s : State) : ThrStands s (s.report e) := by
  have hkeeps := report_keeps hcls s
  have hthm : (s.report e).thm = s.thm := hkeeps .thm (by decide)
  exact of_units ⟨congrArg Thm.bias hthm, (report_spares hcls s).sup (·.profile) fun _ => rfl, hkeeps.mono (by decide)⟩
    (congrArg Thm.units hthm)

theorem dropAlert (s : State) (n : Nat) : ThrStands s (s.dropAlert n) :=
  of_units ⟨rfl, rfl, (dropAlert_keeps s n).mono (by decide)⟩ rfl

theorem reading (h : ThrStands s t) (v : Nat) : (t.thmUnit v).reading = (s.thmUnit v).reading := congrArg (·.1) (h.values v)

theorem forecast (h : ThrStands s t) (v : Nat) : (t.thmUnit v).forecast = (s.thmUnit v).forecast := congrArg (·.2.1) (h.values v)

theorem thr (h : ThrStands s t) (v : Nat) : (t.thmUnit v).thr = (s.thmUnit v).thr := congrArg (·.2.2) (h.values v)

end ThrStands

/-! ### Changes of one unit -/

theorem thmUnit_setThmUnit_other (s : State) {u v : Nat} (x : ThmUnit) (h : v ≠ u) : (s.setThmUnit u x).thmUnit v = s.thmUnit v := by
  simp only [State.thmUnit, State.setThmUnit, Tab.getD, Tab.find?_put_other _ _ _ _ h]
  rfl

theorem thmUnit_modThm (s : State) (u v : Nat) (g : ThmUnit → ThmUnit) :
    (s.modThm u g).thmUnit v = if v = u then g (s.thmUnit v) else s.thmUnit v := by
  by_cases h : v = u
  · subst h; rw [if_pos rfl]; exact State.thmUnit_setThmUnit _ _ _
  · rw [if_neg h]; exact thmUnit_setThmUnit_other _ _ h

theorem modThm_frame (s : State) (u : Nat) (g : ThmUnit → ThmUnit) : ThmFrame s (s.modThm u g) :=
  ⟨rfl, rfl, (setThmUnit_keeps s u _).mono (by decide)⟩

theorem modThm_stands (s : State) (u : Nat) (g : ThmUnit → ThmUnit) (hg : ∀ x, (g x).values = x.values) :
    ThrStands s (s.modThm u g) := by
  refine ⟨modThm_frame s u g, fun v => ?_⟩
  rw [thmUnit_modThm]
  split
  · exact hg _
  · rfl

/-- Each unit of a list without repetition takes its own change, and no other unit any. -/
theorem thmUnit_foldl_modThm (g : Nat → ThmUnit → ThmUnit) {l : List Nat} (hl : l.Nodup) (s : State) (v : Nat) :
    (l.foldl (fun t u => t.modThm u (g u)) s).thmUnit v = if v ∈ l then g v (s.thmUnit v) else s.thmUnit v := by
  induction l generalizing s with
  | nil => rfl
  | cons u r ih =>
    obtain ⟨hu, hr⟩ := List.nodup_cons.mp hl
    rw [List.foldl_cons, ih hr, thmUnit_modThm]
    by_cases h : v = u
    · subst h; simp [hu]
    · simp [h]

/-! ### Readings (R641) -/

/-- The change of a unit whose sensors all work. -/
def ThmUnit.read (ts : Sensors) (x : ThmUnit) : ThmUnit :=
  { x with reading := (highestWorking ts).getD 0, sensorFail := false, blind := false }

theorem highestWorking_cons_of_works {t : Int} (h : sensorWorks t = true) (r : Sensors) : ∃ m, highestWorking (t :: r) = some m := by
  unfold highestWorking
  split <;> simp [h]

theorem highestWorking_of_sound {u : Nat} {ts : Sensors} (h : sensorFailures u ts = []) : ∃ m, highestWorking ts = some m := by
  cases ts with
  | nil => exact nomatch h
  | cons t r =>
    refine highestWorking_cons_of_works ?_ r
    by_contra hbad
    simp [sensorFailures, hbad] at h

theorem readUnit_eq {u : Nat} {ts : Sensors} (h : sensorFailures u ts = []) (s : State) :
    s.readUnit u ts = s.modThm u (ThmUnit.read ts) := by
  obtain ⟨m, hm⟩ := highestWorking_of_sound h
  unfold State.readUnit State.formReading
  have hread : ThmUnit.read ts = fun x => { x with reading := m, sensorFail := false, blind := false } := by
    funext x; rw [ThmUnit.read, hm]; rfl
  rw [h, hm, hread]
  rfl

theorem thmEv_class (s : State) {nn : Nat} (u : Nat) (h : nn ≠ 1) : (s.thmEv nn u).class ≠ .moduleFatal := by
  have hcls : (s.thmEv nn u).class = .reportOnly := if_neg h
  rw [hcls]; decide

theorem checkInlet_stands (s : State) : ThrStands s s.checkInlet := by
  unfold State.checkInlet
  dsimp only
  split
  · exact (ThrStands.report (thmEv_class s _ (by decide)) _).after (.setThm s _ rfl rfl)
  · split
    · exact (ThrStands.dropAlert _ _).after (.setThm s _ rfl rfl)
    · exact .rfl' s

theorem checkStack_stands (s : State) (q : Nat) : ThrStands s (s.checkStack q) := by
  unfold State.checkStack
  dsimp only
  split
  · exact (ThrStands.report (thmEv_class s _ (by decide)) _).after (.setThm s _ rfl rfl)
  · split
    · exact .rfl' s
    · exact .setThm s _ rfl rfl

/-- A refresh of units whose sensors all work sets their readings and no clock ceiling. -/
theorem refresh_values {sensors : List Sensors} (hwork : sensorsWork sensors) {us : List Nat} (hnodup : us.Nodup)
    (hus : ∀ u ∈ us, u < 174) (s : State) : ThmFrame s (s.refresh us sensors) ∧ ∀ v,
      ((s.refresh us sensors).thmUnit v).values =
        (if v ∈ us then (s.thmUnit v).read (sensors.getD v []) else s.thmUnit v).values := by
  have hreads : us.foldl (fun t u => t.readUnit u (sensors.getD u [])) s =
      us.foldl (fun t u => t.modThm u (ThmUnit.read (sensors.getD u []))) s :=
    List.foldl_ext _ _ _ fun t u hu => readUnit_eq (hwork u (hus u hu)) t
  have hread : ThmFrame s (us.foldl (fun t u => t.modThm u (ThmUnit.read (sensors.getD u []))) s) :=
    .foldl _ (fun t u => modThm_frame t u _) us s
  have hchecked : ThrStands (us.foldl (fun t u => t.readUnit u (sensors.getD u [])) s) (s.refresh us sensors) := by
    refine .trans ?_ (.foldl _ (fun t q => checkStack_stands t q) _ _)
    split
    · exact checkInlet_stands _
    · exact .rfl' _
  rw [hreads] at hchecked
  refine ⟨hread.trans hchecked.frame, fun v => ?_⟩
  rw [hchecked.values, thmUnit_foldl_modThm _ hnodup]

/-! ### The throttle decision (R646) -/

/-- At most the one unit's clock ceiling has moved, by 25 MHz at most; no reading and no forecast has. -/
structure ThrMoved (v : Nat) (s t : State) : Prop where
  frame : ThmFrame s t
  reading : ∀ u, (t.thmUnit u).reading = (s.thmUnit u).reading
  forecast : ∀ u, (t.thmUnit u).forecast = (s.thmUnit u).forecast
  others : ∀ u, u ≠ v → (t.thmUnit u).thr = (s.thmUnit u).thr
  raised : (t.thmUnit v).thr.toNat ≤ (s.thmUnit v).thr.toNat + 1
  lowered : (s.thmUnit v).thr.toNat ≤ (t.thmUnit v).thr.toNat + 1

namespace ThrMoved

variable {s t u : State} {v : Nat}

theorem of_stands (v : Nat) (h : ThrStands s t) : ThrMoved v s t :=
  ⟨h.frame, h.reading, h.forecast, fun u _ => h.thr u, by rw [h.thr]; omega, by rw [h.thr]; omega⟩

theorem trans_stands (h : ThrMoved v s t) (k : ThrStands t u) : ThrMoved v s u where
  frame := h.frame.trans k.frame
  reading := fun w => (k.reading w).trans (h.reading w)
  forecast := fun w => (k.forecast w).trans (h.forecast w)
  others := fun w hw => (k.thr w).trans (h.others w hw)
  raised := by rw [k.thr]; exact h.raised
  lowered := by rw [k.thr]; exact h.lowered

theorem after (k : ThrMoved v t u) (h : ThrStands s t) : ThrMoved v s u where
  frame := h.frame.trans k.frame
  reading := fun w => (k.reading w).trans (h.reading w)
  forecast := fun w => (k.forecast w).trans (h.forecast w)
  others := fun w hw => (k.others w hw).trans (h.thr w)
  raised := by rw [← h.thr]; exact k.raised
  lowered := by rw [← h.thr]; exact k.lowered

end ThrMoved

theorem setThr_moved (s : State) (v : Nat) {thr : Nat} (hfit : thr < 128) (hup : thr ≤ s.thrOf v + 1) (hdown : s.thrOf v ≤ thr + 1) :
    ThrMoved v s (s.setThr v thr) := by
  have hunit : ∀ u, (s.setThr v thr).thmUnit u =
      if u = v then { s.thmUnit u with thr := BitVec.ofNat 7 thr } else s.thmUnit u := fun u => thmUnit_modThm s v u _
  have hval : ((s.setThr v thr).thmUnit v).thr.toNat = thr := by
    rw [hunit, if_pos rfl]; exact Nat.mod_eq_of_lt hfit
  refine ⟨modThm_frame _ _ _, fun u => ?_, fun u => ?_, fun u hu => ?_, by rw [hval]; exact hup, by rw [hval]; exact hdown⟩
  · rw [hunit]; split <;> rfl
  · rw [hunit]; split <;> rfl
  · rw [hunit, if_neg hu]

theorem thrOf_lt (s : State) (u : Nat) : s.thrOf u < 128 := (s.thmUnit u).thr.isLt

/-- A lowering counted in THROTTLES. -/
def State.throttleCounted (s : State) : State := { s with thm := { s.thm with throttles := satInc s.thm.throttles } }

/-- A broken floor counted. -/
def State.breachCounted (s : State) : State := { s with thm := { s.thm with breaches := satInc s.thm.breaches } }

theorem throttleCounted_stands (s : State) : ThrStands s s.throttleCounted := .setThm s _ rfl rfl

theorem breachCounted_stands (s : State) : ThrStands s s.breachCounted := .setThm s _ rfl rfl

theorem lowerOne_moved (s : State) (u : Nat) : ThrMoved u s (s.lowerOne u) := by
  have hlt := thrOf_lt s u
  have hsame : s.throttleCounted.thrOf u = s.thrOf u := rfl
  exact (setThr_moved s.throttleCounted u (thr := s.thrOf u - 1) (by omega) (by omega) (by omega)).after
    (throttleCounted_stands s)

theorem breach_moved (s : State) (u : Nat) : ThrMoved u s (s.breach u) := by
  have hlow := lowerOne_moved s u
  unfold State.breach
  dsimp only
  split
  · exact hlow
  · refine (hlow.trans_stands (modThm_stands _ u (fun x => { x with breached := true }) fun _ => rfl)).trans_stands ?_
    exact (ThrStands.report (thmEv_class _ u (by decide)) _).after (breachCounted_stands _)

/-- The unit a minimum is taken at is one of the list. -/
theorem leastUnit_mem (f : Nat → Int) {l : List Nat} {w : Nat} (h : leastUnit f l = some w) : w ∈ l := by
  induction l generalizing w with
  | nil => exact nomatch h
  | cons u r ih =>
    unfold leastUnit at h
    split at h
    · obtain rfl := Option.some.inj h; exact List.mem_cons_self
    · next v hv =>
      split at h <;> obtain rfl := Option.some.inj h
      · exact List.mem_cons_of_mem _ (ih hv)
      · exact List.mem_cons_self

theorem lower_moved (s : State) (u : Nat) : ∃ v, ThrMoved v s (s.lower u) := by
  unfold State.lower
  dsimp only
  split
  · exact ⟨u, lowerOne_moved s u⟩
  · split
    · exact ⟨u, breach_moved s u⟩
    · split
      · exact ⟨_, lowerOne_moved s _⟩
      · exact ⟨u, .of_stands u (.rfl' s)⟩

theorem raiseThr_moved (s : State) (u : Nat) (h : s.thrOf u < s.maxThr u) : ThrMoved u s (s.raiseThr u) := by
  have hmax : s.maxThr u ≤ 64 := by
    unfold State.maxThr
    split
    · exact profileCeiling_le s
    · decide
  have hraise := setThr_moved s u (thr := s.thrOf u + 1) (by omega) (by omega) (by omega)
  unfold State.raiseThr
  dsimp only
  split
  · have hended := hraise.trans_stands (modThm_stands _ u (fun x => { x with breached := false }) fun _ => rfl)
    split
    · exact hended
    · exact hended.trans_stands (.dropAlert _ _)
  · exact hraise

theorem decide_moved (s : State) : ∃ v, ThrMoved v s s.decide_ := by
  unfold State.decide_
  split
  · exact ⟨0, .of_stands 0 (.rfl' s)⟩
  · next u hu =>
    dsimp only
    generalize hshown : ({ s with thm := { s.thm with hot := BitVec.ofNat 8 u, headroom := BitVec.ofInt 16 (s.headroomOf u) } } : State) = t
    have hstands : ThrStands s t := hshown ▸ .setThm s _ rfl rfl
    have hlower : ∀ w, ∃ v, ThrMoved v s (t.lower w) := fun w => (lower_moved t w).imp fun v hv => hv.after hstands
    have hnone : ∃ v, ThrMoved v s t := ⟨u, .of_stands u hstands⟩
    split
    · split
      · exact hlower u
      · split
        · exact hlower _
        · exact hnone
    · split
      · split
        · next w hw =>
          have hroom := (List.mem_filter.mp (leastUnit_mem _ hw)).2
          simp only [Bool.and_eq_true, decide_eq_true_eq] at hroom
          exact ⟨w, (raiseThr_moved t w hroom.2).after hstands⟩
        · exact hnone
      · exact hnone

end Sys2Proof.Machine
end

section
/-!
The steps of the forecaster and of its fallback, the trip, the fan, the thermal ceiling and wear (R643 to R659).
-/
namespace Sys2Proof.Machine
open Sys2Proof

/-! ### The forecaster's step (R643, R644, R646) -/

/-- A unit's effective forecast. -/
def ThmUnit.forecasted (forecast : Int) (x : ThmUnit) : ThmUnit := { x with forecast := forecast }

/-- Every unit's effective forecast is published. -/
def State.forecasted (s : State) (fs : List Int) : State :=
  (List.range 172).foldl (fun t u => t.modThm u (ThmUnit.forecasted (fs.getD u 0 + s.biasOf (unitQuarter u)))) s

/-- The hot spots and the base plate's reading enter their channels. -/
def State.sampled (s : State) : State :=
  let t := [0, 1, 2, 3].foldl (fun t q => t.addSample q (t.hotSpot q)) s
  t.addSample 4 (t.thmUnit 173).reading

/-- Publishing a forecast leaves the bias, so each unit's is the one of the step's beginning. -/
theorem foldl_forecasts (fs : List Int) (l : List Nat) (s : State) :
    l.foldl (fun t u => t.modThm u fun x => { x with forecast := fs.getD u 0 + t.biasOf (unitQuarter u) }) s =
      l.foldl (fun t u => t.modThm u (ThmUnit.forecasted (fs.getD u 0 + s.biasOf (unitQuarter u)))) s := by
  induction l generalizing s with
  | nil => rfl
  | cons u r ih => exact ih _

theorem exec_forecasterStep {s : State} {ts : List Sensors} {fs : List Int} (halive : s.alive = true)
    (hrun : s.thm.forecaster = true) : exec (.forecasterStep ts fs) s =
      .next (((s.refresh (List.range 174) ts).forecasted fs).decide_.sampled) := by
  refine (if_neg (by simp [halive, hrun])).trans ?_
  rw [State.forecasted, ← foldl_forecasts]
  rfl

theorem addSample_stands (s : State) (c : Nat) (v : Int) : ThrStands s (s.addSample c v) := .setThm s _ rfl rfl

theorem sampled_stands (s : State) : ThrStands s s.sampled :=
  (ThrStands.foldl _ (fun t q => addSample_stands t q _) _ s).trans (addSample_stands _ _ _)

theorem forecasted_thmUnit (s : State) (fs : List Int) (v : Nat) : (s.forecasted fs).thmUnit v =
    if v ∈ List.range 172 then (s.thmUnit v).forecasted (fs.getD v 0 + s.biasOf (unitQuarter v)) else s.thmUnit v :=
  thmUnit_foldl_modThm _ List.nodup_range s v

theorem forecasted_frame (s : State) (fs : List Int) : ThmFrame s (s.forecasted fs) :=
  .foldl _ (fun t u => modThm_frame t u _) _ s

theorem ThmFrame.biasOf {s t : State} (h : ThmFrame s t) (q : Option Nat) : t.biasOf q = s.biasOf q := by
  simp only [State.biasOf, h.bias]

/-! ### The fallback's step (R651) -/

/-- The units of a quarter that the fallback lowers. -/
def State.fallbackHits (s : State) (q : Nat) : List Nat :=
  (thermalUnits (some q)).filter fun u => s.throttleable u && decide (1680 < (s.thmUnit u).reading ∧ minThr u < s.thrOf u)

/-- One step of 25 MHz down. -/
def ThmUnit.lowered (x : ThmUnit) : ThmUnit := { x with thr := BitVec.ofNat 7 (x.thr.toNat - 1) }

/-- The units of a list lowered. -/
def State.lowerAll (s : State) (l : List Nat) : State := l.foldl (fun t u => t.modThm u ThmUnit.lowered) s

/-- The first unit of a lowering is reported once per episode. -/
def State.fallbackReported (s : State) (q : Nat) (hit : List Nat) : State :=
  match hit with
  | [] => s
  | u :: _ =>
    if s.thm.fallbackEpisode.contains q then s
    else State.report { s with thm := { s.thm with
      fallback := true, fallbackEpisode := q :: s.thm.fallbackEpisode } } (s.thmEv 3 u)

/-- The report as the step makes it, the outcome inside each case. -/
theorem fallbackReported_next (s : State) (q : Nat) (hit : List Nat) :
    (match hit with
      | [] => .next s
      | u :: _ =>
        if s.thm.fallbackEpisode.contains q then .next s
        else .next (State.report { s with thm := { s.thm with
          fallback := true, fallbackEpisode := q :: s.thm.fallbackEpisode } } (s.thmEv 3 u)) :
      Host.Outcome State Fault Refusal) = .next (s.fallbackReported q hit) := by
  cases hit with
  | nil => rfl
  | cons u r => exact (apply_ite Host.Outcome.next _ _ _).symm

/-- The units whose sensors a quarter's fallback reads. -/
def fallbackReads (q : Nat) : List Nat := thermalUnits (some q) ++ if q = 0 then [172, 173] else []

theorem exec_fallbackStep {s : State} {q : Nat} {ts : List Sensors} (h : s.fallbackActs = true) : exec (.fallbackStep q ts) s =
    .next (((s.refresh (fallbackReads q) ts).lowerAll ((s.refresh (fallbackReads q) ts).fallbackHits q)).fallbackReported q
      ((s.refresh (fallbackReads q) ts).fallbackHits q)) := by
  refine (if_neg (by simp [h])).trans ?_
  exact fallbackReported_next _ q _

theorem fallbackReported_stands (s : State) (q : Nat) (hit : List Nat) : ThrStands s (s.fallbackReported q hit) := by
  unfold State.fallbackReported
  split
  · exact .rfl' s
  · split
    · exact .rfl' s
    · exact (ThrStands.report (thmEv_class s _ (by decide)) _).after (.setThm s _ rfl rfl)

theorem lowerAll_frame (s : State) (l : List Nat) : ThmFrame s (s.lowerAll l) := .foldl _ (fun t u => modThm_frame t u _) _ s

theorem lowerAll_thmUnit (s : State) {l : List Nat} (hl : l.Nodup) (v : Nat) :
    (s.lowerAll l).thmUnit v = if v ∈ l then (s.thmUnit v).lowered else s.thmUnit v := thmUnit_foldl_modThm _ hl s v

theorem lowered_thr (x : ThmUnit) : x.lowered.thr.toNat = x.thr.toNat - 1 :=
  Nat.mod_eq_of_lt (Nat.lt_of_le_of_lt (Nat.sub_le _ _) x.thr.isLt)

theorem nodup_thermalUnits (q : Option Nat) : (thermalUnits q).Nodup := List.nodup_range.filter _

theorem mem_thermalUnits {q : Option Nat} {u : Nat} : u ∈ thermalUnits q ↔ u < 172 ∧ unitQuarter u = q := by
  simp [thermalUnits]

theorem throttleable_lt {s : State} {u : Nat} (h : s.throttleable u = true) : u < 160 := by
  simp only [State.throttleable, Bool.or_eq_true, Bool.and_eq_true, decide_eq_true_eq] at h
  omega

theorem nodup_fallbackReads (q : Nat) : (fallbackReads q).Nodup := by
  refine (nodup_thermalUnits _).append ?_ ?_
  · split <;> decide
  · intro u hu hmore
    have hlt := (mem_thermalUnits.mp hu).1
    split at hmore
    · simp only [List.mem_cons, List.not_mem_nil, or_false] at hmore; omega
    · exact nomatch hmore

theorem fallbackReads_lt {q u : Nat} (h : u ∈ fallbackReads q) : u < 174 := by
  obtain hu | hu := List.mem_append.mp h
  · have hlt := (mem_thermalUnits.mp hu).1
    omega
  · split at hu
    · simp only [List.mem_cons, List.not_mem_nil, or_false] at hu; omega
    · exact nomatch hu

theorem mem_fallbackHits {s : State} {q u : Nat} : u ∈ s.fallbackHits q ↔
    unitQuarter u = some q ∧ s.throttleable u = true ∧ 1680 < (s.thmUnit u).reading ∧ minThr u < s.thrOf u := by
  rw [State.fallbackHits, List.mem_filter, mem_thermalUnits, Bool.and_eq_true, decide_eq_true_eq]
  refine ⟨fun ⟨⟨_, hq⟩, hrest⟩ => ⟨hq, hrest⟩, fun ⟨hq, hthr, hrest⟩ => ⟨⟨?_, hq⟩, hthr, hrest⟩⟩
  have hlt := throttleable_lt hthr
  omega

/-- A refresh moves no clock ceiling. -/
theorem refresh_thr {ts : List Sensors} (hwork : sensorsWork ts) {us : List Nat} (hnodup : us.Nodup) (hus : ∀ u ∈ us, u < 174)
    (s : State) (v : Nat) : ((s.refresh us ts).thmUnit v).thr = (s.thmUnit v).thr := by
  refine (congrArg (·.2.2) ((refresh_values hwork hnodup hus s).2 v)).trans ?_
  split <;> rfl

/-- The forecaster's step and the fallback's, with the conditions that keep each from acting. -/
theorem forecasterAndFallbackStep : ForecasterAndFallbackStep := by
  intro s ts fs hwork
  refine ⟨fun halive hrun => ?_, fun q hacts hq => ?_, fun q hrun => ?_, fun hstopped => ?_⟩
  · have hus : ∀ u ∈ List.range 174, u < 174 := fun u hu => List.mem_range.mp hu
    obtain ⟨hframe, hvalues⟩ := refresh_values hwork List.nodup_range hus s
    have hthr := refresh_thr hwork List.nodup_range hus s
    have hexec := exec_forecasterStep (fs := fs) (ts := ts) halive hrun
    generalize s.refresh (List.range 174) ts = r at hexec hframe hvalues hthr
    have hpub := forecasted_thmUnit r fs
    have hpubframe := forecasted_frame r fs
    generalize r.forecasted fs = p at hexec hpub hpubframe
    obtain ⟨v, hmoved⟩ := decide_moved p
    have hdone := hmoved.trans_stands (sampled_stands _)
    have hpthr : ∀ u, (p.thmUnit u).thr = (s.thmUnit u).thr := fun u => by
      rw [hpub, ← hthr]; split <;> rfl
    refine ⟨_, v, hexec, fun u hu => ?_, fun u hu => ?_, fun u hu => (hdone.others u hu).trans (hpthr u), ?_, ?_,
      (hframe.trans (hpubframe.trans hdone.frame)).keeps⟩
    · rw [hdone.forecast, hpub, if_pos (List.mem_range.mpr hu), hframe.biasOf]; rfl
    · have hread : (p.thmUnit u).reading = (r.thmUnit u).reading := by rw [hpub]; split <;> rfl
      have hval := congrArg (·.1) (hvalues u)
      rw [if_pos (List.mem_range.mpr hu)] at hval
      obtain ⟨m, hm⟩ := highestWorking_of_sound (hwork u hu)
      have hm' : ((s.thmUnit u).read (ts.getD u [])).reading = m := congrArg (·.getD 0) hm
      rw [hdone.reading, hread, hm, ← hm']
      exact congrArg some hval.symm
    · rw [← hpthr]; exact hdone.raised
    · rw [← hpthr]; exact hdone.lowered
  · obtain ⟨hframe, hvalues⟩ := refresh_values hwork (nodup_fallbackReads q) (fun u => fallbackReads_lt) s
    have hthr := refresh_thr hwork (nodup_fallbackReads q) (fun u => fallbackReads_lt) s
    have hexec := exec_fallbackStep (q := q) (ts := ts) hacts
    generalize s.refresh (fallbackReads q) ts = r at hexec hframe hvalues hthr
    have hhits : (r.fallbackHits q).Nodup := (nodup_thermalUnits _).filter _
    have hlow := lowerAll_thmUnit r hhits
    have hlowframe := lowerAll_frame r (r.fallbackHits q)
    have hstands := fallbackReported_stands (r.lowerAll (r.fallbackHits q)) q (r.fallbackHits q)
    refine ⟨_, hexec, fun u => ?_, (hframe.trans (hlowframe.trans hstands.frame)).keeps⟩
    have hread : ((r.lowerAll (r.fallbackHits q)).thmUnit u).reading = (r.thmUnit u).reading := by
      rw [hlow]; split <;> rfl
    have hold : r.thrOf u = s.thrOf u := congrArg BitVec.toNat (hthr u)
    rw [hstands.thr, hstands.reading, hread, ← hold, ← hframe.throttleable]
    rw [hlow]
    by_cases hhit : u ∈ r.fallbackHits q
    · rw [if_pos hhit, if_pos (mem_fallbackHits.mp hhit)]; exact lowered_thr _
    · rw [if_neg hhit, if_neg fun h => hhit (mem_fallbackHits.mpr h)]; rfl
  · exact if_pos (by simp [State.fallbackActs, hrun])
  · exact if_pos (by simp [hstopped])

end Sys2Proof.Machine
end

section
/-!
The trip, the fan, the thermal ceiling and the wear ledger (R652 to R659).
-/
namespace Sys2Proof.Machine
open Sys2Proof

/-! ### The trip (R652) -/

theorem enterHold_tripLatch (s : State) (cause : Nat) : (s.enterHold cause).sup.tripLatch = s.sup.tripLatch := by
  have hreport : ∀ (e : Ev) (v : State), ((reportWith 3 e v).toState .hold).sup.tripLatch = v.sup.tripLatch := fun e v =>
    (congrArg Sup.tripLatch (toState_sup _ _)).trans ((reportWith_spares 3 e v).sup (·.tripLatch) fun _ => rfl)
  exact hreport _ _

/-- The latch set, one free choice taken. -/
def State.tripped (s : State) : State := { s.takeFree with sup := { s.takeFree.sup with tripLatch := true } }

theorem exec_thermalTrip {s : State} (q : Nat) (harmed : s.tripArmed = true) :
    ∃ u, exec (.thermalTrip q) s = .next (s.tripped.report (s.thmEv 1 u)) := ⟨_, if_neg (by simp [harmed])⟩

theorem thermalTrip_holds {s : State} (q : Nat) (hstandby : s.sup.standby = true)
    (hup : s.sup.mstate = .boot ∨ s.sup.mstate = .ready ∨ s.sup.mstate = .run) :
    ∃ u : State, exec (.thermalTrip q) s = .next (u.enterHold 0x10) ∧ u.pending = s.pending ∧ u.sup.tripLatch = true := by
  have hpowered : s.sup.mstate.powered = true := by obtain h | h | h := hup <;> rw [h] <;> rfl
  obtain ⟨v, hexec⟩ := exec_thermalTrip q (s := s) (by simp [State.tripArmed, hstandby, hpowered])
  obtain ⟨u, hreport, hpend, hlatch⟩ := report_holds (s := s.tripped) (e := s.thmEv 1 v) ⟨rfl, fun h => nomatch h⟩ hup
  exact ⟨u, hexec.trans (congrArg _ hreport), hpend, hlatch⟩

/-! ### The fan (R653) -/

theorem clampDemand_toNat (d : Int) : (clampDemand d).toNat = (max 30 (min 100 d)).toNat := by
  rw [clampDemand, BitVec.toNat_ofNat, Nat.mod_eq_of_lt (by omega)]

theorem clampDemand_bounds (d : Int) : 30 ≤ (clampDemand d).toNat ∧ (clampDemand d).toNat ≤ 100 := by
  rw [clampDemand_toNat]; omega

theorem maxDemand_toNat (a b : BitVec 7) : (maxDemand a b).toNat = max a.toNat b.toNat := by
  unfold maxDemand
  split <;> omega

theorem followDemand_target (t : Thm) (d : BitVec 7) : (t.followDemand d).fanTarget = d := by
  unfold Thm.followDemand
  (repeat' split) <;> rfl

theorem followDemand_terms (t : Thm) (d : BitVec 7) :
    (t.followDemand d).dFc = t.dFc ∧ (t.followDemand d).dInlet = t.dInlet ∧ (t.followDemand d).dBase = t.dBase := by
  unfold Thm.followDemand
  (repeat' split) <;> exact ⟨rfl, rfl, rfl⟩

theorem followDemand_rises {t : Thm} {d : BitVec 7} (h : t.fan.toNat ≤ d.toNat) : (t.followDemand d).fan = d := by
  rw [Thm.followDemand, if_pos h]

theorem followDemand_falls {t : Thm} {d : BitVec 7} (h : d.toNat < t.fan.toNat) :
    t.fan.toNat ≤ (t.followDemand d).fan.toNat + 1 ∧ (t.followDemand d).fan.toNat ≤ t.fan.toNat := by
  rw [Thm.followDemand, if_neg (by omega)]
  split
  · have hone : (t.fan - 1).toNat = t.fan.toNat - 1 := by
      have hpos : 1 ≤ t.fan := by bv_omega
      rw [BitVec.toNat_sub_of_le hpos]; rfl
    dsimp only
    omega
  · exact ⟨Nat.le_succ _, Nat.le_refl _⟩

/-- The three demands of the fan, each from 30 to 100, and the fan following the largest. -/
theorem exec_fanDemandUpdate {s : State} (halive : s.alive = true) (hrun : s.thm.forecaster = true) :
    ∃ a b c : BitVec 7, (∀ d ∈ [a, b, c], 30 ≤ d.toNat ∧ d.toNat ≤ 100) ∧ exec .fanDemandUpdate s = .next { s with
      thm := ({ s.thm with dFc := a, dInlet := b, dBase := c } : Thm).followDemand (maxDemand a (maxDemand b c)) } := by
  refine ⟨_, _, _, ?_, if_neg (by simp [halive, hrun])⟩
  have hbase : ∀ x : Int, 30 ≤ (if (s.thmUnit 173).blind then 100 else clampDemand x).toNat ∧
      (if (s.thmUnit 173).blind then 100 else clampDemand x).toNat ≤ 100 := by
    intro x
    split
    · decide
    · exact clampDemand_bounds x
  simp only [List.mem_cons, List.not_mem_nil, or_false, forall_eq_or_imp, forall_eq]
  exact ⟨clampDemand_bounds _, clampDemand_bounds _, hbase _⟩

theorem setThm_keeps (s : State) (x : Thm) : Keeps [.thm] s { s with thm := x } := by
  intro p hp; cases p <;> simp_all [Part.same]

/-! ### The thermal ceiling (R654) -/

theorem ceilingMw_cool (cap : Nat) {t : Int} (h : t ≤ 720) : ceilingMw cap t = cap * 1000 := by
  have hfull : (max 640 (min 1600 (1600 - 3 * (t - 720)))).toNat = 1600 := by omega
  rw [ceilingMw, hfull]; omega

theorem ceilingMw_hot (cap : Nat) {t : Int} (h : 1040 ≤ t) : ceilingMw cap t = cap * 400 := by
  have hleast : (max 640 (min 1600 (1600 - 3 * (t - 720)))).toNat = 640 := by omega
  rw [ceilingMw, hleast]; omega

/-! ### The wear ledger (R656 to R659) -/

theorem take_n (x : Channel) (v : Int) : (x.take v).2.n = x.n := by
  unfold Channel.take
  (repeat' split) <;> rfl

/-- A channel of the cycle counter. -/
def State.channel (s : State) (c : Nat) : Channel := Tab.getD s.thm.channels c {}

/-- What a second of channels leaves: the hour counts, and a channel without a sample in it with its residue. -/
structure SecondEnds (s t : State) : Prop where
  keeps : Keeps [.thm, .fb] s t
  hours : t.fb.work.hours = s.fb.work.hours
  silent : ∀ c, (s.channel c).n = 0 → (t.channel c).n = 0 ∧ t.fb.work.residue.getD c [] = s.fb.work.residue.getD c []

namespace SecondEnds

variable {s t u : State}

theorem rfl' (s : State) : SecondEnds s s := ⟨Keeps.rfl' _ _, rfl, fun _ h => ⟨h, rfl⟩⟩

theorem trans (h : SecondEnds s t) (k : SecondEnds t u) : SecondEnds s u where
  keeps := h.keeps.trans' k.keeps
  hours := k.hours.trans h.hours
  silent := fun c hc => by
    obtain ⟨hzero, hres⟩ := h.silent c hc
    obtain ⟨hzero', hres'⟩ := k.silent c hzero
    exact ⟨hzero', hres'.trans hres⟩

end SecondEnds

/-- A channel's detector as it stands after the second's mean. -/
def State.channelTaken (s : State) (c : Nat) (x : Channel) : State :=
  { s with thm := { s.thm with channels := Tab.put s.thm.channels c x } }

/-- A confirmed reversal is in the ledger. -/
def State.reversed (s : State) (c : Nat) (v : Int) : State := { s with fb := { s.fb with work := s.fb.work.reversal c v } }

theorem sampleChannel_cases (s : State) (c : Nat) : (s.channel c).n = 0 ∧ s.sampleChannel c = s ∨
    (s.channel c).n ≠ 0 ∧ ∃ x : Channel, x.n = 0 ∧
      (s.sampleChannel c = s.channelTaken c x ∨ ∃ v, s.sampleChannel c = (s.channelTaken c x).reversed c v) := by
  unfold State.sampleChannel
  dsimp only
  split
  · next h => exact .inl ⟨h, rfl⟩
  · next h =>
    refine .inr ⟨h, _, take_n { s.channel c with sum := 0, n := 0 } ((s.channel c).sum / ((s.channel c).n : Int)), ?_⟩
    split
    · exact .inr ⟨_, rfl⟩
    · exact .inl rfl

theorem channelTaken_channel (s : State) (c d : Nat) (x : Channel) :
    (s.channelTaken c x).channel d = if d = c then x else s.channel d := by
  by_cases h : d = c
  · subst h; rw [if_pos rfl]; exact Tab.getD_put_same ..
  · rw [if_neg h]; exact Tab.getD_put_other _ _ _ _ _ h

theorem reversal_residue_other (w : StateBlock) {c d : Nat} (v : Int) (h : d ≠ c) :
    (w.reversal c v).residue.getD d [] = w.residue.getD d [] := by
  rw [StateBlock.reversal]
  dsimp only
  rw [List.getD_eq_getElem?_getD, List.getElem?_set_ne (Ne.symm h), List.getD_eq_getElem?_getD]

theorem channelTaken_keeps (s : State) (c : Nat) (x : Channel) : Keeps [.thm, .fb] s (s.channelTaken c x) := by
  intro p hp; cases p <;> simp_all [Part.same, State.channelTaken]

theorem reversed_keeps (s : State) (c : Nat) (v : Int) : Keeps [.thm, .fb] s (s.reversed c v) := by
  intro p hp; cases p <;> simp_all [Part.same, State.reversed]

theorem sampleChannel_ends (s : State) (c : Nat) : SecondEnds s (s.sampleChannel c) ∧ ((s.sampleChannel c).channel c).n = 0 := by
  obtain ⟨hzero, heq⟩ | ⟨hsome, x, hx, heq⟩ := sampleChannel_cases s c
  · rw [heq]; exact ⟨.rfl' s, hzero⟩
  · have hothers : ∀ d, (s.channel d).n = 0 → d ≠ c := fun d hd hdc => hsome (hdc ▸ hd)
    have htaken : ((s.channelTaken c x).channel c).n = 0 := by rw [channelTaken_channel, if_pos rfl]; exact hx
    have hsilent : ∀ d, (s.channel d).n = 0 → ((s.channelTaken c x).channel d).n = 0 := fun d hd => by
      rw [channelTaken_channel, if_neg (hothers d hd)]; exact hd
    obtain heq | ⟨v, heq⟩ := heq <;> rw [heq]
    · exact ⟨⟨channelTaken_keeps s c x, rfl, fun d hd => ⟨hsilent d hd, rfl⟩⟩, htaken⟩
    · exact ⟨⟨(channelTaken_keeps s c x).trans' (reversed_keeps _ c v), rfl, fun d hd =>
        ⟨hsilent d hd, reversal_residue_other _ v (hothers d hd)⟩⟩, htaken⟩

/-- A second of each channel of a list ends them. -/
theorem sampleChannels_end (l : List Nat) (s : State) : SecondEnds s (l.foldl (fun t c => t.sampleChannel c) s) ∧
    ∀ c ∈ l, ((l.foldl (fun t c => t.sampleChannel c) s).channel c).n = 0 := by
  induction l generalizing s with
  | nil => exact ⟨.rfl' s, fun _ h => nomatch h⟩
  | cons c r ih =>
    obtain ⟨hfirst, hzero⟩ := sampleChannel_ends s c
    obtain ⟨hrest, hzeros⟩ := ih (s.sampleChannel c)
    refine ⟨hfirst.trans hrest, fun d hd => ?_⟩
    obtain rfl | hd := List.mem_cons.mp hd
    · exact (hrest.silent d hzero).1
    · exact hzeros d hd

/-- The life estimate brought up to date. -/
def State.lifeUpdated (s : State) : State := { s with fb := { s.fb with work := { s.fb.work with lifePpm := s.fb.work.life } } }

/-- The end of life reported. -/
def State.lifeEnded (s : State) : State := { s with thm := { s.thm with lifeEnd := true } }

theorem updateLife_cases (s : State) :
    s.updateLife = s.lifeUpdated ∨ s.updateLife = s.lifeUpdated.lifeEnded.report { blk := .thm, nn := 6 } := by
  unfold State.updateLife
  dsimp only
  split
  · exact .inr rfl
  · exact .inl rfl

theorem lifeUpdated_keeps (s : State) : Keeps ([.thm] ++ reportParts) s s.lifeUpdated := by
  intro p hp; cases p <;> simp_all [Part.same, State.lifeUpdated, reportParts]

theorem updateLife_after (s : State) : Spares s.lifeUpdated s.updateLife ∧ (∃ b, s.updateLife.thm = { s.thm with lifeEnd := b }) ∧
    Keeps ([.thm] ++ reportParts) s s.updateLife := by
  obtain heq | heq := updateLife_cases s <;> rw [heq]
  · exact ⟨.rfl' _, ⟨s.thm.lifeEnd, rfl⟩, lifeUpdated_keeps s⟩
  · have hcls : Ev.class { blk := .thm, nn := 6 } ≠ .moduleFatal := by decide
    have hkeeps := report_keeps hcls s.lifeUpdated.lifeEnded
    exact ⟨(report_spares hcls _).after rfl rfl, ⟨true, hkeeps .thm (by decide)⟩,
      ((lifeUpdated_keeps s).trans' ((setThm_keeps _ _).mono (by decide))).trans' (hkeeps.mono (by decide))⟩

/-- The hour's mean takes the second's. -/
def State.hourAdded (s : State) : State :=
  match s.hotMean with
  | some v => { s with thm := { s.thm with hourSum := s.thm.hourSum + v, hourN := s.thm.hourN + 1 } }
  | none => s

theorem hourAdded_ends (s : State) : SecondEnds s s.hourAdded := by
  unfold State.hourAdded
  split
  · exact ⟨(setThm_keeps s _).mono (by decide), rfl, fun _ h => ⟨h, rfl⟩⟩
  · exact .rfl' s

theorem exec_cycleSample {s : State} (halive : s.alive = true) (hrun : s.thm.forecaster = true) : exec .cycleSample s =
    .next ([0, 1, 2, 3, 4].foldl (fun t c => t.sampleChannel c) s.hourAdded).updateLife := if_neg (by simp [halive, hrun])

/-- The hour's sums cleared. -/
def State.hourCleared (s : State) : State := { s with thm := { s.thm with hourSum := 0, hourN := 0 } }

/-- One hour counted in a band. -/
def State.hourCounted (s : State) (band : Nat) : State :=
  { s with fb := { s.fb with work := { s.fb.work with hours := bump s.fb.work.hours band } } }

section
variable {s : State} (halive : s.alive = true) (hrun : s.hnd.running = true)
include halive hrun

theorem exec_hourBandUpdate_short (h : s.thm.hourN < 1800) : exec .hourBandUpdate s = .next s.hourCleared :=
  (if_neg (by simp [halive, hrun])).trans (if_pos h)

theorem exec_hourBandUpdate_cool (h : 1800 ≤ s.thm.hourN) (hcool : s.thm.hourSum ≤ 1360 * (s.thm.hourN : Int)) :
    exec .hourBandUpdate s = .next (s.hourCleared.hourCounted 0).updateLife := by
  refine (if_neg (by simp [halive, hrun])).trans ((if_neg (by omega)).trans ?_)
  rw [if_pos hcool]
  rfl

end

theorem tripFanCeilingAndWear : TripFanCeilingAndWear := by
  intro s
  refine ⟨fun q _ hstandby hup => ?_, fun halive hrun => ?_, fun halive hrun => ?_, fun halive hrun => ?_, fun halive hrun =>
    ⟨fun hshort => ?_, fun hlong hcool => ?_⟩⟩
  · obtain ⟨u, hexec, hpend, hlatch⟩ := thermalTrip_holds q hstandby hup
    obtain ⟨hhold, hcause, -⟩ := enterHold_sup u 0x10
    exact ⟨_, hexec, hhold, hcause, (enterHold_tripLatch u 0x10).trans hlatch, rfl,
      (congrArg Standing.pending (enterHold_standing u 0x10)).trans hpend⟩
  · obtain ⟨a, b, c, hbounds, hexec⟩ := exec_fanDemandUpdate halive hrun
    simp only [List.mem_cons, List.not_mem_nil, or_false, forall_eq_or_imp, forall_eq] at hbounds
    obtain ⟨ha, hb, hc⟩ := hbounds
    refine ⟨_, hexec, ?_⟩
    generalize hterms : ({ s.thm with dFc := a, dInlet := b, dBase := c } : Thm) = x
    obtain ⟨hfc, hinlet, hbase⟩ := followDemand_terms x (maxDemand a (maxDemand b c))
    have hfan : x.fan = s.thm.fan := by rw [← hterms]
    dsimp only
    rw [followDemand_target, hfc, hinlet, hbase, maxDemand_toNat, maxDemand_toNat, ← hterms]
    dsimp only
    rw [hterms, ← hfan]
    refine ⟨by omega, by omega, by omega, by omega, by omega, fun hle => ?_, fun hlt => ?_, setThm_keeps s _⟩
    · exact followDemand_rises (by rw [maxDemand_toNat, maxDemand_toNat]; exact hle)
    · exact followDemand_falls (by rw [maxDemand_toNat, maxDemand_toNat]; exact hlt)
  · have hexec : exec .thermalCeilingUpdate s = .next { s with
        thm := { s.thm with ceilingMw := some (ceilingMw s.cap (s.thmUnit 172).reading) } } :=
      congrArg Host.Outcome.next (if_pos (by simp [halive, hrun]))
    exact ⟨_, hexec, fun hcool => congrArg some (ceilingMw_cool _ hcool), fun hhot => congrArg some (ceilingMw_hot _ hhot),
      setThm_keeps s _⟩
  · obtain ⟨hends, hzero⟩ := sampleChannels_end [0, 1, 2, 3, 4] s.hourAdded
    have hexec := exec_cycleSample halive hrun
    generalize [0, 1, 2, 3, 4].foldl (fun t c => t.sampleChannel c) s.hourAdded = u at hends hzero hexec
    have hall := (hourAdded_ends s).trans hends
    obtain ⟨hspares, ⟨b, hthm⟩, hkeeps⟩ := updateLife_after u
    refine ⟨_, hexec, fun c hc => ?_, ?_, ?_, fun c _ hsilent => ?_, (hall.keeps.mono (by decide)).trans' hkeeps⟩
    · rw [hthm]
      exact hzero c (by simp only [List.mem_cons, List.not_mem_nil, or_false]; omega)
    · exact (hspares.fb (·.work.lifePpm) fun _ => rfl).trans (hspares.fb (·.work.life) fun _ => rfl).symm
    · exact (hspares.fb (·.work.hours) fun _ => rfl).trans hall.hours
    · exact (hspares.fb (·.work.residue.getD c []) fun _ => rfl).trans (hall.silent c hsilent).2
  · exact ⟨_, exec_hourBandUpdate_short halive hrun hshort, rfl, rfl, setThm_keeps s _⟩
  · obtain ⟨hspares, ⟨b, hthm⟩, hkeeps⟩ := updateLife_after (s.hourCleared.hourCounted 0)
    have hcounted : Keeps ([.thm] ++ reportParts) s (s.hourCleared.hourCounted 0) := by
      intro p hp; cases p <;> simp_all [Part.same, State.hourCounted, State.hourCleared, reportParts]
    exact ⟨_, exec_hourBandUpdate_cool halive hrun hlong hcool, by rw [hthm]; rfl, hspares.fb (·.work.hours) fun _ => rfl,
      hspares.fb (·.work.cycles) fun _ => rfl, hcounted.trans' hkeeps⟩

/-- Settles O47: a step reads, publishes and decides in turn, and each part leaves the values the next one reads. -/
theorem thermalStepsTripFanAndWear : Obligations.ThermalStepsTripFanAndWear :=
  ⟨forecasterAndFallbackStep, tripFanCeilingAndWear⟩

end Sys2Proof.Machine
end
